-- ==== Sys2Proof/Word.lean ====
section
/-! DEFINITION. The byte, the machine words of the register window, and byte strings. -/

namespace Sys2Proof

/-- One byte of a mailbox area, an image, a frame or host memory. -/
abbrev Byte := BitVec 8

/-- A byte string, lowest address first. -/
abbrev Bytes := List Byte

/-- A 32-bit register of the register window (chapter 20). -/
abbrev Word32 := BitVec 32

end Sys2Proof
end

