-- ==== Sys2Proof/Syntax.lean ====
section
/-! DEFINITION. The commands of the block: one constructor per row of the table of operations and events, with the
facts of the outside world each one brings (a packet's fields, a measured value, what a host read returned). -/

namespace Sys2Proof

/-- What the host's memory answered while the Headstock executed one request: the bytes read at req_addr (none: the
read failed), whether the write to resp_addr succeeded (R28, R33), and whether a failed read timed out, or ended with UR, CA or poison
(R361). -/
structure HostIo where
  req : Option Bytes
  respOk : Bool
  timeout : Bool := false
  deriving DecidableEq, Repr

/-- A PTP message as received (IEEE 1588-2019): messageType, transport (0 UDP/IPv4, 1 IEEE 802.3, 2 UDP/IPv6), domain,
unicast, security TLV, sequence, source port identity, correction (2^-16 ns), timestamp field in ns, two-step flag,
the Announce data set, the requesting port of a response, the receive tick and sub-tick, and the frame. -/
structure PtpMsg where
  kind : Nat
  transport : Nat
  domain : Nat
  unicast : Bool
  secured : Bool
  seq : Nat
  sender : Nat
  correction : Int
  timeNs : Nat
  twoStep : Bool
  priority1 : Nat
  clockClass : Nat
  accuracy : Nat
  variance : Nat
  priority2 : Nat
  grandmaster : Nat
  stepsRemoved : Nat
  requester : Nat
  rxDc : Nat
  rxSub : Nat
  /-- sub-tick at which an event message that answers it leaves -/
  txSub : Nat
  /-- 0 the default delay request-response profile, 1 the default peer-to-peer profile, others any other profile -/
  profile : Nat
  frame : Bytes
  deriving DecidableEq, Repr

/-- A gate of CLK10_IN: its periods, the stamp of the rising edge that opened it and the sub-tick of the one that closed it. -/
structure Clk10Edges where
  periods : Nat
  firstDc : Nat
  firstSub : Nat
  lastSub : Nat
  deriving DecidableEq, Repr

/-- Receiver coefficients: CTLE peaking, the DFE tap and 24 FFE taps. -/
structure Coeffs where
  ctle : Nat := 0
  dfe : Int := 0
  ffe : List Int := List.replicate 24 0
  deriving DecidableEq, Repr

/-- What a training has reached: the receiver's coefficients, and the transmitter's pre- and post-cursor taps. -/
structure Trained where
  coeffs : Coeffs
  pre : Nat
  post : Nat
  deriving DecidableEq, Repr

/-- What a lane's receiver has measured since it was last read: SNR in 0.01 dB, HI_BER, invalid sync headers, FEC
codewords corrected and uncorrectable, and FEC symbols corrected. -/
structure LaneTally where
  snr : Int
  hiBer : Bool
  badHeaders : Nat
  fecCorrected : Nat
  fecBad : Nat
  fecSymbols : Nat
  deriving DecidableEq, Repr, Inhabited

/-- A stream packet as received on one interface of a head. `kind`: 0 leader or image header, 1 payload, 2 trailer, 3 the
head's answer that packets `pid` to `lastPid` are unavailable. `payloadType`: 0 image, 1 image with extended chunk, 2
multi-part, any other unsupported. `width` and `height` are the leader's. `offset` is the payload byte (of the selected part)
that `data` starts at. -/
structure StreamPacket where
  head : Nat
  alt : Bool
  channel : Nat
  extended : Bool
  allIn : Bool
  crcOk : Bool
  block : Nat
  pid : Nat
  lastPid : Nat
  kind : Nat
  payloadType : Nat
  format : Nat
  width : Nat
  height : Nat
  part : Nat
  offset : Nat
  data : Bytes
  resent : Bool
  deriving DecidableEq, Repr

/-- What a poll of a module bus finds: a module, its identifier byte, whether that shows CMIS, its revision (high nibble the
major number) and its flag bytes. -/
structure ModuleSeen where
  present : Bool
  identifier : Nat
  cmis : Bool
  revision : Nat
  flags : Nat
  deriving DecidableEq, Repr

/-- A value that a faulty engine put into a row of a graph output in place of the right one: output record, column, value. -/
structure Upset where
  out : Nat
  column : Nat
  value : Int
  deriving DecidableEq, Repr

/-- What only the port itself knows when HOST.GET_PORT asks: whether its link is in training or recovery, and the reads outstanding besides
the descriptor fetches. -/
structure PortRegs where
  moving : Bool
  reads : Nat
  deriving DecidableEq, Repr

/-- What a host writes into a PF's configuration space (R329, R332, R334, Table 13.3): NumVFs, Max_Payload_Size and Max_Read_Request_Size
in bytes, the tags it enables (0: 8-bit, 1: 10-bit, 2: 14-bit), and the functions of the port whose PowerState is D3hot, a bit each. -/
structure PortControl where
  numVfs : Nat
  mps : Nat
  mrrs : Nat
  tags : Nat
  d3hot : Nat
  deriving DecidableEq, Repr

/-- A burst that fails: 0 completion timeout, 1 UR, CA or poison, 2 internal error; and what a COPY had read of its source. -/
structure BurstFault where
  kind : Nat
  src : Bytes
  deriving DecidableEq, Repr

/-- What a calibration measured: the codes of its runs (the third is empty where it made two), in the order of Table 16.1, and the mean
sensor reading over them, in 1/16 °C. -/
structure CalRuns where
  run1 : List Int
  run2 : List Int
  run3 : List Int
  temp : Int
  deriving DecidableEq, Repr, Inhabited

/-- What a cold start finds: the straps, bytes of the flash that have changed since the last one (part, offset and byte: parts 0 and 1 the
firmware slots A and B, 2 the board record, 3 and 4 the calibration slots), engines that the
built-in test retires, HBM channels that the memory test finds failed as stack and channel, the calibrations of lanes and quads by target,
the duration in ms, and the device counter at mailbox ready. -/
structure ColdFacts where
  role : Nat
  bootSel : Bool
  testEn : Bool
  flash : List (Nat × Nat × Nat)
  retired : List Nat
  failed : List (Nat × Nat)
  runs : List (Nat × CalRuns)
  ms : Nat
  dc : Nat
  deriving DecidableEq, Repr

/-- What a device warm start finds: its duration in ms, the sensor readings of the quads, and the calibrations of a step 6 that
recalibrates. -/
structure WarmFacts where
  ms : Nat
  quads : List (Nat × Int)
  runs : List (Nat × CalRuns)
  deriving DecidableEq, Repr

/-- How the work of a ticket ended (R31): the host accepted what was written to its memory, the work itself succeeded, and it exceeded
its own limit; the discovery acknowledges that CAM.DISCOVER gathered. -/
structure WorkFin where
  respOk : Bool
  good : Bool
  timeout : Bool
  found : List Bytes
  deriving DecidableEq, Repr

/-- The commands, in the order of the table. A row of the mailbox is the Headstock's work on its oldest request, with what the host's memory
answered; a row of the register window is one access by a function; every other row is an event, with the facts of the outside world that
it brings. -/
inductive Instr where
  /-- R24: Host writes GO to SLOT_CTRL; the device takes the request area as it stands and sets STATE to BUSY, or sets OVERRUN if the slot is BUSY or OFFLINE. -/
  | slotGo (fn slot : Nat)
  /-- R23: Host writes 1 to the W1C OVERRUN bit of SLOT_STATE to clear it. -/
  | slotOverrunClear (fn slot : Nat)
  /-- R31: Ticketed background work ends; the device keeps the final response and raises the function's ticket vector. -/
  | ticketWorkEnd (ticket : Nat) (fin : WorkFin)
  /-- R31: A final ticket response that has not been collected expires 60 s after completion. -/
  | ticketExpiry (ticket : Nat)
  /-- R34: SYS.NOP returns its request payload unchanged. -/
  | sysNop (io : HostIo)
  /-- R38: SYS.GET_FEATURES returns the offered map, the accepted map and the lock state. -/
  | sysGetFeatures (io : HostIo)
  /-- R39: SYS.SET_FEATURES validates the map and accepts and locks it, or reports first_bad_bit or FEATURES_LOCKED. -/
  | sysSetFeatures (io : HostIo)
  /-- R31: SYS.TICKET_STATUS returns the final response of a ticket, or IN_PROGRESS, or TICKET_UNKNOWN. -/
  | sysTicketStatus (io : HostIo)
  /-- R43: CFG.STATUS returns the generations, commit state, stage time and digests. -/
  | cfgStatus (io : HostIo)
  /-- R471: CFG.COMMIT makes its checks in order, validates the staged image, computes P_c and arms a commit. -/
  | cfgCommit (io : HostIo)
  /-- R50: CFG.CANCEL disarms an armed commit before P_c, or returns TOO_LATE or BAD_STATE. -/
  | cfgCancel (io : HostIo)
  /-- R42: CFG.DISCARD drops the staged image, or returns BUSY while a commit is armed or applying. -/
  | cfgDiscard (io : HostIo)
  /-- R473: CFG.READ_IMAGE writes the canonical active or staged image to resp_addr. -/
  | cfgReadImage (io : HostIo)
  /-- R55: STAT.SET_PERIOD stages the period type, source and interval. -/
  | statSetPeriod (io : HostIo)
  /-- R56: STAT.LATCH_NOW closes the current period at the next position-row boundary and returns its period_number. -/
  | statLatchNow (io : HostIo)
  /-- R45: Preparation of every shadow copy for an armed commit completes within the reported stage time. -/
  | commitPreparationDone
  /-- R48: An IMMEDIATE commit whose master position has not advanced for 10 ms, with no row in flight, is applied at once. -/
  | commitIdleApply
  /-- R56: The device counter passes a point of the TIME period lattice, so that a boundary falls due. -/
  | timeLatticePoint
  /-- R61: An encoder input holds a new level for filter_n samples, so the edge is accepted with the time of its first sample and counted. -/
  | encoderEdgeAccepted (ch levels t : Nat)
  /-- R62: An input returns to its old level before filter_n samples; both changes are suppressed, OVERSPEED is counted and UNCERTAIN set. -/
  | overspeed (ch : Nat)
  /-- R66: Every ssi_period_us the device clocks one SSI frame and converts its value into a count step. -/
  | ssiFrame (ch : Nat) (startHigh endLow : Bool) (bits : Nat)
  /-- R69: Z stays at its active level longer than z_hold_us, so STUCK_Z is set and index edges are ignored. -/
  | stuckZ (ch : Nat)
  /-- R70: A channel makes no count for stale_time_us; it sets STALE, reports speed 0 and may set NO_MOTION. -/
  | stale (ch : Nat)
  /-- R74: After the filter and pipeline delay, the spindle position is updated from the active channel's count. -/
  | spindleUpdate
  /-- R79: Every 2^14 ticks the device measures each active channel's speed by edge timing or window counting. -/
  | speedSample
  /-- R84: An event flag goes quiet after 1 ms without a further event, or FAILED clears after 1 s without a failure condition. -/
  | flagLiveExpiry (ch : Nat)
  /-- R82: The emulator emits its next count, rate-limited, following the spindle position, and sets EMU_LAG or EMU_SKIP as needed. -/
  | emuOutputCount (e : Nat)
  /-- R83: A GP input is accepted at a new level through its filter. -/
  | gpInputEdge (gp : Nat) (level : Bool) (tick : Nat)
  /-- R83: A GP input stays active longer than hold_us, so GP STUCK is raised. -/
  | gpStuck (g : Nat)
  /-- R85: A read of SPIN_POS_LO latches the whole spindle read block for the reading function. -/
  | spinPosLoRead (f : Nat)
  /-- R86: POS.SET_CHANNEL stages a channel's mode, filter, checks, index and SSI settings. -/
  | posSetChannel (io : HostIo)
  /-- R474: POS.SET_SPINDLE stages the master, alternate, scales, slip and failover settings. -/
  | posSetSpindle (io : HostIo)
  /-- R81: POS.SET_DIV stages a divider output. -/
  | posSetDiv (io : HostIo)
  /-- R82: POS.SET_EMU stages an encoder emulator. -/
  | posSetEmu (io : HostIo)
  /-- R83: POS.SET_GP_INPUT stages a GP input's filter, sense and stuck check. -/
  | posSetGpInput (io : HostIo)
  /-- R85: POS.GET_STATUS returns the spindle status. -/
  | posGetStatus (io : HostIo)
  /-- R84: POS.GET_CHANNEL returns one channel's count, speed and flags. -/
  | posGetChannel (io : HostIo)
  /-- R73: POS.GET_INDEX_HISTORY returns a channel's 16-entry index history without clearing it. -/
  | posGetIndexHistory (io : HostIo)
  /-- R84: POS.CLEAR_FLAGS clears the sticky channel flags or the spindle SLIP bit. -/
  | posClearFlags (io : HostIo)
  /-- R77: POS.RESTORE_MASTER checks the master's health and arms a return to it at its next count. -/
  | posRestoreMaster (io : HostIo)
  /-- R89: In a tick, the spindle position crosses one or more of a unit's values above H; the unit fires one trigger on its routes and retires the queued values. -/
  | compareMatch (u depPs : Nat)
  /-- R92: A FIRE_LATE value fires one trigger, flagged late, in the tick after TRIG.QUEUE_ADD is processed. -/
  | lateTrigger (u depPs : Nat)
  /-- R98: A TRG output starts its pulse at the delayed time after the match tick. -/
  | trgPulseStart (o : Nat)
  /-- R98: A TRG pulse ends after width_ticks. -/
  | trgPulseEnd (o : Nat)
  /-- R102: Once an armed value lies within lead_us of travel, the device computes action_time and sends scheduled action commands. -/
  | gevActionSend (u : Nat)
  /-- R103: At the held device-counter tick the device samples the achieved position and sets degraded beyond tol_nm. -/
  | gevAchievedSample (u : Nat)
  /-- R106: The spindle position crosses a mark's assertion position; the ACT output asserts, or the mark is discarded if the output is disabled. -/
  | markAssert
  /-- R106: A mark deasserts after width_us in TIME mode, or at its deassertion position and no earlier than width_us in LENGTH mode. -/
  | markDeassert
  /-- R97: TRIG.SET_UNIT stages a compare unit's generator, policy, gate and routes. -/
  | trigSetUnit (io : HostIo)
  /-- R99: TRIG.SET_TRG_OUTPUT stages the pulse and delay of a TRG output. -/
  | trigSetTrgOutput (io : HostIo)
  /-- R105: TRIG.SET_ACT_BANK stages an ACT bank's standard. -/
  | trigSetActBank (io : HostIo)
  /-- R106: TRIG.SET_ACT_OUTPUT stages an ACT output's mode, width, band, lead and trail. -/
  | trigSetActOutput (io : HostIo)
  /-- R107: TRIG.SET_ACTION_RULE stages a region-driven marking rule. -/
  | trigSetActionRule (io : HostIo)
  /-- R102: TRIG.SET_GEV_ACTION stages the GigE Vision action parameters of a unit. -/
  | trigSetGevAction (io : HostIo)
  /-- R93: TRIG.QUEUE_ADD arms a one-shot value, or applies the behind policy, DUPLICATE, QUEUE_FULL or UNIT_OFF. -/
  | trigQueueAdd (io : HostIo)
  /-- R93: TRIG.QUEUE_CANCEL disarms one value, or returns NOT_FOUND. -/
  | trigQueueCancel (io : HostIo)
  /-- R93: TRIG.QUEUE_FLUSH disarms all values of a unit. -/
  | trigQueueFlush (io : HostIo)
  /-- R89: TRIG.GET_UNIT returns a unit's state and H. -/
  | trigGetUnit (io : HostIo)
  /-- R96: TRIG.READ_LOG returns the newest trigger records of a unit. -/
  | trigReadLog (io : HostIo)
  /-- R109: TRIG.MARK_ADD schedules a mark directly under the rules of R108. -/
  | trigMarkAdd (io : HostIo)
  /-- R121: A view takes an offset measurement from its source; the servo steps or slews it, or records it while frozen. -/
  | servoMeasurement (v : Nat) (offsetPs : Int) (path : Option Nat)
  /-- R122: A view's source is lost by its timeout; the view enters HOLDOVER and may move the selection. -/
  | viewLost (v : Nat)
  /-- R131: With REVERTIVE, after revert_hold_s of a healthy primary, the selection returns seamlessly to it. -/
  | selectRevert
  /-- R133: At the end of qualification the path is accepted, or the view is set ASYMMETRY_SUSPECT or ASYMMETRY_UNVERIFIED. -/
  | qualificationEnd (v : Nat)
  /-- R126: The PTP protocol engine receives and timestamps a PTP message, uses it or discards and counts it. -/
  | ptpMessageRx (port : Nat) (m : PtpMsg)
  /-- R127: A MASTER_ONLY port sends its periodic Announce, or its Sync with the sub-tick it leaves at, serving TV_SEL. -/
  | ptpMasterTransmit (port : Nat) (sync : Option Nat)
  /-- R126: A SLAVE_ONLY port sends its periodic Delay_Req or Pdelay_Req. -/
  | ptpDelayReqSend (port sub : Nat)
  /-- R137: A read of ENTRY0 pops the head timestamp entry and latches its remaining words. -/
  | txqEntry0Read (port : Nat)
  /-- R137: A read of the RC register TXQ_DROPS returns the drops and clears them. -/
  | txqDropsRead (port : Nat)
  /-- R137: Host writes 1 to the W1C OVERFLOW bit of a timestamp queue. -/
  | txqOverflowClear (port : Nat)
  /-- R138: A PPS_IN edge is timestamped and taken as a measurement, or ignored and counted as PPS_GLITCH. -/
  | ppsInEdge (falling : Bool) (sub : Nat)
  /-- R138: A 1 s gate of CLK10_IN ends and the view's frequency follows the measurement. -/
  | clk10Gate (g : Clk10Edges)
  /-- R139: PPS_OUT emits its pulse at a second boundary of its view, at most once per second number. -/
  | ppsOutPulse
  /-- R119: A read of DC_LO in a view or TV_SEL block latches the whole block for the reading function. -/
  | viewBlockRead (f : Nat) (v : Nat)
  /-- R124: A TIME.STEP_VIEW reaches its device_count and sets the view, incrementing its epoch. -/
  | viewStepApply (v : Nat)
  /-- R120: TIME.SET_VIEW stages a view's source and servo settings. -/
  | timeSetView (io : HostIo)
  /-- R125: TIME.SET_PTP_PORT stages a PTP port's role and settings. -/
  | timeSetPtpPort (io : HostIo)
  /-- R129: TIME.SET_SELECT stages the primary, the backup and the switching flags. -/
  | timeSetSelect (io : HostIo)
  /-- R139: TIME.SET_PPS stages PPS_IN, PPS_OUT and CLK10_IN. -/
  | timeSetPps (io : HostIo)
  /-- R114: TIME.GET_VIEW returns a view's state. -/
  | timeGetView (io : HostIo)
  /-- R124: TIME.STEP_VIEW arms a step of a FREE or HOST_FEED view at a given tick. -/
  | timeStepView (io : HostIo)
  /-- R120: TIME.FEED_OFFSET gives a HOST_FEED view one offset measurement. -/
  | timeFeedOffset (io : HostIo)
  /-- R131: TIME.SELECT_NOW moves the selection, seamlessly or with STEP. -/
  | timeSelectNow (io : HostIo)
  /-- R133: TIME.CLEAR_FLAGS clears ASYMMETRY_SUSPECT and ASYMMETRY_UNVERIFIED. -/
  | timeClearFlags (io : HostIo)
  /-- R143: A SerDes reference input loses its clock and every lane it serves enters FAULT. -/
  | refclkLost (input : Nat)
  /-- R149: Low transition density or 4,096 idle blocks freeze receiver adaptation and set FROZEN. -/
  | adaptationFreeze (lane transitions idleRun : Nat)
  /-- R149: A window with enough density and a data block resumes adaptation. -/
  | adaptationResume (lane transitions : Nat) (dataBlock : Bool)
  /-- R150: An adapting coefficient reaches its wander bound, holds there, and sets WANDER. -/
  | boundHit (lane tap : Nat) (upper : Bool)
  /-- R152: retrain_interval_s elapses and a re-anchor or full retrain of the lane falls due. -/
  | retrainInterval (lane : Nat)
  /-- R152: At the next idle or control block, the present coefficients become the anchors, and WANDER and MARGIN_DEGRADED clear. -/
  | reanchor (lane : Nat) (now : Coeffs)
  /-- R155: A Kyopex training frame is received; tap requests are applied, its status read, and lane order checked. -/
  | trainingFrameRx (lane control status identity wish : Nat) (satisfied : Bool)
  /-- R155: Training ends by the 32-frame RX_READY exchange or the PHY procedure, and the lane goes to ALIGNING. -/
  | trainingEnd (lane : Nat) (now : Trained)
  /-- R155: A training attempt fails on its time limit; after three failures the lane enters FAULT with TRAIN_FAIL. -/
  | trainingTimeout (lane : Nat)
  /-- R158: 64 consecutive valid sync headers, or alignment markers, give block or codeword lock and the lane goes UP. -/
  | blockLock (lane roundTripPs : Nat)
  /-- R158: 16 invalid sync headers within 64 blocks, or two missed marker periods, lose lock. -/
  | lockLoss (lane invalid : Nat)
  /-- R161: A Graft flit is received, CRC-checked, sequenced and acknowledged, and its map and type handled. -/
  | flitRx (first : Nat) (data : Bytes)
  /-- R163: ack_seq has not advanced for the replay timeout, so the sender replays from its oldest held flit. -/
  | replayTimeout (first : Nat)
  /-- R167: Every 16,384 blocks of a lane, or on a map change, the sender inserts an alignment marker. -/
  | alignmentMarker (first : Nat)
  /-- R169: A retrained lane that has shown two deskewed markers is added back to rx_map and the transmit map. -/
  | laneReadmission (lane : Nat)
  /-- R170: A group's active map empties, replay gives up, or the partner's rx_map stays empty for 1 µs; the group is declared failed. -/
  | graftLinkFail (first : Nat)
  /-- R174: The pattern checker locks after 64 error-free bits. -/
  | checkerLock (lane : Nat)
  /-- R174: More than 25 % errors in a 4,096-bit window drop the checker's lock, count a re-sync, and make it seed again. -/
  | checkerResync (lane errors : Nat)
  /-- R145: LANE.SET_LANE stages a lane's mode, FEC, group and flags. -/
  | laneSetLane (io : HostIo)
  /-- R148: LANE.SET_EQ stages equalisation mode, CTLE, transmitter taps and retrain interval. -/
  | laneSetEq (io : HostIo)
  /-- R157: LANE.GET_STATUS returns a lane's state and flags. -/
  | laneGetStatus (io : HostIo) (tally : LaneTally)
  /-- R150: LANE.GET_EQ returns a lane's coefficients and anchors. -/
  | laneGetEq (io : HostIo) (now : Coeffs)
  /-- R152: LANE.RETRAIN re-anchors or fully retrains a lane. -/
  | laneRetrain (io : HostIo)
  /-- R159: LANE.BIT_SLIP shifts the block boundary and returns the sync-header errors of 4,096 blocks. -/
  | laneBitSlip (io : HostIo) (errors : Nat)
  /-- R159: LANE.LOCK_HERE checks the present position and takes the lane UP, or returns LOCK_FAILED. -/
  | laneLockHere (io : HostIo) (errors roundTripPs : Nat)
  /-- R172: LANE.SET_TEST sets a loop and pattern and takes the lane to TEST, or ends the test. -/
  | laneSetTest (io : HostIo)
  /-- R174: LANE.GET_TEST returns the pattern counts since the test began. -/
  | laneGetTest (io : HostIo) (bits errors : Nat)
  /-- R157: LANE.CLEAR_FLAGS clears sticky lane flags. -/
  | laneClearFlags (io : HostIo)
  /-- R179: An Ethernet frame is received on a field port and handled, answered or discarded and counted by Table 7.1. -/
  | ethFrameRx (port : Nat) (data : Bytes)
  /-- R180: Every 100 ms the device polls each module bus, manages CMIS modules and reads module flags. -/
  | modulePoll (bus : Nat) (seen : ModuleSeen)
  /-- R186: A GVCP acknowledge arrives for the head's outstanding command, advancing connection, heartbeat, scheduled write or proxy. -/
  | gvcpAckRx (head reqId status ackCommand : Nat) (payload : Bytes) (iface : Nat) (respOk : Bool)
  /-- R186: A GVCP command waits 50 ms without acknowledge; it is resent up to 3 times, then fails. -/
  | gvcpTimeout (head : Nat) (respOk : Bool)
  /-- R186: Every heartbeat_ms ÷ 3 the GVCP engine reads the head's control-privilege register. -/
  | heartbeatRead (head : Nat)
  /-- R184: 1 s after entering LOST a head returns to CONNECTING. -/
  | headRetry (head : Nat)
  /-- R475: block_timeout_us passes with no accepted stream packet and a STREAMING head goes to READY. -/
  | streamIdle (head : Nat)
  /-- R189: A GVSP or CoaXPress stream packet is accepted, merged and assembled into lines, and gaps are detected. -/
  | streamPacketRx (p : StreamPacket)
  /-- R189: No packet arrives for block_timeout_us in an open block; a gap is detected or a short frame closed. -/
  | blockTimeout (stream : Nat)
  /-- R189: Within 50 µs of a detected gap the device sends one PACKETRESEND_CMD per missing range. -/
  | packetresendCmd (stream : Nat)
  /-- R190: A requested range has not arrived after resend_wait_us; it is requested again or given up and filled. -/
  | resendTimeout (stream : Nat)
  /-- R193: Every 100 ms the device sends a heartbeat with TV_SEL to each CoaXPress-over-Fiber head. -/
  | cxpHeartbeatSend (head : Nat)
  /-- R193: A CoaXPress-over-Fiber head sends no heartbeat for heartbeat_ms and goes to LOST. -/
  | cxpHeartbeatTimeout (head : Nat)
  /-- R197: At the match tick of boundary t − d − 1 the scheduled parameter writes are sent to the head. -/
  | paramWriteSend (head : Nat)
  /-- R178: CAM.SET_PORT stages a field port's addresses and flags. -/
  | camSetPort (io : HostIo)
  /-- R182: CAM.SET_HEAD stages a head declaration. -/
  | camSetHead (io : HostIo)
  /-- R182: CAM.SET_STREAM stages a line stream declaration. -/
  | camSetStream (io : HostIo)
  /-- R184: CAM.GET_HEAD returns a head's state. -/
  | camGetHead (io : HostIo)
  /-- R187: CAM.GVCP sends one proxied GVCP command and returns its acknowledge. -/
  | camGvcp (io : HostIo)
  /-- R192: CAM.CXP_CONTROL sends one CoaXPress control read or write to a head. -/
  | camCxpControl (io : HostIo)
  /-- R178: CAM.DISCOVER broadcasts GVCP discovery on a port and returns the acknowledges of 100 ms. -/
  | camDiscover (io : HostIo)
  /-- R198: CAM.SCHEDULE_PARAM predicts the target boundary and arms a scheduled parameter change. -/
  | camScheduleParam (io : HostIo)
  /-- R200: CAM.CANCEL_PARAM removes an unsent schedule or returns TOO_LATE. -/
  | camCancelParam (io : HostIo)
  /-- R181: CAM.MODULE_READ reads bytes of a managed module. -/
  | camModuleRead (io : HostIo) (data : Bytes)
  /-- R181: CAM.MODULE_WRITE writes bytes of a managed module, except page 10h. -/
  | camModuleWrite (io : HostIo)
  /-- R180: CAM.GET_MODULE returns a module's identity, state and flags. -/
  | camGetModule (io : HostIo)
  /-- R206: A line's last byte arrives; the line is paired, written to the look-back buffer and placed in its slot or left for catch-up. -/
  | lineComplete (stream : Nat)
  /-- R207: A line missing packets reaches its member wait or 20 µs and is passed on padded. -/
  | lineWaitExpiry (stream : Nat)
  /-- R210: A parity stripe that has not filled within 1 µs is written with its missing granules as zero. -/
  | stripeFlush
  /-- R218: A bed serves a whole line of a stream by deficit round-robin from the slot or the look-back buffer. -/
  | bedServeLine (bed : Nat)
  /-- R225: member_wait_us passes at a gate; it opens and missing members' rows are synthesised or filled. -/
  | memberWaitExpiry (grid : Nat)
  /-- R230: After its gate opens, a bed builds, corrects and stitches the rows of a grid position and releases them to the tiles. -/
  | bedRowEmit (bed grid refetch : Nat)
  /-- R214: ING.SET_BUFFER stages the look-back size. -/
  | ingSetBuffer (io : HostIo)
  /-- R216: ING.SET_STREAM stages a stream's bed, group and pairing age. -/
  | ingSetStream (io : HostIo)
  /-- R225: ING.SET_GROUP stages a lock-step group's member wait and fill mode. -/
  | ingSetGroup (io : HostIo)
  /-- R219: ING.GET_STREAM returns a stream's ingest state. -/
  | ingGetStream (io : HostIo)
  /-- R218: ING.GET_BED returns a bed's load. -/
  | ingGetBed (io : HostIo)
  /-- R211: ING.GET_BUFFER returns the look-back buffer state. -/
  | ingGetBuffer (io : HostIo)
  /-- R228: ING.READ_LINES copies retained lines of a range to a host buffer. -/
  | ingReadLines (io : HostIo) (slow : Bool)
  /-- R237: COR.SET_STREAM stages correction, replacement and resampling flags. -/
  | corSetStream (io : HostIo)
  /-- R244: COR.SET_HEAD_GEOM stages a head's origin, pitch and down offset. -/
  | corSetHeadGeom (io : HostIo)
  /-- R232: COR.SET_GRID stages a grid's pitch and phase. -/
  | corSetGrid (io : HostIo)
  /-- R238: COR.SET_CORR_SET stages one correction set of a stream. -/
  | corSetCorrSet (io : HostIo)
  /-- R241: COR.LOAD_TABLE checks and stages a stream's column table. -/
  | corLoadTable (io : HostIo)
  /-- R245: COR.SET_STITCH stages a stitch. -/
  | corSetStitch (io : HostIo)
  /-- R238: COR.GET_STREAM returns a stream's correction state. -/
  | corGetStream (io : HostIo)
  /-- R240: COR.READ_TABLE writes active or staged entries to resp_addr. -/
  | corReadTable (io : HostIo)
  /-- R249: COR.GET_STITCH reports a stitch's member, overlap and uncovered ranges. -/
  | corGetStitch (io : HostIo)
  /-- R251: COR.AVERAGE_LINES averages retained raw lines per column into a host buffer. -/
  | corAverageLines (io : HostIo) (slow : Bool)
  /-- R260: A graph computes one grid position once every source row is released, and labels, opens, merges and closes regions. -/
  | graphRow (graph : Nat) (upsets : List Upset)
  /-- R267: The spare completes its re-execution of a slice and compares CRCs, checkpointing state on a pass. -/
  | shadowCheck (tile slot : Nat) (row : Int) (same : Bool)
  /-- R268: An uncorrectable SECDED error in engine local memory starts fault handling. -/
  | engineEccError (engine : Nat) (uncorrectable : Bool)
  /-- R268: The 3 µs known-answer tests of slot engine and spare end, deciding retirement, transient or suspension. -/
  | knownAnswerTestDone (tile : Nat) (slotOk spareOk : Bool)
  /-- R270: A re-run ends; differing outputs are re-delivered, REGIONS_RERUN is raised and live rows resume. -/
  | rerunComplete (graph : Nat)
  /-- R274: Sprint entry conditions hold; engines pause at slice boundaries and switch to 1.6667 GHz. -/
  | sprintStart
  /-- R274: An exit condition occurs (end, limit timer, temperature, lifetime, throttle, mode); engines return to 1.25 GHz. -/
  | sprintEnd
  /-- R258: GRAPH.LOAD checks and stages a cut list, or removes one. -/
  | graphLoad (io : HostIo)
  /-- R259: GRAPH.SET_BINDING stages a graph's sources, engines, tiles and deepening. -/
  | graphSetBinding (io : HostIo)
  /-- R273: GRAPH.SET_SPRINT stages the sprint mode. -/
  | graphSetSprint (io : HostIo)
  /-- R265: GRAPH.GET_HEADROOM reports or plans fabric admission. -/
  | graphGetHeadroom (io : HostIo)
  /-- R272: GRAPH.GET_ENGINES returns every engine's state. -/
  | graphGetEngines (io : HostIo)
  /-- R274: GRAPH.SPRINT_NOW starts or ends a manual sprint, or returns SPRINT_UNAVAILABLE. -/
  | graphSprintNow (io : HostIo)
  /-- R275: GRAPH.GET_SPRINT returns the sprint budget. -/
  | graphGetSprint (io : HostIo)
  /-- R258: GRAPH.READ_CUT_LIST writes an active or staged cut list to resp_addr. -/
  | graphReadCutList (io : HostIo)
  /-- R307: Missing region contexts arrive from HBM and the held row proceeds. -/
  | contextFetchDone (graph : Nat)
  /-- R315: A closed region is classified in the region pipeline, its tile queued, its record emitted and the action rules run. -/
  | regionClose
  /-- R321: Once every selected stream holds a line beyond the range and a descriptor is posted, the cutter reads the tile's lines. -/
  | tileCutStart
  /-- R321: The master position has not advanced for tile_wait_ms, so the cut starts with the lines that exist and sets WAIT_EXPIRED. -/
  | tileWaitExpiry
  /-- R327: RGN.SET_GRAPH stages a graph's quota, forced area, record limit, features and tiles. -/
  | rgnSetGraph (io : HostIo)
  /-- R321: RGN.SET_TILES stages the tile budget and wait. -/
  | rgnSetTiles (io : HostIo)
  /-- R308: RGN.GET_STATUS returns the pool and cutter state. -/
  | rgnGetStatus (io : HostIo)
  /-- R316: RGN.GET_GRAPH returns the regions of one graph. -/
  | rgnGetGraph (io : HostIo)
  /-- R312: RGN.FLUSH closes every open region of a graph at the next row boundary. -/
  | rgnFlush (io : HostIo)
  /-- R469: A write of TAIL to a furrow doorbell posts descriptors for a RUNNING or STANDBY furrow owned by the writer, or is ignored and counted. -/
  | doorbellWrite (fn index : Nat) (upper : Bool) (tail : Nat)
  /-- R341: A descriptor fetch completes; the descriptors are checked and taken into service, or the fetch is retried or the furrow faults. -/
  | descriptorFetchDone (furrow : Nat) (read : Option Bytes) (timeout : Bool)
  /-- R345: A tagged unit is handed to delivery and placed into its furrow's buffers, or held in the delivery queue or dropped. -/
  | unitHandoff
  /-- R342: A descriptor's writes are done and the device writes it back in ring order, possibly raising MSI-X. -/
  | descriptorWriteback (furrow : Nat) (src : Bytes) (sub : Nat)
  /-- R345: flush_us after the first unit entered a PACK buffer, the partly filled buffer is written back. -/
  | packFlush (furrow : Nat)
  /-- R337: irq_time_us after the first unsignalled completion, the furrow raises its vector. -/
  | irqTimer (furrow : Nat)
  /-- R346: A row block closes when the master position has not advanced for 10 ms. -/
  | rowBlockIdleClose (route : Nat)
  /-- R355: A burst fails by UR, CA, poison, timeout or internal error; the descriptor is stopped and written back with ERR_DATA or ERR_TAIL. -/
  | burstError (furrow good : Nat) (tail : Bool) (kind : BurstFault)
  /-- R335: A host port leaves L0 for 100 µs, reports DL_Down or is reset; its functions reset and furrows fail over or free. -/
  | portLoss (port : Nat) (unacked : List (Nat × Nat))
  /-- R335: A Function Level Reset or entry to D3hot resets one function. -/
  | functionReset (fn : Nat) (unacked : List (Nat × Nat))
  /-- R336: Host unmasks an MSI-X vector with its PBA bit set, so the pending message is sent. -/
  | msixUnmask (fn vector : Nat)
  /-- R343: HOST.SET_ROUTE stages a delivery route. -/
  | hostSetRoute (io : HostIo)
  /-- R347: HOST.SET_QUEUE stages the delivery-queue size. -/
  | hostSetQueue (io : HostIo)
  /-- R338: HOST.FURROW_CREATE creates a READY furrow owned by the issuer. -/
  | hostFurrowCreate (io : HostIo)
  /-- R339: HOST.FURROW_START moves a furrow to RUNNING and restarts TAIL and completion_seq. -/
  | hostFurrowStart (io : HostIo)
  /-- R339: HOST.FURROW_STOP finishes the unit in progress, cancels the rest and returns the furrow to READY. -/
  | hostFurrowStop (io : HostIo) (rest : Bytes)
  /-- R339: HOST.FURROW_DESTROY frees a READY furrow and discards its queued units. -/
  | hostFurrowDestroy (io : HostIo)
  /-- R357: HOST.FURROW_PAIR pairs a RUNNING furrow with a standby on the other port, or unpairs it. -/
  | hostFurrowPair (io : HostIo)
  /-- R359: HOST.FURROW_SWITCH moves the routes to the standby at a descriptor boundary. -/
  | hostFurrowSwitch (io : HostIo)
  /-- R339: HOST.GET_FURROW returns a furrow's state. -/
  | hostGetFurrow (io : HostIo)
  /-- R329: HOST.GET_PORT returns a host port's state. -/
  | hostGetPort (io : HostIo) (regs : PortRegs)
  /-- R366: Every 100 µs a joining or formed device sends HELLO on each UP port. -/
  | helloSend
  /-- R366: A HELLO CONTROL message is received; the master forms the trellis once all are heard, and LOST devices rejoin. -/
  | hello (first : Nat)
  /-- R366: 1 s after the first HELLO the master forms with those present, or after 2 s without a master the lowest deputy forms. -/
  | formationTimeout
  /-- R366: A FORMED message is received and the device becomes a MEMBER with the given L. -/
  | formed (first : Nat)
  /-- R367: Every 1,024 ticks the device sends a TIME flit on every UP group. -/
  | timeFlitSend (first sub : Nat)
  /-- R367: A TIME flit is received and the link's offset and rate mapping is updated, locked or unlocked. -/
  | timeFlit (first rxDc rxSub : Nat)
  /-- R369: Every 16 ticks the master samples its encoder channel and sends a POSITION flit on both ports. -/
  | positionSample
  /-- R369: A POSITION flit is received, relayed with a re-expressed tick, and the best copy is used for P(t). -/
  | positionFlit (first : Nat)
  /-- R369: No sample has arrived for 2 µs; POS_STALE is set and rows carry degraded. -/
  | posStale
  /-- R369: holdover_us passes without a sample; the spindle freezes and the device enters ISOLATED. -/
  | isolated
  /-- R375: No master flit arrives for 10 µs; the lowest healthy deputy rebases, increments role_epoch and claims. -/
  | masterLost
  /-- R375: A ROLE_CLAIM message is received; members accept the higher role_epoch and MASTER_CHANGED is raised. -/
  | roleClaim (first : Nat)
  /-- R376: A HANDOVER message is received by the named deputy, which rebases at its next sample and claims. -/
  | handover (first : Nat)
  /-- R375: Nothing arrives from a device for 10 µs over either path; it is marked LOST and MEMBER_LOST raised. -/
  | memberLost (device : Nat)
  /-- R380: A trellis master without estate samples for holdover_us detaches and rebases on its own channel. -/
  | estateDetached
  /-- R381: A PREPARE message is received; the device validates its staged image, starts preparing and answers PREPARED. -/
  | prepare (first : Nat)
  /-- R381: A PREPARED message reaches the coordinator; when all have answered it fixes P_c and sends COMMIT or ABORT. -/
  | prepared (first : Nat)
  /-- R381: A member has not answered PREPARE within 20 ms, so the coordinator aborts. -/
  | prepareTimeout
  /-- R381: A COMMIT message is received and the device arms a POSITION commit at P_c and answers ARMED. -/
  | commit (first : Nat)
  /-- R381: Every 1 ms the coordinator repeats COMMIT to each member that has not armed. -/
  | commitRepeat
  /-- R381: An ARMED message reaches the coordinator. -/
  | armed (first : Nat)
  /-- R381: An ABORT message is received and the device abandons the prepared commit. -/
  | abort (first : Nat)
  /-- R384: A device that holds a PREPARE for 100 ms without COMMIT or ABORT aborts on its own. -/
  | prepareHoldExpiry
  /-- R381: An APPLIED message reaches the coordinator; the ticket ends when all have applied. -/
  | applied (first : Nat)
  /-- R381: 100 ms after the last station passes P_c without all APPLIED, the ticket ends COMMIT_PARTIAL. -/
  | commitPartialTimeout
  /-- R385: Every 100 ms the coordinator sends DIGEST_REQ. -/
  | digestSweep
  /-- R385: A DIGEST_REQ is received and the device answers DIGEST. -/
  | digestReq (first : Nat)
  /-- R385: A DIGEST reaches the coordinator, which compares it and may raise DIGEST_MISMATCH. -/
  | digest (first : Nat)
  /-- R378: TREL.SET_STATION stages a trellis's station offset on the manager. -/
  | trelSetStation (io : HostIo)
  /-- R365: TREL.SET_IDENTITY sets the trellis identity outside the Cloche. -/
  | trelSetIdentity (io : HostIo)
  /-- R365: TREL.GET_STATUS returns the trellis state. -/
  | trelGetStatus (io : HostIo)
  /-- R366: TREL.GET_MEMBER returns one member's state. -/
  | trelGetMember (io : HostIo)
  /-- R381: TREL.COMMIT starts a two-phase trellis or estate commit and returns a ticket. -/
  | trelCommit (io : HostIo)
  /-- R384: TREL.ABORT disarms a trellis commit before the first station reaches P_c, or returns TOO_LATE. -/
  | trelAbort (io : HostIo)
  /-- R383: TREL.RESYNC repeats the commit for a diverged device. -/
  | trelResync (io : HostIo)
  /-- R376: TREL.HANDOVER sends HANDOVER to a named deputy. -/
  | trelHandover (io : HostIo) (healthy : Bool)
  /-- R380: TREL.REATTACH re-attaches a detached trellis and absorbs the difference. -/
  | trelReattach (io : HostIo)
  /-- R385: TREL.SET_EXPECTED sets the expected digests for a role_key. -/
  | trelSetExpected (io : HostIo)
  /-- R385: TREL.GET_DIGESTS writes the last sweep to resp_addr. -/
  | trelGetDigests (io : HostIo)
  /-- R390: RST_N held low for at least 1 ms resets the whole device. -/
  | rstNAssert
  /-- R390: RST_N rises; the straps are latched and a cold start begins. -/
  | rstNRelease (role : Nat) (bootSel testEn : Bool)
  /-- R390: PERST0_N or PERST1_N resets only its host port, which trains when released. -/
  | perst (port : Nat) (low : Bool) (unacked : List (Nat × Nat))
  /-- R389: A monitored rail stays below its brown-out threshold for over 1 µs and the device resets itself. -/
  | brownOut
  /-- R393: The root PLL loses lock for more than 10 µs; outputs go to cold state and the device waits for REFCLK_SYS. -/
  | rootPllUnlock
  /-- R398: The device runs the cold start steps from fuses and flash to mailbox ready. -/
  | coldStart (facts : ColdFacts)
  /-- R399: The device runs a W2, rebuilding the data path while keeping time, trained values and identity. -/
  | deviceWarmStart (facts : WarmFacts)
  /-- R401: The device runs a W1, restarting only the Headstock while the data path runs. -/
  | controlWarmStart (ms : Nat)
  /-- R397: 100 ms pass without watchdog service and a W1 or W2 begins. -/
  | watchdog
  /-- R402: A start step errors or mailbox ready is not reached in its bound; the start escalates or enters the safe state. -/
  | startFailure (stage : Nat)
  /-- R402: Slots stay IDLE for 10 s without a watchdog expiry; the start succeeds and the failure counts clear. -/
  | startSuccess
  /-- R407: SYS.RESTART begins a control, device or cold start within 1 ms. -/
  | sysRestart (io : HostIo)
  /-- R404: SYS.GET_START_INFO returns the last start and slot states. -/
  | sysGetStartInfo (io : HostIo)
  /-- R405: SYS.FW_WRITE checks an image and programs the slot that is not running. -/
  | sysFwWrite (io : HostIo)
  /-- R406: SYS.FW_ACTIVATE starts a valid unconfirmed slot on trial by W1 or W2. -/
  | sysFwActivate (io : HostIo)
  /-- R406: SYS.FW_CONFIRM writes the confirm_mark of the running slot. -/
  | sysFwConfirm (io : HostIo) (good : Bool)
  /-- R403: SYS.FW_RECOVER, in the safe state only, cold-starts from the named slot with cause RECOVER. -/
  | sysFwRecover (io : HostIo)
  /-- R410: Every 100 ms each target's active trims are interpolated from its sensor reading. -/
  | trimRecompute (readings : List (Nat × Int))
  /-- R408: A changed trim is applied at its boundary of idle block, frame gap or free TDC tick. -/
  | trimApply (target : Nat)
  /-- R411: A target falls due by interval or temperature delta and its calibration starts when allowed. -/
  | calibrationDue (target : Nat)
  /-- R414: A calibration's runs end; agreement gives a field set or a reject. -/
  | calibrationRunDone (target : Nat) (runs : CalRuns)
  /-- R21: A trim or delay line waits 100 ms without a gap; the old values stay and calibration-deferred is reported. -/
  | calDeferred (target : Nat)
  /-- R413: At the first trigger gap the calibrated idle twin delay line becomes active. -/
  | twinSwap (target : Nat)
  /-- R415: Field sets are written to the calibration slot not holding the newer valid image, at most once per 60 s. -/
  | calSlotStore (good : Bool)
  /-- R411: CAL.SET_POLICY stages a class's interval, delta and windows. -/
  | calSetPolicy (io : HostIo)
  /-- R417: CAL.RUN calibrates one target under a ticket. -/
  | calRun (io : HostIo)
  /-- R417: CAL.GET_STATUS returns a target's calibration state. -/
  | calGetStatus (io : HostIo)
  /-- R410: CAL.GET_TRIMS returns a target's active codes and sets. -/
  | calGetTrims (io : HostIo)
  /-- R415: CAL.STORE stores the field sets now under a ticket. -/
  | calStore (io : HostIo)
  /-- R409: CAL.CLEAR_FIELD drops the field sets of one target or of all. -/
  | calClearField (io : HostIo)
  /-- R421: An uncorrectable on-die SRAM word is detected and handled by its memory's recovery. -/
  | sramUncorrectable (memory index graph : Nat)
  /-- R422: An HBM channel or stack is declared failed; reads rebuild through parity and coverage is reduced. -/
  | hbmChannelFailed (stack channel cause : Nat)
  /-- R421: The daily scrub of the fixed device area and graph working store runs. -/
  | scrub (corrected : List Nat)
  /-- R423: Every 1 ms the device samples all sensors and enters or leaves thermal steps. -/
  | thermalSample (temps : List Int) (power : Nat)
  /-- R423: The hardware die sensor reaches 115 °C and the device holds itself in reset. -/
  | thermalTrip (temp : Int)
  /-- R428: Once per second the device reports the events of a code suppressed beyond 1,000 per second. -/
  | eventsSuppressed
  /-- R429: Host writes 1 to W1C bits of FAULT_STICKY. -/
  | faultStickyClear (fn mask : Nat)
  /-- R429: A read of the RC register TJ_PEAK returns the peak die temperature and clears it. -/
  | tjPeakRead (fn : Nat)
  /-- R430: DIAG.SNAPSHOT captures a 64 MiB diagnostic snapshot to resp_addr under a ticket. -/
  | diagSnapshot (io : HostIo)
  /-- R431: DIAG.READ_EVENTS returns event log entries from a sequence. -/
  | diagReadEvents (io : HostIo)
  /-- R431: DIAG.GET_HBM returns the state of stacks and channels. -/
  | diagGetHbm (io : HostIo) (corrected : List Nat) (sram : Nat)
  /-- R432: DIAG.INJECT injects one qualification fault, or returns INJECT_REFUSED. -/
  | diagInject (io : HostIo)
  /-- R461: SMBus Read Word 0x00–0x06 returns a sensor temperature. -/
  | smbReadTemperature (sensor : Nat) (pec : Bool)
  /-- R461: SMBus Read Byte 0x10 returns the thermal step. -/
  | smbReadThermalStep (pec : Bool)
  /-- R461: SMBus Read Word 0x11 returns input power. -/
  | smbReadPower (pec : Bool)
  /-- R461: SMBus Read Byte 0x12 returns the sprint, safe-state and coverage bits. -/
  | smbReadStatus (pec : Bool)
  /-- R461: SMBus Read Word 0x20 returns 0x4816. -/
  | smbReadDeviceId (pec : Bool)
  /-- R461: SMBus Read Byte 0x21 returns 0xB1. -/
  | smbReadStepping (pec : Bool)
  /-- R461: The device answers the SMBus Alert Response Address with 0x5A. -/
  | smbAlertResponse
  /-- R461: An SMBus command byte not in Table 19.9 is NACKed. -/
  | smbUnknownCommand (code : Nat)
  /-- R466: A read of DC_LO in the identity block latches DC_HI for the reading function. -/
  | dcLoRead (fn : Nat)
  /-- R468: Host writes 1 to W1C bits of INT_CAUSE. -/
  | intCauseClear (fn mask : Nat)
  /-- R468: Host writes 1 to W1C bits of MBOX_DONE_LO or MBOX_DONE_HI. -/
  | mboxDoneClear (fn : Nat) (high : Bool) (mask : Nat)
  /-- R467: Every 1 ms the Headstock increments HEARTBEAT. -/
  | heartbeatTick
  /-- R464: A write to a register with no behaviour of its own stores it, or is ignored for read-only, reserved or malformed accesses. -/
  | registerWrite (fn bar offset size data : Nat)
  /-- R146: The clause 73 page exchange with the partner ends, and the lane either goes to TRAINING on a common mode or stays in AUTONEG with AN_NO_COMMON. -/
  | autonegResolved (lane : Nat) (partner : List (Nat × Nat))
  /-- R157: Energy appears at or vanishes from a lane's receiver, which clears or sets NO_SIGNAL. -/
  | signalEnergyChange (lane : Nat) (present : Bool)
  /-- R329: A host port finishes training or recovery and enters L0, which records up_since_dc and brings the port back into service. -/
  | portL0Entry (port rate width : Nat)
  /-- R332: The host writes NumVFs and VF Enable in the SR-IOV capability, so that VFs and their BARs, mailboxes and vectors come into being. -/
  | sriovConfigWrite (port : Nat) (control : PortControl) (enable : Bool)
  /-- R192: A CoaXPress-over-Fiber control acknowledge, event packet, heartbeat or trigger acknowledge arrives from a head and is matched, forwarded or counted. -/
  | cxpControlPacketRx (head kind reqId status : Nat) (payload : Bytes) (respOk : Bool)
  /-- R400: 60 s after mailbox ready following a W2, the lane coefficients that the W2 kept and that no matching commit used are discarded. -/
  | keptLaneValuesExpiry
  /-- R187: A CAM.GVCP whose acknowledge has not arrived within 1.5 ms is answered with IN_PROGRESS and a ticket. -/
  | gvcpProxyDeadline (respOk : Bool)
  /-- R130: The slewing selection bias reaches 0 and SEL_SLEWING clears. -/
  | selectionBiasSettled
  /-- R442: The JTAG TAP is clocked through an instruction or data scan, and BYPASS or IDCODE 0xB481_656B is shifted out. -/
  | jtagTapAccess (scan : Nat) (tdi : List Bool)
  deriving DecidableEq, Repr

end Sys2Proof
end

