-- ==== Sys2Proof/Decode.lean ====
section
/-! DEFINITION. The commands that words spell by the bits of the table: its rows give no bits, so no word spells a command. -/

namespace Sys2Proof

/-- The command of a word of `nbits` bits. No row of the table has bits. -/
def decodeTableWord (nbits w : Nat) : Option Instr := match nbits, w with
  | _, _ => none

end Sys2Proof
end

