-- ==== Sys2Proof/Config.lean ====
section
/-! DEFINITION. What the spec leaves to the device or leaves open: constants without a body, so that no proof can see
their values. -/

namespace Sys2Proof.Config

/-- The fused EUI-64 (Table 20.3). (DESIGN CHOICE, log entry 11) -/
opaque eui64 : Nat

/-- The stage time in µs that the device reports for a staged image (R45): the spec gives no formula. (DESIGN CHOICE, log entry 12) -/
opaque stageTimeUs : Bytes → Nat

/-- Whether a quotient that is no whole number is rounded up where the spec gives no rounding. (DESIGN CHOICE, log entry 13) -/
opaque roundsUp : Rat → Bool

/-- The filter of the mean path delay (R132 names none): the previous filtered value in ps and a new sample in ns.
(DESIGN CHOICE, log entry 45) -/
opaque delayFilter : Option Nat → Rat → Nat

/-- The seconds a servo takes for a measurement that follows no earlier one (R121). (DESIGN CHOICE, log entries 45 and 86) -/
opaque firstInterval : Nat → Rat

/-- The mean of no samples, ns: R133 states no value for it. (DESIGN CHOICE, log entry 88) -/
opaque emptyMean : Nat → Rat

/-- The code of an FFE tap at the unity main tap of CTLE_FIXED (Table 6.3): the spec names no code and no main tap.
(DESIGN CHOICE, log entry 48) -/
opaque ffeUnity : Nat → Int

/-- What a lane has measured by a period boundary since it was last read: the tallies of its receiver, and the bits and bit errors of its
checker, by draw and lane. (DESIGN CHOICE, log entry 48) -/
opaque laneTally : Nat → Nat → LaneTally
opaque laneChecked : Nat → Nat → Nat × Nat

/-- The packet payload rate of CoaXPress-over-Fiber at a mode's lane rate, bit/s: R183 leaves it to that standard.
(DESIGN CHOICE, log entry 53) -/
opaque cxpPayloadRate : Nat → Nat

/-- Row width and rows a second of a deepened graph on its TARGET, which has no sources (R276): the spec does not say how the
TARGET learns them before the first row. (DESIGN CHOICE, log entry 64) -/
opaque targetShape : Nat → Nat × Nat

/-- Phase and pitch of a deepened graph's grid on its TARGET, on which DECIMATE's blocks lie (R276, R301).
(DESIGN CHOICE, log entry 64) -/
opaque targetGrid : Nat → Int × Nat

/-- The member, overlap and uncovered ranges (R249) of a deepened graph's sources on its TARGET, by graph and source: they are ORIGIN's,
and the spec does not say how TARGET learns them (R276, R289). (DESIGN CHOICE, log entry 64) -/
opaque targetRanges : Nat → Nat → List (Nat × Nat × Nat)

/-- EXPR's ABS of -2^23 (Table 11.9 states no result): a value of the 24-bit register. (DESIGN CHOICE, log entry 59) -/
opaque exprAbsLowest : BitVec 24

/-- Whether ELONGATION of a region is rounded up (R303 gives no rounding): the central second moments, each times AREA squared.
(DESIGN CHOICE, log entry 60) -/
opaque elongationUp : Int → Int → Int → Bool

/-- Whether ORIENTATION of a region is rounded up to the next 0.01° (R303 gives no rounding). (DESIGN CHOICE, log entry 60) -/
opaque orientationUp : Int → Int → Int → Bool

/-- ORIENTATION of a region whose second moments are equal and uncorrelated: it has no major axis (R303). (DESIGN CHOICE, log entry 60) -/
opaque orientationRound : Nat

/-- The bin of a negative value of fewer than 8 bits in a HISTOGRAM (R299 names bin v, which is none of the 256).
(DESIGN CHOICE, log entry 59) -/
opaque negativeBin : Int → Fin 256

/-- station_offset_nm of a trellis as its master has it (R378): the manager holds the setting, and the spec names no message that carries it. -/
opaque stationOffset : Nat → Int

/-- The three factory sets of each calibration target (R409), targets as class × 256 + index: sensor reading in 1/16 °C, and codes.
(DESIGN CHOICE, log entry 73) -/
opaque factoryTemp : Nat → Fin 3 → Int
opaque factoryCodes : Nat → Fin 3 → List Int

/-- The fused SHA-384 hash of each key slot's public key, none where the slot is not fused or is revoked, and the fused minimum
security_version (Table 15.7). (DESIGN CHOICE, log entry 26) -/
opaque keyHash : Nat → Option Bytes
opaque minSecurity : Nat

/-- What the maker's image in slot A has for its digest, key, signature and payload. (DESIGN CHOICE, log entry 10) -/
opaque makerSeal : Nat → Byte

/-- What a cold start's trims are computed from: the sensor reading of each target in 1/16 °C, by draw; and what the runs of a calibration
measure that no operand gives. (DESIGN CHOICE, log entry 73) -/
opaque sensorReading : Nat → Nat → Int
opaque startRuns : Nat → Nat → CalRuns

/-- The HBM channels that a granule of the look-back buffer lies on, a bit each: the spec does not give the interleave (R422).
(DESIGN CHOICE, log entry 39) -/
opaque granuleChannels : Nat → Nat

/-- What SMBus answers for a sensor (1/16 °C) and for the input power (W) before the first sample after a reset (R461).
(DESIGN CHOICE, log entry 22) -/
opaque firstTemp : Nat → Int
opaque firstPower : Nat

/-- The bits that a JTAG instruction scan shifts out: the spec gives no length of the instruction register (R442).
(DESIGN CHOICE, log entry 21) -/
opaque tapCapture : List Bool

/-- The PRIVATE section of the diagnostic snapshot, by draw (Table 17.8): it is opaque to the host. (DESIGN CHOICE, log entry 37) -/
opaque privateSection : Nat → Bytes

end Sys2Proof.Config
end

