-- ==== Sys2Proof/Machine/Bits.lean ====
section
/-! DEFINITION. Byte order, fields and signed readings of byte strings (R5), the integer arithmetic the
chapters share, and the sparse tables State is made of. -/

namespace Sys2Proof.Machine

/-! Byte order (R5: every multi-byte integer field is little-endian). -/

/-- The number a little-endian byte string spells. -/
def leNat : Bytes → Nat
  | [] => 0
  | b :: t => b.toNat + 256 * leNat t

/-- The `n` low bytes of `v`, little-endian. -/
def leBytes : Nat → Nat → Bytes
  | 0, _ => []
  | n + 1, v => BitVec.ofNat 8 v :: leBytes n (v / 256)

/-- A number read as a two's-complement integer of `bits` bits. -/
def signedOf (bits v : Nat) : Int :=
  let m := v % 2 ^ bits
  if m < 2 ^ (bits - 1) then (m : Int) else (m : Int) - (2 ^ bits : Nat)

/-- The two's-complement pattern of an integer in `bits` bits. -/
def patternOf (bits : Nat) (v : Int) : Nat := (v % ((2 ^ bits : Nat) : Int)).toNat

/-- `size` bytes of `p` from `off`, as an unsigned little-endian field (bytes past the end read 0). -/
def fld (p : Bytes) (off size : Nat) : Nat := leNat ((p.drop off).take size)

/-- The same field read as signed. -/
def sfld (p : Bytes) (off size : Nat) : Int := signedOf (8 * size) (fld p off size)

/-- Bit `i` of a number. -/
def bitOf (v i : Nat) : Bool := v / 2 ^ i % 2 == 1

/-- Bits `lo` and up of a number, `n` of them. -/
def bitsOf (v lo n : Nat) : Nat := v / 2 ^ lo % 2 ^ n

/-- A Boolean as a bit. -/
def b2n (b : Bool) : Nat := if b then 1 else 0

/-- Whether every byte of a range is 0. -/
def zeroRange (p : Bytes) (off size : Nat) : Bool := ((p.drop off).take size).all (· == 0)

/-- `n` zero bytes. -/
def zeros (n : Nat) : Bytes := List.replicate n 0

/-- Zero padding to a multiple of `m` bytes. -/
def padTo (m : Nat) (p : Bytes) : Bytes := p ++ zeros ((m - p.length % m) % m)

/-- A byte string cut or zero-extended to exactly `n` bytes. -/
def fitTo (n : Nat) (p : Bytes) : Bytes := p.take n ++ zeros (n - p.length)

/-- Little-endian fields by signed width: the bytes of an integer in `n` bytes. -/
def leInt (n : Nat) (v : Int) : Bytes := leBytes n (patternOf (8 * n) v)

/-- Give up whole bytes from the low end of some bits. -/
def drainBits : Nat → Nat → Bytes
  | 0, _ => []
  | n + 1, acc => BitVec.ofNat 8 acc :: drainBits n (acc / 256)

/-- Values of `w` bits packed from bit 0 of the first byte on, `acc` holding the `have'` bits not given up yet (R351). -/
def packGo (w : Nat) : List Nat → Nat → Nat → Bytes
  | [], acc, have' => if have' = 0 then [] else [BitVec.ofNat 8 acc]
  | v :: t, acc, have' =>
    let a := acc + v % 2 ^ w * 2 ^ have'
    let n := (have' + w) / 8
    drainBits n a ++ packGo w t (a / 256 ^ n) ((have' + w) % 8)

/-- Patterns of `w` bits packed without gaps; unused bits of the last byte are 0 (R351). -/
def packBits (w : Nat) (l : List Nat) : Bytes := packGo w l 0 0

/-- Read `n` packed patterns of `w` bits. -/
def unpackGo (w : Nat) : Nat → Bytes → Nat → Nat → List Nat
  | 0, _, _, _ => []
  | n + 1, b, acc, have' =>
    let k := (w - have' + 7) / 8
    let a := acc + leNat (b.take k) * 2 ^ have'
    a % 2 ^ w :: unpackGo w n (b.drop k) (a / 2 ^ w) (have' + 8 * k - w)

/-- The first `n` patterns of `w` bits of a byte stream. -/
def unpackBits (w n : Nat) (b : Bytes) : List Nat := unpackGo w n b 0 0

/-! Arithmetic. -/

/-- Ceiling of a quotient; a divisor of 0 gives 0. -/
def ceilDiv (a b : Nat) : Nat := if b = 0 then 0 else (a + b - 1) / b

/-- A value kept within bounds. -/
def clampInt (lo hi v : Int) : Int := if v < lo then lo else if hi < v then hi else v

/-- Saturation to s32. -/
def sat32 (v : Int) : Int := clampInt (-2147483648) 2147483647 v

/-- Adding to a counter that saturates. -/
def satAdd (top a n : Nat) : Nat := if a + n < top then a + n else top

/-- The least multiple of `step` at or after `v`, plus an offset lattice: the first point of
`origin + k × step` at or after `v`. -/
def latticeAtOrAfter (origin step v : Int) : Int :=
  if step ≤ 0 then v else
    let r := (v - origin) % step
    if r = 0 then v else v + (step - r)

/-- The last lattice point at or before `v`. -/
def latticeAtOrBefore (origin step v : Int) : Int :=
  if step ≤ 0 then v else v - (v - origin) % step

/-- The binary digits of a number below 2^n that are set, lowest first. -/
def setBits (n v : Nat) : List Nat := (List.range n).filter (bitOf v)

/-- Integer square root, by bits from the top (structural in the number of bits left). -/
def isqrtGo : Nat → Nat → Nat → Nat
  | 0, _, r => r
  | k + 1, v, r =>
    let t := r + 2 ^ k
    if t * t ≤ v then isqrtGo k v t else isqrtGo k v r

/-- The greatest `r` with `r × r ≤ v`, for v below 2^128. -/
def isqrt (v : Nat) : Nat := isqrtGo 64 v 0

/-! Sparse tables: entries in strictly ascending key order, one per key. -/

/-- A sparse table: pairs of key and value, keys strictly ascending. -/
abbrev Tab (α : Type) := List (Nat × α)

/-- The entry of a key. -/
def tfind {α : Type} : Tab α → Nat → Option α
  | [], _ => none
  | (k, v) :: t, q => if q = k then some v else if q < k then none else tfind t q

/-- Put a value under a key. -/
def tput {α : Type} : Tab α → Nat → α → Tab α
  | [], q, x => [(q, x)]
  | (k, v) :: t, q, x =>
    if q < k then (q, x) :: (k, v) :: t
    else if q = k then (k, x) :: t
    else (k, v) :: tput t q x

/-- Remove a key. -/
def tdel {α : Type} : Tab α → Nat → Tab α
  | [], _ => []
  | (k, v) :: t, q => if q = k then t else if q < k then (k, v) :: t else (k, v) :: tdel t q

/-- The value of a key, `d` where the table has no entry. -/
def tget {α : Type} (d : α) (t : Tab α) (q : Nat) : α := (tfind t q).getD d

/-- Set the value of a key in a table whose unlisted entries read `d`: writing `d` removes the entry, so that
equal tables are equal lists. -/
def tset {α : Type} [DecidableEq α] (d : α) (t : Tab α) (q : Nat) (x : α) : Tab α :=
  if x = d then tdel t q else tput t q x

/-- Change the value of a key. -/
def tmod {α : Type} [DecidableEq α] (d : α) (t : Tab α) (q : Nat) (f : α → α) : Tab α := tset d t q (f (tget d t q))

/-- The canonical form of a table: keys strictly ascending. -/
def Tab.sorted {α : Type} : Tab α → Bool
  | [] => true
  | [_] => true
  | (a, _) :: (b, y) :: t => decide (a < b) && Tab.sorted ((b, y) :: t)

/-- The canonical form of a table with a default: keys strictly ascending and no entry equal to the default. -/
def Tab.wf {α : Type} [DecidableEq α] (d : α) (t : Tab α) : Bool := Tab.sorted t && t.all (fun e => e.2 ≠ d)

/-- The last `n` elements of a list. -/
def lastN {α : Type} (n : Nat) (l : List α) : List α := l.drop (l.length - n)

/-- The sum of a list of numbers under a reading. -/
def sumBy {α : Type} (f : α → Nat) (l : List α) : Nat := l.foldl (fun a x => a + f x) 0

/-- The element of a list at an index, or a default. -/
def nthD {α : Type} (d : α) (l : List α) (i : Nat) : α := (l[i]?).getD d

/-- Replace the element of a list at an index. -/
def setNth {α : Type} (l : List α) (i : Nat) (x : α) : List α := l.set i x

end Sys2Proof.Machine
end

