-- ==== Sys2Proof/Machine/Digest.lean ====
section
/-! DEFINITION. The two digests the spec names, SHA-256 (R53, R54) and SHA-384 (Table 15.7), as one family over the word's width, and the two
cyclic redundancy checks: CRC-32C (tags, records, images) and CRC-32. -/

namespace Sys2Proof.Machine

/-- A number from bytes, most significant first. -/
def beNat (b : Bytes) : Nat := b.foldl (fun a x => a * 256 + x.toNat) 0

/-- A number as `n` bytes, most significant first. -/
def beNum (n v : Nat) : Bytes := (leBytes n v).reverse

/-! The constants: 64 bits of the fractions of roots of the first primes, of which the narrow digest takes the upper half -/

/-- The largest number below `2^bits` above `acc` whose power `e` is at most `n`. -/
def rootBelow (e n : Nat) : Nat → Nat → Nat
  | 0, acc => acc
  | k + 1, acc => rootBelow e n k (if (acc + 2 ^ k) ^ e ≤ n then acc + 2 ^ k else acc)

/-- Whether a number has no divisor from 2 up to itself. -/
def isPrime (n : Nat) : Bool := decide (2 ≤ n) && ((List.range n).drop 2).all (fun d => n % d != 0)

/-- The first eighty primes. -/
def firstPrimes : List Nat := (List.range 410).filter isPrime

/-- The upper `w` bits of the 64 bits behind the point of the root of power `e` of a prime. -/
def rootBits (w e p : Nat) : BitVec w := BitVec.ofNat w (rootBelow e (p * 2 ^ (64 * e)) 68 0 % 2 ^ 64 / 2 ^ (64 - w))

/-- What tells one digest of the family from another: the rounds of a block, the prime its start values begin at, the bytes it answers with,
and the rotations of its four mixing functions; the last number of a schedule function is a shift. -/
structure DigestKind where
  rounds : Nat
  firstPrime : Nat
  answer : Nat
  wide0 : List Nat
  wide1 : List Nat
  turn0 : List Nat × Nat
  turn1 : List Nat × Nat
  deriving DecidableEq, Repr

def kind256 : DigestKind := ⟨64, 0, 32, [2, 13, 22], [6, 11, 25], ([7, 18], 3), ([17, 19], 10)⟩
def kind384 : DigestKind := ⟨80, 8, 48, [28, 34, 39], [14, 18, 41], ([1, 8], 7), ([19, 61], 6)⟩

/-- The sum without carry of a word's rotations. -/
def turned {w : Nat} (l : List Nat) (x : BitVec w) : BitVec w := l.foldl (fun a n => a ^^^ x.rotateRight n) 0

/-- Schedule words, the newest first: each further one is made of the sixteen before it. -/
def schedule {w : Nat} (q : DigestKind) : Nat → List (BitVec w) → List (BitVec w)
  | 0, l => l
  | n + 1, l =>
    let mix (f : List Nat × Nat) (x : BitVec w) : BitVec w := turned f.1 x ^^^ (x >>> f.2)
    schedule q n ((mix q.turn1 (nthD 0 l 1) + nthD 0 l 6 + mix q.turn0 (nthD 0 l 14) + nthD 0 l 15) :: l)

/-- The digest as two sequences that each round carries on by one from the last four values of both. -/
structure Strand (w : Nat) where
  up : BitVec w
  low : BitVec w
  deriving DecidableEq, Repr

/-- One round on the last four strands, the newest first; `x` is its constant plus its schedule word. -/
def strandNext {w : Nat} (q : DigestKind) (last : List (Strand w)) (x : BitVec w) : List (Strand w) :=
  let s (n : Nat) : Strand w := nthD ⟨0, 0⟩ last n
  let choice := (s 2).low ^^^ ((s 0).low &&& ((s 1).low ^^^ (s 2).low))
  let most := ((s 0).up &&& ((s 1).up ||| (s 2).up)) ||| ((s 1).up &&& (s 2).up)
  let fed := (s 3).low + turned q.wide1 (s 0).low + choice + x
  ⟨fed + turned q.wide0 (s 0).up + most, (s 3).up + fed⟩ :: last.take 3

/-- `n` big-endian words of a string. -/
def wordsOf (w : Nat) : Nat → Bytes → List (BitVec w)
  | 0, _ => []
  | n + 1, p => BitVec.ofNat w (beNat (p.take (w / 8))) :: wordsOf w n (p.drop (w / 8))

/-- The strands after a string of whole blocks: each block's rounds are added to the strands before it. -/
def strandsOver {w : Nat} (q : DigestKind) (consts : List (BitVec w)) : Nat → List (Strand w) → Bytes → List (Strand w)
  | 0, l, _ => l
  | n + 1, l, p =>
    let words := (schedule q (q.rounds - 16) (wordsOf w 16 p).reverse).reverse
    let after := (List.zipWith (· + ·) consts words).foldl (strandNext q) l
    strandsOver q consts n (List.zipWith (fun a b => ⟨a.up + b.up, a.low + b.low⟩) l after) (p.drop (2 * w))

/-- A string with its padding: a one bit, zeros, and its length in bits in the last two words of a block. -/
def padded (w : Nat) (p : Bytes) : Bytes :=
  p ++ 0x80 :: zeros ((4 * w - 1 - w / 4 - p.length % (2 * w)) % (2 * w)) ++ beNum (w / 4) (8 * p.length)

/-- The digest of a string over words of `w` bits, in the byte order of its standard (R5). -/
def digestOf (w : Nat) (q : DigestKind) (p : Bytes) : Bytes :=
  let start := ((firstPrimes.drop q.firstPrime).take 8).map (rootBits w 2)
  let l := (List.range 4).map (fun i => (⟨nthD 0 start i, nthD 0 start (i + 4)⟩ : Strand w))
  let m := padded w p
  let out := strandsOver q ((firstPrimes.take q.rounds).map (rootBits w 3)) (m.length / (2 * w)) l m
  (((out.map (·.up)) ++ out.map (·.low)).flatMap (fun x => beNum (w / 8) x.toNat)).take q.answer

/-- SHA-256. -/
def sha256 (p : Bytes) : Bytes := digestOf 32 kind256 p

/-- SHA-384. -/
def sha384 (p : Bytes) : Bytes := digestOf 64 kind384 p

/-- One bit step of a reflected 32-bit CRC. -/
def crcBit (poly c : BitVec 32) : BitVec 32 := if c.getLsbD 0 then (c >>> 1) ^^^ poly else c >>> 1

/-- `n` bit steps. -/
def crcBits (poly : BitVec 32) : Nat → BitVec 32 → BitVec 32
  | 0, c => c
  | n + 1, c => crcBits poly n (crcBit poly c)

/-- A reflected 32-bit CRC over a byte string, without the final inversion. -/
def crcRun (poly : BitVec 32) : Bytes → BitVec 32 → BitVec 32
  | [], c => c
  | b :: t, c => crcRun poly t (crcBits poly 8 (c ^^^ b.setWidth 32))

/-- CRC-32C (Castagnoli). -/
def crc32c (p : Bytes) : Nat := (~~~ crcRun 0x82F63B78 p 0xFFFFFFFF).toNat

/-- CRC-32 (IEEE 802.3). -/
def crc32 (p : Bytes) : Nat := (~~~ crcRun 0xEDB88320 p 0xFFFFFFFF).toNat

end Sys2Proof.Machine
end

