-- ==== Sys2Proof/Machine/Parts/Cal.lean ====
section
/-! DEFINITION. The calibration part of the state: trims, temperature sets, calibrations in progress and the calibration slots
(chapter 16). All plain data. Targets are keyed class × 256 + index (Table 16.2). -/

namespace Sys2Proof.Machine

/-- A field set (R409): mean sensor reading in 1/16 °C and codes in the order of Table 16.1. -/
structure TrimSet where
  temp : Int
  codes : List Int
  deriving DecidableEq, Repr

/-- A CAL.RUN with WAIT that waits for its window (R417). -/
structure CalWait where
  ticket : Nat
  /-- tick of the command -/
  at' : Nat
  force : Bool
  deriving DecidableEq, Repr

/-- One calibration target. -/
structure CalTarget where
  fields : List TrimSet := []
  /-- codes in force, on the active twin of a delay line, and the reading they were applied for -/
  active : List Int := []
  /-- codes of the idle twin (R413) -/
  idle : List Int := []
  appliedTemp : Int := 0
  /-- changed codes that wait for their boundary, with the reading and the tick they were computed at -/
  waiting : Option TrimSet := none
  waitSince : Nat := 0
  /-- the wait has been reported as calibration-deferred (R21) -/
  deferred : Bool := false
  /-- a calibration runs since this tick -/
  running : Option Nat := none
  due : Bool := false
  /-- tickets of the CAL.RUNs that the running calibration serves, and the ones that wait -/
  tickets : List Nat := []
  waits : List CalWait := []
  /-- the accepted lane calibration is to be followed by a re-anchor (R412) -/
  reanchor : Bool := false
  outcome : Nat := 0
  tempNow : Int := 0
  lastTemp : Int := 0
  count : Nat := 0
  rejects : Nat := 0
  third : Nat := 0
  lastDc : Nat := 0
  /-- TV0 then, ns -/
  lastTv0 : Nat := 0
  acceptedAt : Option Nat := none
  /-- active twin of a delay line (R413) -/
  twin : Nat := 0
  deriving DecidableEq, Repr

/-- The calibration part of the state. -/
structure CalSt where
  targets : Tab CalTarget := []
  /-- what the calibration slots of the flash hold, from their first byte; what is not listed is erased -/
  slots : Tab Bytes := []
  /-- a store is due, and tick of the last one -/
  storeDue : Bool := false
  storedAt : Option Nat := none
  /-- ticket of CAL.STORE in progress -/
  storeTicket : Option Nat := none
  /-- target of the most recent calibration -/
  latest : Option Nat := none
  /-- tick of the last 100 ms recomputation -/
  recomputeAt : Nat := 0
  deriving DecidableEq, Repr

end Sys2Proof.Machine
end

