-- ==== Sys2Proof/Machine/Parts/Cam.lean ====
section
/-! DEFINITION. The camera part of the state: heads, their GVCP engines and schedules, stream reassembly, and optical
modules (chapter 7). All plain data. -/

namespace Sys2Proof.Machine

/-- A command of a head's GVCP or control engine (R185 to R187, R192, R197). `tag`: 0 connect step, 1 heartbeat read,
2 scheduled writes, 3 proxied command, 4 proxied CoaXPress access. `ref` names the schedule or the ticket, 0 for none; of a
heartbeat read it is 1 for a read of the interface that does not carry the control. -/
structure CtlJob where
  tag : Nat
  ref : Nat
  command : Nat
  payload : Bytes
  /-- the interface it must go to, true the alternate one (CAM.GVCP, ALT_INTERFACE); none for the one that carries the control -/
  via : Option Bool
  deriving DecidableEq, Repr

/-- The one command a head has outstanding (R186). -/
structure CtlOut where
  job : CtlJob
  reqId : Nat
  sends : Nat
  sentAt : Nat
  deriving DecidableEq, Repr

/-- A scheduled parameter change (R197 to R200). -/
structure Sched where
  id : Nat
  /-- compare value of boundary t, and the distance from one boundary to the next -/
  target : Int
  step : Nat
  /-- compare value of boundary t - d - 1, at which the writes leave -/
  sendAt : Int
  /-- compare value of boundary t - d -/
  ackBy : Int
  paramSet : Nat
  corrSet : Nat
  writes : List (Nat × Nat)
  sent : Bool
  acked : Bool
  /-- writes of a CoaXPress head that have not been acknowledged yet -/
  left : Nat
  /-- the boundary at which the device switches -/
  switchAt : Int
  deriving DecidableEq, Repr

/-- A parameter set in force from a position on. -/
structure ParamSpan where
  start : Int
  paramSet : Nat
  corrSet : Nat
  /-- unconfirmed: the rows of this boundary and of the one before carry degraded, the boundaries this far apart -/
  unsure : Option Nat
  deriving DecidableEq, Repr

/-- One head. -/
structure Head where
  /-- Table 7.3 -/
  st : Nat := 0
  since : Nat := 0
  /-- failed connection attempts in a row -/
  tries : Nat := 0
  /-- commands that wait for the one outstanding -/
  jobs : List CtlJob := []
  out : Option CtlOut := none
  nextReq : Nat := 1
  /-- consecutive heartbeat reads without acknowledge -/
  missed : Nat := 0
  lastRead : Nat := 0
  /-- CoaXPress: tick of the head's last heartbeat, and of the last one sent to it -/
  heard : Nat := 0
  beatSent : Nat := 0
  /-- GVCP goes to the alternate interface -/
  onAlt : Bool := false
  /-- the primary interface has answered since this tick, while GVCP is on the alternate -/
  primarySince : Option Nat := none
  /-- interfaces (0 primary, 1 alternate) that have not answered since their port went down -/
  silent : List Nat := []
  /-- tick of the last stream packet accepted -/
  lastPacket : Nat := 0
  /-- BLOCK_UNSUPPORTED has been raised in this period -/
  unsupRaised : Bool := false
  schedules : List Sched := []
  /-- parameter sets in force, newest first, at most 16 -/
  params : List ParamSpan := []
  lastSwitch : Int := 0
  lastFrame : Option Int := none
  /-- alignment (R204): block_base and seq_base -/
  align : Option (Nat × Nat) := none
  /-- the least block at which the head may align again -/
  alignFrom : Nat := 0
  /-- the head has streamed again since this block of its: the next one is aligned anew -/
  realign : Option Nat := none
  /-- highest trigger sequence a line has claimed -/
  claimed : Option Nat := none
  /-- CoaXPress: trigger acknowledges received (Table 7.5) -/
  trigAcks : Nat := 0
  deriving DecidableEq, Repr

/-- A range of packets that has not arrived (R189, R190). -/
structure Gap where
  lo : Nat
  hi : Nat
  requests : Nat
  askedAt : Nat
  deriving DecidableEq, Repr

/-- A payload packet of a multi-part block: its ID, its part, and where in the part its bytes lie. -/
structure PartPacket where
  pid : Nat
  part : Nat
  offset : Nat
  length : Nat
  deriving DecidableEq, Repr

/-- A block in assembly (R203, R208). -/
structure Block where
  id : Nat
  firstDc : Nat
  width : Nat
  /-- payload received, as byte offset and bytes, in the order of arrival; the last entry of an offset wins -/
  segs : List (Nat × Bytes)
  /-- offsets and lengths that came by resend -/
  resent : List (Nat × Nat)
  /-- offsets and lengths given up -/
  givenUp : List (Nat × Nat)
  gaps : List Gap
  /-- one above the highest packet ID received -/
  nextPid : Nat
  /-- end of the highest payload byte received -/
  top : Nat
  /-- lines handed to ingest -/
  lines : Nat
  /-- the trailer, the next leader or the timeout has come -/
  closed : Bool
  /-- closed with fewer than frame_lines lines -/
  short : Bool
  /-- the payload byte at which the image of an extended-chunk block ends, once its leader has come -/
  imageEnd : Option Nat
  /-- payload packets of a multi-part block that have come, of any part -/
  parts : List PartPacket
  deriving DecidableEq, Repr

/-- A stream channel's reassembly. -/
structure Chan7 where
  blocks : List Block := []
  lastBlock : Option Nat := none
  /-- the block now being discarded as unsupported or of another format -/
  dropping : Option Nat := none
  lastPacket : Nat := 0
  deriving DecidableEq, Repr

/-- An optical module on a management bus (R180, R181): 0 absent, 1 managed, 2 unsupported. -/
structure Module where
  kind : Nat := 0
  identifier : Nat := 0
  revision : Nat := 0
  ready : Bool := false
  /-- application selected for the committed lane mode, lanes whose data path is enabled -/
  application : Nat := 0
  enabledLanes : Nat := 0
  flags : Nat := 0
  lastPoll : Nat := 0
  deriving DecidableEq, Repr

/-- The camera part of the state. -/
structure CamSt where
  heads : Tab Head := []
  chans : Tab Chan7 := []
  modules : Tab Module := []
  nextSchedule : Nat := 1
  deriving DecidableEq, Repr

end Sys2Proof.Machine
end

