-- ==== Sys2Proof/Machine/Parts/Core.lean ====
section
/-! DEFINITION. The parts of the state that every chapter uses: functions and their register window, the mailbox,
the Cloche, the period statistics, the event log, and what leaves the device. All plain data. -/

namespace Sys2Proof.Machine

/-- A function of the device: host port × 64 + function index, index 0 the PF (Table 2.3). -/
abbrev Fn := Nat

/-- The host port of a function. -/
def fnPort (f : Fn) : Nat := f / 64
/-- The function index. -/
def fnIdx (f : Fn) : Nat := f % 64
/-- Whether the function is a PF. -/
def fnIsPf (f : Fn) : Bool := f % 64 == 0
/-- The function field of Table 2.3. -/
def fnField (f : Fn) : Nat := f % 64 + 256 * (f / 64)

/-! Units of delivery (R324, R343) -/

/-- A stretch of a unit's payload: bytes as they stand, or pixels that the route's host format converts (R350), or
the 4-byte length of one line entry of a tile, which the conversion changes (Table 12.3). -/
inductive Chunk where
  | raw (b : Bytes)
  | pix (ws : Nat) (container : Nat) (signed : Bool) (vals : List Int)
  | lineLen (ws : Nat) (container : Nat) (count : Nat)
  deriving DecidableEq, Repr

/-- What produced a unit: the route kind of Table 13.13 and what its routes match on. -/
structure UnitSrc where
  kind : Nat
  graph : Nat
  output : Nat
  select : Nat
  deriving DecidableEq, Repr

/-- A unit handed to delivery: the tag's fields (Table 12.5) but for payload_bytes and tag_crc, and the payload. -/
structure DUnit where
  src : UnitSrc
  tagType : Nat
  flags : Nat
  head : Nat
  stream : Nat
  generation : Nat
  startPos : Int
  endPos : Int
  deviceCount : Nat
  tvSelNs : Nat
  tvEpoch : Nat
  paramSet : Nat
  shortDigest : Nat
  deviceId : Nat
  trellisId : Nat
  /-- parameter sets of every row that contributes, source row by source row (R326) -/
  params : List (List Nat) := []
  /-- delivered again after a re-run (R270) -/
  again : Bool := false
  payload : List Chunk
  deriving DecidableEq, Repr

/-! What leaves the device -/

/-- What a PTP message that goes out comes from (R126): transport 0 UDP over IPv4, 1 IEEE 802.3; its domain; its IPv4 address (none over
802.3) and its MAC address, in the order of the wire. -/
structure PtpSource where
  transport : Nat
  domain : Nat
  ip : Bytes
  mac : Bytes
  deriving DecidableEq, Repr

/-- A message, write, frame, packet or pulse the device puts out, newest first in `State.outbox`. -/
inductive Out where
  | msix (port addrLo addrHi data : Nat)
  | hostWrite (fn : Fn) (addr : Nat) (data : Bytes)
  | hostRead (fn : Fn) (addr len : Nat)
  | frame (port : Nat) (data : Bytes)
  | gvcp (head : Nat) (alt : Bool) (cmd reqId : Nat) (payload : Bytes)
  | discovery (port : Nat)
  | resend (head stream block first last : Nat) (alt : Bool)
  | gevAction (head : Nat) (alt : Bool) (deviceKey groupKey groupMask timeNs : Nat)
  | cxpTrigger (head : Nat) (delay : Nat)
  | cxpControl (head : Nat) (write : Bool) (address reqId : Nat) (data : Bytes)
  | cxpHeartbeat (head : Nat) (tvNs : Nat)
  | ptp (port : Nat) (source : PtpSource) (kind tvNs : Nat) (body : List Nat)
  | flit (group : Nat) (data : Bytes)
  | marker (lane : Nat) (block : Bytes)
  | trainFrame (lane control status identity : Nat)
  /-- clause 73 auto-negotiation: a lane advertises one mode with its FEC value (R146) -/
  | advertise (lane mode fec : Nat)
  /-- what a lane's line transmitter carries in a test (Table 6.9): 0 its own signal, 1 nothing, 2 the generator, 3 the received data; the
  generator's sequence by the exponents of its polynomial (Table 6.10), inverted or not, as Gray-coded PAM4 or as NRZ -/
  | lineTest (lane source : Nat) (poly : List Nat) (invert gray : Bool)
  | control (side kind : Nat) (body : List Int)
  /-- a pin takes a level at a device time in ps: TRG outputs from 0, ACT outputs from 256, PPS_OUT 512, DIVn A and B at 1024 + 2n and
  the next, EMUe A, B and Z from 1088 + 3e -/
  | pulse (pin : Nat) (level : Bool) (ps : Nat)
  /-- low pulses of an SSI clock on the A pair of a DIV output, at a period of twice a pulse, the last one ending at a time in ps; the
  line is high before, between and after them -/
  | ssiClock (div pulses pulsePs endPs : Nat)
  /-- PPS_OUT carries a 10 MHz square wave, in stretches of one rate: a rising edge at a device time in ps, and from there to the next
  stretch one every 100 ns of a clock at a rate (units of 2^-40) -/
  | clk10 (wave : List (Nat × Int))
  | smbus (data : Bytes)
  | moduleBus (bus : Nat) (data : Bytes)
  | tdo (bits : List Bool)
  deriving DecidableEq, Repr

/-! Register window: per-function registers (chapter 20) -/

/-- The registers each function has of its own: interrupt control (Table 20.4), SCRATCH and the latches (R466). -/
structure FnRegs where
  /-- INT_CAUSE [4:0] -/
  cause : Nat := 0
  /-- INT_ENABLE [4:0] -/
  enable : Nat := 0x1F
  ticketDone : Nat := 0
  /-- MBOX_DONE_LO and MBOX_DONE_HI as one 64-bit map -/
  mboxDone : Nat := 0
  scratch : Nat := 0
  /-- DC_HI of the identity block, as latched -/
  dcHi : Nat := 0
  /-- the latched spindle read block: words 0x00 to 0x14 of Table 3.5 (NO_MOTION resets to 1) -/
  spin : List Nat := [0, 0, 0, 0, 0, 2]
  /-- the latched view blocks, TV0 to TV7 then TV_SEL at 8: words 0x00 to 0x1C of Table 5.1 -/
  views : Tab (List Nat) := []
  deriving DecidableEq, Repr

/-- One MSI-X table entry: address, data and mask bit. -/
structure MsixEntry where
  addrLo : Nat := 0
  addrHi : Nat := 0
  data : Nat := 0
  masked : Bool := true
  deriving DecidableEq, Repr

/-- SLOT_STATE of one mailbox slot (Table 2.2): STATE as 0 IDLE, 1 BUSY, 2 DONE. OFFLINE is derived (R467). -/
structure Slot where
  st : Nat := 0
  overrun : Bool := false
  seqLow : Nat := 0
  deriving DecidableEq, Repr

/-- The register window. -/
structure Win where
  fns : Tab FnRegs := []
  /-- keyed by function × 64 + slot -/
  slots : Tab Slot := []
  /-- mailbox areas, keyed by (function × 64 + slot) × 8192 + slot offset -/
  mem : Tab Byte := []
  /-- keyed by function × 1024 + vector -/
  msix : Tab MsixEntry := []
  /-- vectors with their PBA bit set -/
  pba : Tab Bool := []
  deriving DecidableEq, Repr

/-! Mailbox (chapter 2) -/

/-- A request as taken at GO (Table 2.3): the header and the inline bytes that stood behind it. -/
structure Req where
  fn : Fn
  slot : Nat
  command : Nat
  flags : Nat
  sequence : Nat
  payloadLen : Nat
  functionField : Nat
  reserved : Nat
  inline : Bytes
  deriving DecidableEq, Repr

/-- A ticket (R31). `args` is the request payload its work runs on, `data` what the work has gathered. -/
structure Ticket where
  fn : Fn
  command : Nat
  args : Bytes
  data : Bytes
  respAddr : Option Nat
  respCap : Nat
  done : Bool
  status : Nat
  result : Bytes
  resultLen : Nat
  doneAt : Nat
  deriving DecidableEq, Repr

/-- A request the Headstock holds while its head answers (R187): the head, and the tick it was started. Above the heads, from 64 on, stand
the compare units: a late trigger's request is held until its due tick (R92). -/
structure Held where
  req : Req
  head : Nat
  since : Nat
  /-- whether its resp_addr can be written -/
  respOk : Bool := true
  deriving DecidableEq, Repr

/-- Mailbox state: requests in GO order (R26), tickets, and the accepted feature map (R39). -/
structure Mbx where
  /-- the Headstock answers (false while every slot reads OFFLINE) -/
  answering : Bool := false
  inbox : List Req := []
  hold : Option Held := none
  nextTicket : Nat := 1
  tickets : Tab Ticket := []
  locked : Bool := false
  /-- accepted feature map, bits 0 to 14 -/
  accepted : Nat := 0
  deriving DecidableEq, Repr

/-! The Cloche (chapter 2) -/

/-- A configuration image: staged settings by command code × 2^32 + object, each with its request payload (for a
load: the loaded bytes). -/
abbrev Image := Tab Bytes

/-- An accepted commit: boundary code, line stream, position, prepared or not, and the beds that have yet to switch. -/
structure CommitRec where
  /-- false ARMED, true APPLYING -/
  applying : Bool
  boundary : Nat
  /-- P_c, none for NEXT_PERIOD until the boundary is known -/
  pc : Option Int
  prepared : Bool
  stageUs : Nat
  newGen : Nat
  /-- device counter at arming -/
  armedAt : Nat
  /-- beds that still work under the configuration before -/
  bedsLeft : List Nat
  /-- beds that carry line streams and have not emitted a row at or after P_c -/
  unemitted : List Nat
  /-- commit_id of a trellis commit, none for CFG.COMMIT -/
  trellis : Option Nat
  deriving DecidableEq, Repr

/-- The Cloche and the configuration in force. -/
structure Cfg where
  active : Image := []
  staged : Image := []
  generation : Nat := 0
  /-- the configuration of the generation before: its last units may still be on their way (R344) -/
  previous : Image := []
  /-- the configurations of the generations before, by generation: units made under one follow its routes (R344) -/
  older : Tab Image := []
  commit : Option CommitRec := none
  deriving DecidableEq, Repr

/-! Periods and statistics (chapter 2) -/

/-- The snapshot header of Table 2.19, but for period_number_check. -/
structure SnapHdr where
  number : Nat := 0
  startDc : Nat := 0
  endDc : Nat := 0
  startPos : Int := 0
  endPos : Int := 0
  generation : Nat := 0
  ptype : Nat := 0
  cause : Nat := 0
  shortDigest : Nat := 0
  deriving DecidableEq, Repr

/-- A period boundary that is due: its close cause (Table 2.19), whether it is scheduled (R57), and the position that its row lies at
or after, where it has one (R56). -/
structure DueBoundary where
  cause : Nat
  scheduled : Bool
  from' : Option Int
  deriving DecidableEq, Repr

/-- Periods and live counters. -/
structure Stat where
  /-- live 48-bit counters by family × 4096 + index -/
  live : Tab Nat := []
  /-- snapshot bank -/
  snap : Tab Nat := []
  hdr : SnapHdr := {}
  /-- number of the open period -/
  number : Nat := 0
  startDc : Nat := 0
  startPos : Int := 0
  /-- whether the open period was opened by a scheduled boundary (R57) -/
  openScheduled : Bool := true
  /-- origin of the TIME lattice -/
  origin : Nat := 0
  /-- last lattice point k passed -/
  lattice : Nat := 0
  /-- frames counted towards FRAME_COUNT -/
  frames : Nat := 0
  /-- device counter at the last boundary -/
  lastBoundary : Nat := 0
  /-- boundaries that wait for their position row, in the order in which they fell due -/
  due : List DueBoundary := []
  /-- the period setting in force, as STAT.SET_PERIOD gives it (R55: TIME, 1 s) -/
  conf : Bytes := leBytes 8 2 ++ leBytes 8 1000000000
  deriving DecidableEq, Repr

/-! Events (chapter 17) -/

/-- An event of the log: header fields (Table 17.4) and body. -/
structure EventRec where
  code : Nat
  severity : Nat
  sequence : Nat
  object : Nat
  arg0 : Int
  arg1 : Int
  eflags : Nat
  body : Bytes
  deriving DecidableEq, Repr

/-- The event log and the fault summary's own registers. -/
structure Ev where
  /-- newest first, at most 65,536 (R428) -/
  log : List EventRec := []
  /-- sequence of the last event raised, 0 before the first (EVENT_SEQ) -/
  seq : Nat := 0
  /-- per code, events raised in the present second -/
  second : Tab Nat := []
  /-- device counter at the start of the present second -/
  secondStart : Nat := 0
  lastFault : Option EventRec := none
  /-- FAULT_STICKY -/
  sticky : Nat := 0
  /-- FAULT_STATUS [15:0] as last compared for the fault vector (R429) -/
  status : Nat := 0x2000
  /-- TJ_PEAK: the highest die temperature sampled since its last read, none before a sample -/
  tjPeak : Option Int := none
  /-- fault injection in progress: the events that result carry INJECTED (R432) -/
  injecting : Bool := false
  deriving DecidableEq, Repr

end Sys2Proof.Machine
end

