-- ==== Sys2Proof/Machine/Parts/Deliv.lean ====
section
/-! DEFINITION. The delivery part of the state: furrows with their descriptors, buffers and queues, row blocks, and the two host
ports (chapter 13). All plain data. -/

namespace Sys2Proof.Machine

/-- A unit as it goes into one furrow: the route it came by, its tag and payload, a number that tells it from others, whether it is
counted against the delivery queue, and whether it is delivered again. -/
structure HUnit where
  route : Nat
  bytes : Bytes
  serial : Nat
  held : Bool := false
  again : Bool := false
  /-- it has been counted as delivered, and was put back before its descriptor was written back -/
  counted : Bool := false
  deriving DecidableEq, Repr

/-- A buffer in use or complete: its descriptor as posted, what stands in it, and the figures of its write-back (Table 13.10). -/
structure Buf where
  desc : Bytes
  data : Bytes := []
  tagOff : Option Nat := none
  count : Nat := 0
  continues : Bool := false
  continued : Bool := false
  status : Nat := 0
  /-- tick at which the first unit entered -/
  firstAt : Nat := 0
  /-- the units with bytes in it -/
  units : List HUnit := []
  deriving DecidableEq, Repr

/-- A furrow (R338 to R359). Counts of descriptors run modulo 2^32 from HOST.FURROW_START. -/
structure Furrow where
  /-- Table 13.5: 0 FREE, 1 READY, 2 RUNNING, 3 STANDBY, 4 FAULT -/
  st : Nat := 0
  cause : Nat := 0
  type : Nat := 0
  owner : Fn := 0
  sizeLog : Nat := 0
  ring : Nat := 0
  vector : Nat := 0xFFFF
  pack : Bool := false
  irqCount : Nat := 0
  irqTime : Nat := 0
  flushUs : Nat := 0
  spillMib : Nat := 0
  vfSlot : Nat := 0
  partner : Nat := 0xFFFF
  tail : Nat := 0
  fetched : Nat := 0
  completed : Nat := 0
  /-- completion_seq of the last write-back -/
  seq : Nat := 0
  /-- a fetch is under way, and it is the second try -/
  fetching : Bool := false
  retried : Bool := false
  /-- the descriptors that the fetch under way asked for -/
  asked : Nat := 0
  /-- descriptors fetched and not in use, in ring order -/
  descs : List Bytes := []
  /-- the buffer that takes units -/
  cur : Option Buf := none
  /-- buffers complete but not written back, in ring order -/
  full : List Buf := []
  /-- a unit larger than its buffers, and how many of its bytes have been placed -/
  part : Option (HUnit × Nat) := none
  /-- units that wait, in furrow order -/
  queue : List HUnit := []
  /-- completions since the last interrupt, and the tick of the first -/
  unsig : Nat := 0
  unsigAt : Nat := 0
  /-- units of the latest write-backs, newest first, at most a ring of them: no write-back before those can be unacknowledged, for the
  host posts a descriptor again only after it has seen its write-back (R341, R358) -/
  recent : List (List HUnit) := []
  delivered : Nat := 0
  dropped : Nat := 0
  /-- FURROW_OVERFLOW has been raised in this period -/
  overflowRaised : Bool := false
  /-- its pair has lost the other furrow, and has not been restored (COVERAGE_REDUCED, Table 17.6) -/
  alone : Bool := false
  deriving DecidableEq, Repr

/-- A row block in progress on one route: its rows as one unit (R346). -/
structure RowBlock where
  unit : DUnit
  rows : Nat
  deriving DecidableEq, Repr

/-- A host port (R329, Table 13.21). -/
structure HostPort where
  /-- 0 DOWN, 1 TRAINING, 2 L0, 3 RECOVERY -/
  link : Nat := 0
  rate : Nat := 0
  width : Nat := 0
  numVfs : Nat := 0
  upSince : Nat := 0
  /-- Max_Payload_Size and Max_Read_Request_Size in bytes, the most requests that its tags allow, and the functions in D3hot, a bit each;
  the reset values are PCI Express' own (R329, R334). (PRESUMED, log entry 114) -/
  mps : Nat := 128
  mrrs : Nat := 512
  tags : Nat := 256
  d3hot : Nat := 0
  deriving DecidableEq, Repr

/-- The delivery part of the state. -/
structure DelivSt where
  furrows : Tab Furrow := []
  ports : Tab HostPort := []
  /-- by route -/
  blocks : Tab RowBlock := []
  /-- routes that a failover has redirected, with their furrow (R358) -/
  redirect : Tab Nat := []
  serial : Nat := 0
  deriving DecidableEq, Repr

end Sys2Proof.Machine
end

