-- ==== Sys2Proof/Machine/Parts/Fault.lean ====
section
/-! DEFINITION. The fault part of the state: temperature sensors and thermal steps, HBM channels, diagnostic snapshots and fault
injection (chapter 17). All plain data. -/

namespace Sys2Proof.Machine

/-- An injected engine fault that its next check will find (R432): the engine, and whether its known-answer test fails too. -/
structure EngineInject where
  engine : Nat
  fails : Bool
  deriving DecidableEq, Repr

/-- A diagnostic snapshot in progress (R430): its ticket, capture_dc, fw_version, and per section whether it is ABSENT and its bytes. -/
structure Snapshot where
  ticket : Nat
  dc : Nat
  fwVersion : Nat
  sections : List (Bool × Bytes)
  deriving DecidableEq, Repr

/-- The fault part of the state. Sensors 0 to 6 (Table 17.5), in 1/16 °C. -/
structure FaultSt where
  /-- the latest sample of each sensor, and the one before it; none before a sample -/
  temps : List Int := []
  before : List Int := []
  warn : Bool := false
  throttle : Bool := false
  stop : Bool := false
  /-- tick at which THROTTLE began -/
  throttleAt : Nat := 0
  /-- the throttle that beds and engines work under follows `throttle` at the next position-row boundary (R424) -/
  throttled : Bool := false
  /-- tick of the last sample -/
  sampledAt : Option Nat := none
  /-- seconds with the die above 100 °C, in identity storage (R462) -/
  hotSeconds : Nat := 0
  /-- one reading of every sensor per second, newest first, at most 3,600 (Table 17.8), and the tick of the last -/
  history : List (List Int) := []
  historyAt : Nat := 0
  /-- input power in units of SMBus register 0x11 as last measured -/
  power : Nat := 0
  /-- failed channels of each stack, a bit each, and stacks declared failed (R422) -/
  marked : Tab Nat := []
  failedStacks : Nat := 0
  /-- ticks of the uncorrectable sectors of a channel within the last second, newest first, keyed stack × 16 + channel -/
  uncorrectable : Tab (List Nat) := []
  /-- the snapshot in progress -/
  snapshot : Option Snapshot := none
  inject : Option EngineInject := none
  /-- tick of the last scrub (R421) -/
  scrubAt : Nat := 0
  /-- SMB_ALERT_N is driven low -/
  alert : Bool := false
  deriving DecidableEq, Repr

end Sys2Proof.Machine
end

