-- ==== Sys2Proof/Machine/Parts/Ing.lean ====
section
/-! DEFINITION. The ingest part of the state: the look-back buffer, the line streams' slots, the beds and their member
gates (chapter 8), and the rows the beds make (chapter 9). All plain data. -/

namespace Sys2Proof.Machine

/-- A line in the look-back buffer: its arrival record (Table 8.3), its pixels (none where a packet is still missing, which
reads fill_value), and where it lies in the ring. -/
structure LbLine where
  seq : Nat
  stream : Nat
  /-- the paired record's position, none without a pair -/
  pos : Option Int
  trigDc : Nat
  arrDc : Nat
  block : Nat
  trigSeq : Nat
  index : Nat
  /-- flags of Table 8.3: bits 0 truncated, 1 padded, 2 late, 3 degraded, 5 resent, 6 no_pair -/
  flags : Nat
  paramSet : Nat
  corrSet : Nat
  valid : Nat
  format : Nat
  fill : Nat
  px : List (Option Nat)
  /-- packets are missing and the bed may not have the line yet (R207) -/
  waiting : Bool
  /-- tick at which the bed could have it -/
  freeDc : Nat
  /-- first granule, counted from the clearing of the buffer, and the stack that each granule lies on -/
  granule : Nat
  granules : Nat
  onStacks : List Nat
  /-- the index granule that holds its entry, none while the entry is on die -/
  idxGranule : Option Nat
  /-- on a lost stack without parity (R213) -/
  lost : Bool
  deriving DecidableEq, Repr

/-- The look-back buffer (R209 to R215). Lines newest first. -/
structure LookBack where
  lines : List LbLine := []
  nextSeq : Nat := 1
  /-- granules written since the buffer was cleared -/
  wp : Nat := 0
  /-- stripes written, data granules in the open one and the tick it was opened (R210) -/
  stripe : Nat := 0
  stripeFill : Nat := 0
  stripeAt : Nat := 0
  /-- failed stacks, a bit each -/
  lostStacks : Nat := 0
  /-- smallest distance, in granules, from the write pointer to the oldest unread line in this period; none while no bed
  has had an unread line in it -/
  minFree : Option Nat := none
  /-- bytes written and ticks of the last period, for the retention estimate -/
  wpAtPeriod : Nat := 0
  lastRate : Nat × Nat := (0, 0)
  /-- per stream, position of the newest line of which neither slot nor index entry remains -/
  forgotten : Tab Int := []
  deriving DecidableEq, Repr

/-- A line as its bed holds it: its position on the strip with the head's offset, whether it was rebuilt from parity, and when it was
read. -/
structure BedLine where
  line : LbLine
  pos : Int
  rebuilt : Bool
  /-- tick at which the bed read it -/
  readAt : Nat
  deriving DecidableEq, Repr

/-- One line stream's ingest state (Table 8.6). -/
structure StreamSt where
  /-- 0 IDLE, 1 DIRECT, 2 CATCH_UP -/
  st : Nat := 0
  /-- line_seq of received, paired lines that the bed has not read, oldest first; the first `inSlot` are in the slot -/
  unread : List Nat := []
  inSlot : Nat := 0
  /-- lines the bed has read and may still use: older, newer -/
  lineA : Option BedLine := none
  lineB : Option BedLine := none
  /-- position of the newest paired line received -/
  newest : Option Int := none
  catchUpSince : Nat := 0
  /-- index entries on die -/
  idxFill : Nat := 0
  /-- set truncated on the first line read after a drop (R220) -/
  truncNext : Bool := false
  /-- lines up to this position were dropped under R220 -/
  dropped : Option Int := none
  /-- of the last row: parameter set, correction set in force, position -/
  rowParam : Nat := 0
  rowCorr : Nat := 0
  rowPos : Int := 0
  deriving DecidableEq, Repr

/-- One bed: deficit credits (exact), the stream served last, and what the last period saw. -/
structure Bed where
  credits : Tab Rat := []
  cursor : Nat := 0
  overrunRaised : Bool := false
  /-- the bed has emitted its first row at or after P_c of the commit that is applying or was applied last: its next rows
  carry config-changed (R19) -/
  changed : List Nat := []
  /-- pixels served in this period and in the last one; busy cycles of the last -/
  served : Nat := 0
  lastServed : Nat := 0
  busy : Nat := 0
  lastBusy : Nat := 0
  lastTicks : Nat := 0
  /-- streams whose column table waits to be reloaded (R242) -/
  reload : List Nat := []
  /-- grids whose ready rows its tiles do not take, since when any has waited so, and up to when its cycles are counted -/
  heldGrids : List Nat := []
  heldAt : Option Nat := none
  heldCounted : Nat := 0
  deriving DecidableEq, Repr

/-- A member gate (R223): the grid position it stands at, its clock, and what its expiry decided. -/
structure Gate where
  g : Int
  clock : Option Nat
  /-- members that the expiry found missing, and the tick of the expiry -/
  made : List Nat
  expired : Option Nat
  /-- beds that have released their rows for g -/
  beds : List Nat
  /-- no row of the grid has been released since its gate began -/
  first : Bool
  deriving DecidableEq, Repr

/-- The ingest part of the state. -/
structure IngSt where
  lb : LookBack := {}
  streams : Tab StreamSt := []
  beds : Tab Bed := []
  /-- by grid number (R232) -/
  gates : Tab (Option Gate) := []
  deriving DecidableEq, Repr

/-- A row as a bed releases it: pixels in promoted units. `dc` is the match tick of the trigger of line a. -/
structure Row where
  stream : Nat
  head : Nat
  g : Int
  dc : Nat
  flags : Nat
  paramSet : Nat
  generation : Nat
  /-- parameter sets of the rows it was made from (R326) -/
  params : List Nat
  px : List Int
  deriving DecidableEq, Repr

end Sys2Proof.Machine
end

