-- ==== Sys2Proof/Machine/Parts/Graph.lean ====
section
/-! DEFINITION. The fabric part of the state: engines and tiles, placed graphs, what their operators carry from row to row
(chapters 10 and 11), region contexts and tile cuts (chapter 12). All plain data. -/

namespace Sys2Proof.Machine

/-! Cut lists (R256) -/

/-- An input reference (Table 10.3): a source, or an output port of an operator. -/
inductive Ref where
  | src (k : Nat)
  | op (i port : Nat)
  deriving DecidableEq, Repr

/-- What a port carries: pixels, one-column rows, edge columns, a region or feature stream, a class, statistics. -/
inductive PortKind where
  | px | one | edge | region | feat | cls | stat
  deriving DecidableEq, Repr

/-- A port: what it carries, its decimation and its format word. -/
structure Shape where
  kind : PortKind
  fx : Nat
  fy : Nat
  fmt : Nat
  deriving DecidableEq, Repr

/-- An operator of a cut list. -/
structure Oper where
  id : Nat
  ins : List Ref
  fmt : Nat
  params : Bytes
  ports : List Shape
  deriving DecidableEq, Repr

/-- An output record (Table 10.4). -/
structure CutOut where
  ref : Ref
  kind : Nat
  num : Nat
  deriving DecidableEq, Repr

/-- A cut list as read. -/
structure Cut where
  sources : Nat
  ops : List Oper
  outs : List CutOut
  deriving DecidableEq, Repr

/-- A graph as compiled (R261 to R264): its cut list, sources, deepening, and the quantities of admission. Times in ns. -/
structure Plan where
  graph : Nat
  cut : Cut
  srcs : List Nat
  cols : Nat
  rate : Rat
  /-- 0 LOCAL, 1 ORIGIN, 2 TARGET -/
  role : Nat
  peer : Nat
  split : Nat
  mask : Nat
  /-- cut list and binding as staged -/
  raw : Bytes
  binding : Bytes
  cost : Rat
  halo : Nat
  hist : Nat
  engines : Nat
  /-- columns of the first strips, cycles of a row, bytes of memory: the largest of any engine -/
  strip : Nat
  cycles : Nat
  mem : Nat
  load : Rat
  rerunNs : Rat
  checkRows : Nat
  /-- ranges of each source (R249), empty for a line stream -/
  ranges : List (List (Nat × Nat × Nat))
  deriving DecidableEq, Repr

/-! What a running graph carries -/

/-- One row of one port: its values, the union of the flags of the source rows it was computed from, the source rows (counted from the
graph's start) that it was computed for, and the grid indices it spans: after a DECIMATE those of its blocks (R301). -/
structure VRow where
  px : List Int
  flags : Nat
  n0 : Nat
  n1 : Nat
  k0 : Int
  k1 : Int
  deriving DecidableEq, Repr

/-- The rows of a port: how many it has had, and the latest, newest first. -/
structure PortRows where
  count : Nat := 0
  rows : List VRow := []
  deriving DecidableEq, Repr

/-- What a source row was: its tag fields (Table 12.7), grid index and grid pitch. -/
structure RowMeta where
  g : Int
  k : Int
  stream : Nat
  head : Nat
  generation : Nat
  digest : Nat
  paramSet : Nat
  params : List Nat
  dc : Nat
  pitch : Nat
  deriving DecidableEq, Repr

/-- State that an operator carries from row to row (R291). -/
inductive Carry where
  /-- BACKGROUND: b per column -/
  | back (b : List Int)
  /-- PROJECT, column mode: sums and rows -/
  | sums (v : List Int) (rows : Nat)
  /-- HISTOGRAM: 256 bins -/
  | bins (v : List Nat)
  /-- EDGE_TRACK: last edge found, rows since it was found, and the edge of the previous row, left and right -/
  | edges (lastL lastR : Option Nat) (missL missR : Nat) (prevL prevR : Option Nat)
  /-- DECIMATE: the block in progress: its rows oldest first, flags, and source rows -/
  | block (j : Int) (rows : List (List Int)) (flags n0 n1 : Nat)
  deriving DecidableEq, Repr

/-- Features of a region as they accumulate (R303). Sums of input 1 and 2, first and second moments of columns and rows. -/
structure Acc where
  area : Nat := 0
  /-- rows and columns of LABEL's grid -/
  row0 : Int := 0
  row1 : Int := 0
  col0 : Nat := 0
  col1 : Nat := 0
  sumI : Int := 0
  sumI2 : Int := 0
  minI : Option Int := none
  maxI : Option Int := none
  sumR : Int := 0
  /-- there is an input 2 -/
  ref : Bool := false
  sx : Int := 0
  sxx : Int := 0
  sy : Int := 0
  syy : Int := 0
  sxy : Int := 0
  perimeter : Nat := 0
  polarity : Nat := 0
  /-- first and last position on the strip -/
  pos0 : Int := 0
  pos1 : Int := 0
  paramSet : Nat := 0
  generation : Nat := 0
  digest : Nat := 0
  /-- generations of the rows, tag flags, and record flags ROW_EDGE and LABEL_GAP -/
  gens : List Nat := []
  flags : Nat := 0
  edge : Bool := false
  gap : Bool := false
  deriving DecidableEq, Repr

/-- An open region: its context. -/
structure Region where
  id : Nat
  /-- where the context was opened -/
  openRow : Int
  openCol : Nat
  acc : Acc
  /-- number of the split that it continues, and of the split that ended it; 0 for none (R312) -/
  continues : Nat
  tail : Bool
  split : Nat := 0
  deriving DecidableEq, Repr

/-- A run of a row: bit plane, first and last column, region. -/
structure LabRun where
  plane : Nat
  c0 : Nat
  c1 : Nat
  region : Nat
  deriving DecidableEq, Repr

/-- LABEL's state of one graph: open regions in ascending number, the runs of the previous row, the members of that row which
are at the perimeter unless the next row covers them, and the row it stands at. -/
structure Lab where
  regions : Tab Region := []
  nextId : Nat := 1
  /-- splits so far (R312) -/
  splits : Nat := 0
  prev : List LabRun := []
  /-- plane, column and region of members of the previous row with members at left, right and above -/
  inner : List (Nat × Nat × Nat) := []
  row : Int := 0
  /-- rows of LABEL's input taken, and the last source row they reach -/
  taken : Nat := 0
  last : Option Nat := none
  /-- source rows with runs left unlabelled (R314) -/
  unlabelled : List Nat := []
  deriving DecidableEq, Repr

/-- Everything the operators of a graph carry. Ports are keyed 4 × operator + port, sources 1,024 + source. -/
structure OpsSt where
  count : Nat := 0
  metas : List RowMeta := []
  ports : Tab PortRows := []
  /-- input rows that an operator has taken -/
  taken : Tab Nat := []
  carry : Tab Carry := []
  lab : Lab := {}
  /-- period boundaries of the graph that its statistics have been closed for -/
  closedN : Nat := 0
  deriving DecidableEq, Repr

/-- A row that waits to be delivered until LABEL has reached it: output record index, the row, and the tick at which it was computed. -/
structure Waiting where
  out : Nat
  row : VRow
  dc : Nat
  deriving DecidableEq, Repr

/-- A re-run in progress (R269): first row, engine decision, and what its event carries. -/
structure Rerun where
  restart : Int
  tile : Nat
  slot : Nat
  engine : Nat
  /-- event code -/
  code : Nat
  last : Int
  clipped : Nat
  /-- tick at which the known-answer test ended -/
  since : Nat
  injected : Bool := false
  /-- no event of an engine: a word of tile SRAM was lost (Table 17.1) -/
  quiet : Bool := false
  /-- ORIGIN only forwards its crossing values again, the other way round the ring (R375) -/
  reroute : Bool := false
  deriving DecidableEq, Repr

/-- A running graph. -/
structure Run where
  plan : Plan
  ops : OpsSt
  /-- priming rows: outputs of source rows below this number are discarded -/
  prime : Nat
  /-- the graph's first row; on TARGET the row of the commit it starts at, before which crossing values are priming rows -/
  startG : Int
  /-- position of the next row may not lie at or before the last -/
  lastG : Option Int
  waiting : List Waiting
  /-- state before each of the latest rows, newest first, with the row's position -/
  snaps : List (Int × OpsSt)
  /-- per slot, position of the last row that passed a check -/
  passed : Tab Int
  /-- per slot, rows before the graph's start whose check had not been passed (R269) -/
  unchecked : Tab Nat := []
  /-- outputs delivered: output record index, position, CRC; newest first -/
  sent : List (Nat × Int × Nat)
  /-- records emitted: region_id, position of the last row; newest first -/
  records : List (Nat × Int)
  startedPeriod : Bool
  /-- slots of the graph when it started -/
  slots : List Nat
  /-- period boundaries that its statistics were delivered for: position, header, and whether the period was partial; newest first, and
  how many there have been -/
  closed : List (Int × SnapHdr × Bool)
  closedN : Nat
  deriving DecidableEq, Repr

/-- The rows of one grid position that wait for a graph. -/
structure InRow where
  g : Int
  generation : Nat
  digest : Nat
  rows : List Row
  deriving DecidableEq, Repr

/-- A crossing value that ORIGIN has forwarded (R277): its index, its row's tag fields, its last position, flags and values. -/
structure Fwd where
  index : Nat
  meta0 : RowMeta
  endG : Int
  flags : Nat
  px : List Int
  deriving DecidableEq, Repr

/-- One graph. -/
structure GraphSt where
  run : Option Run := none
  inq : List InRow := []
  suspended : Bool := false
  /-- its two devices hold different cut lists: suspended on both until they agree (R383) -/
  split : Bool := false
  rerun : Option Rerun := none
  /-- re-runs that fell due during that one, oldest first -/
  reruns : List Rerun := []
  /-- the graph's binding has ended and its last rows are still queued -/
  ending : Bool := false
  /-- the graph's next row starts it anew: it was suspended (R271) -/
  anew : Bool := false
  /-- TARGET: rows up to this position are a re-run (R277) -/
  rerunTo : Option Int := none
  /-- TARGET: crossing values that wait, and the restart row that it waits for after it asked for a re-run -/
  fwd : List Fwd := []
  await : Option Int := none
  /-- TARGET: ORIGIN's generation of the last crossing value taken -/
  originGen : Option Nat := none
  /-- how often the graph has started, and the records emitted since (R316) -/
  start : Nat := 0
  seq : Nat := 0
  /-- the counts of earlier starts that still have regions to close -/
  past : Tab Nat := []
  /-- region_ids of the records of split heads, by start and split; 0 for a record withheld (R312, R316) -/
  ids : Tab Nat := []
  /-- RGN.FLUSH is due at the next row boundary -/
  flush : Bool := false
  /-- the next row waits for contexts to be fetched (R307) -/
  held : Bool := false
  /-- records of the present period and what has been raised in it -/
  records : Nat := 0
  suspRaised : Bool := false
  limitRaised : Bool := false
  /-- period boundaries that rows still queued lie before, oldest first -/
  bounds : List (Int × SnapHdr × Bool) := []
  /-- engine cycles of the busiest engine in this period; permille of the last -/
  busy : Nat := 0
  lastBusy : Nat := 0
  /-- units of a deepened graph that arrive in pieces: kind × 256 + index, position, bytes so far (R374) -/
  parts : List (Nat × Int × Bytes) := []
  /-- units that this device sends to its peer: flit type, kind, index, position, bytes (R277) -/
  outbound : List (Nat × Nat × Nat × Int × Bytes) := []
  /-- ORIGIN: positions whose results have not all returned, oldest first (R375) -/
  unreturned : List Int := []
  deriving DecidableEq, Repr

/-- Whether none of a graph's rows is processed (R271, R383). -/
def GraphSt.stopped (x : GraphSt) : Bool := x.suspended || x.split

/-! Engines and tiles (R267 to R272) -/

/-- A known-answer test in progress in a tile. -/
structure Kat where
  slot : Nat
  /-- position of the row that the check found, none for an SECDED error with no row in hand -/
  row : Option Int
  since : Nat
  /-- by fault injection, and whether that makes the slot engine's test fail (R432) -/
  injected : Option Bool := none
  deriving DecidableEq, Repr

/-- The fabric. Engines are physical indices; slots are tile × 16 + slot. -/
structure Fab where
  /-- slots of each placed graph, in strip order -/
  placed : Tab (List Nat) := []
  /-- slots that the armed commit has planned (R271) -/
  planned : Tab (List Nat) := []
  retired : List Nat := []
  /-- slot that a tile's spare has taken -/
  spareAt : Tab Nat := []
  /-- slots without an engine -/
  lost : List Nat := []
  /-- tick of an engine's last transient -/
  transients : Tab Nat := []
  tests : Tab Kat := []
  /-- engines whose uncorrectable error came while their tile was under test, oldest first -/
  testsDue : List Nat := []
  deriving DecidableEq, Repr

/-- Sprint (R273 to R275). -/
structure Sprint where
  on : Bool := false
  since : Nat := 0
  /-- sprints of the last 600 s: begin and end ticks, newest first -/
  past : List (Nat × Nat) := []
  lastExit : Nat := 0
  exitAt : Option Nat := none
  /-- ms, of the identity storage -/
  lifetimeMs : Nat := 0
  entries : Nat := 0
  /-- GRAPH.SPRINT_NOW in force: duration in ms -/
  manual : Option Nat := none
  /-- tick at which the AUTO condition last ended -/
  idleAt : Option Nat := none
  /-- mode in force at the entry -/
  mode : Nat := 0
  /-- a change of the engine clock waits for the next position-row boundary: 1 entry, 2 exit -/
  asked : Nat := 0
  /-- ms of the present sprint that the period counters have had -/
  counted : Nat := 0
  deriving DecidableEq, Repr

/-! Region unit (chapter 12) -/

/-- A tile cut that waits in the FIFO (R321). -/
structure TileCut where
  graph : Nat
  region : Nat
  head : Nat
  stream : Nat
  generation : Nat
  digest : Nat
  paramSet : Nat
  rerun : Bool
  rangeStart : Int
  rangeEnd : Int
  xLo : Int
  xHi : Int
  streams : List Nat
  queuedAt : Nat
  deriving DecidableEq, Repr

/-- A closed region in a pipeline (R313, R315): the graph's RGN settings and classifier (op_id and parameters) at its closure, the
cross-strip bounds, and its record flags. -/
structure Closed where
  graph : Nat
  region : Region
  rflags : Nat
  /-- the graph's settings as RGN.SET_GRAPH gives them -/
  settings : Bytes
  classifier : Option (Nat × Bytes)
  minArea : Nat
  core : Bool
  xMin : Int
  xMax : Int
  pitch : Nat
  head : Nat
  stream : Nat
  dc : Nat
  /-- the start of the graph that it belongs to, and whether the graph is TARGET -/
  start : Nat
  target : Bool
  deriving DecidableEq, Repr

/-- The region unit. `cache` holds the contexts in cache as graph and region, most recently touched first (R307). -/
structure Rgn where
  closing : List Closed := []
  cache : List (Nat × Nat) := []
  tiles : List TileCut := []
  peak : Nat := 0
  lastPeak : Nat := 0
  tileBytes : Nat := 0
  closures : Nat := 0
  /-- MB/s of tile reads and closures a second in the last period -/
  lastTileMbs : Nat := 0
  lastClosures : Nat := 0
  deriving DecidableEq, Repr

/-- The fabric part of the state. -/
structure FabSt where
  graphs : Tab GraphSt := []
  fab : Fab := {}
  sprint : Sprint := {}
  rgn : Rgn := {}
  deriving DecidableEq, Repr

end Sys2Proof.Machine
end

