-- ==== Sys2Proof/Machine/Parts/Lane.lean ====
section
/-! DEFINITION. The lane part of the state: the 64 serial lanes, their equalisation, training and tests, and the Graft
groups' link layer (chapter 6). All plain data. -/

namespace Sys2Proof.Machine

/-- A lane's settings as LANE.SET_LANE gives them (Table 6.13). -/
structure LaneSet where
  mode : Nat := 0
  fec : Nat := 0
  an : Bool := false
  txInvert : Bool := false
  rxInvert : Bool := false
  manual : Bool := false
  first : Nat := 0
  lanes : Nat := 1
  minLanes : Nat := 0
  deriving DecidableEq, Repr

/-- A lane's equalisation settings (Table 6.13). -/
structure EqSet where
  /-- CTLE_FIXED -/
  fixed : Bool := false
  ctle : Nat := 0
  pre : Nat := 0
  post : Nat := 0
  /-- retrain_interval_s in force, none when disabled -/
  interval : Option Nat := some 3600
  deriving DecidableEq, Repr

/-- A pattern test of a lane (R171 to R174). -/
structure LaneTest where
  loop : Nat := 0
  gen : Nat := 0
  chk : Nat := 0
  flags : Nat := 0
  locked : Bool := false
  bits : Nat := 0
  errors : Nat := 0
  resyncs : Nat := 0
  deriving DecidableEq, Repr

/-- What a W2 keeps of a lane (R400). -/
structure KeptLane where
  set : LaneSet
  eq : EqSet
  coeffs : Coeffs
  anchor : Coeffs
  hasAnchor : Bool
  pre : Nat
  post : Nat
  deriving DecidableEq, Repr

/-- One lane. `live` and `sticky` hold the bits of Table 6.14. -/
structure Lane where
  /-- Table 6.5 -/
  st : Nat := 0
  /-- the state a calibration took it out of -/
  calFrom : Nat := 0
  live : Nat := 0
  sticky : Nat := 0
  set : LaneSet := {}
  eq : EqSet := {}
  /-- a commit of this lane waits for the end of a test (R172) -/
  waits : Bool := false
  coeffs : Coeffs := {}
  anchor : Coeffs := {}
  /-- anchors have been recorded, and bound adaptation (R150) -/
  hasAnchor : Bool := false
  pre : Nat := 0
  post : Nat := 0
  atBound : Nat := 0
  hits : Nat := 0
  /-- LANE_MARGIN has been raised in this period -/
  marginRaised : Bool := false
  slip : Nat := 0
  /-- tick at which the present training attempt began -/
  trainStart : Nat := 0
  trainingMs : Nat := 0
  tries : Nat := 0
  /-- consecutive training frames with RX_READY while also sending it -/
  readyRun : Nat := 0
  /-- the retrain of a RETRAINING lane has ended -/
  trained : Bool := false
  /-- block or codeword lock, which waits for the group -/
  locked : Bool := false
  energy : Bool := false
  upSince : Nat := 0
  anchorDc : Nat := 0
  /-- a re-anchor waits for an idle or control block -/
  reanchor : Bool := false
  snr : Int := 0
  test : LaneTest := {}
  kept : Option KeptLane := none
  deriving DecidableEq, Repr

/-- A flit's type and payload. -/
structure Flit where
  kind : Nat
  payload : Bytes
  deriving DecidableEq, Repr

/-- A Graft group's link layer (R161 to R170). Maps hold a bit per position in the group. -/
structure Graft where
  txMap : Nat := 0
  rxMap : Nat := 0
  partnerMap : Nat := 0
  mapVersion : Nat := 0
  /-- sequence of the next new reliable flit -/
  nextSeq : Nat := 0
  /-- unacknowledged reliable flits, oldest first, at most 64 -/
  held : List (Nat × Flit) := []
  /-- reliable flits that wait for room in the replay buffer -/
  waiting : List Flit := []
  /-- last reliable sequence received in order -/
  lastRx : Nat := 255
  nak : Bool := false
  timeouts : Nat := 0
  /-- tick at which ack_seq last advanced, or the last replay timeout -/
  progressAt : Nat := 0
  roundTripPs : Nat := 0
  /-- the round trip measured when a lane of the group last locked -/
  measuredPs : Nat := 0
  /-- tick since which the partner's rx_map has been empty -/
  emptySince : Option Nat := none
  failed : Bool := false
  /-- received payloads not yet handled, oldest first -/
  inbox : List Flit := []
  deriving DecidableEq, Repr

/-- The lane part of the state. -/
structure LaneSt where
  lanes : Tab Lane := []
  /-- by group_first -/
  grafts : Tab Graft := []
  deriving DecidableEq, Repr

end Sys2Proof.Machine
end

