-- ==== Sys2Proof/Machine/Parts/Pos.lean ====
section
/-! DEFINITION. The position part of the state: encoder channels, spindle position, dividers, emulators and GP inputs
(chapter 3). All plain data. -/

namespace Sys2Proof.Machine

/-- One entry of a channel's index history (Table 3.13). -/
structure IndexEntry where
  count : Int
  deviation : Int
  outcome : Nat
  sequence : Nat
  deriving DecidableEq, Repr

/-- One encoder channel's state (R61 to R84). -/
structure Chan where
  /-- filtered levels of A, B and Z -/
  a : Bool := false
  b : Bool := false
  z : Bool := false
  /-- signed 48-bit raw count -/
  count : Int := 0
  /-- last valid HALL state, 0 before the first -/
  hall : Nat := 0
  /-- SSI: last accepted value, none before the first valid sample -/
  ssiPrev : Option Nat := none
  /-- SSI: consecutive discarded samples -/
  ssiBad : Nat := 0
  /-- count steps of the last 16 SSI samples, newest first -/
  ssiSteps : List Int := []
  /-- edges of the partner (or of the other two switches) since this input's own last edge -/
  quietA : Nat := 0
  quietB : Nat := 0
  quietZ : Nat := 0
  deadA : Bool := false
  deadB : Bool := false
  deadZ : Bool := false
  deadChannel : Bool := false
  /-- tick since which Z is at its active level -/
  zSince : Option Nat := none
  stuckZ : Bool := false
  stale : Bool := false
  /-- tick of the last count -/
  lastCountDc : Nat := 0
  /-- tick from which STALE is timed: the last count, or the commit that set the mode -/
  staleFrom : Nat := 0
  /-- times of the last counts, newest first -/
  countTimes : List Nat := []
  /-- count steps with their ticks inside the last 2^20 ticks, newest first -/
  window : List (Nat × Int) := []
  /-- 0 edge timing, 1 window counting -/
  method : Nat := 0
  /-- speed of this channel, µm/s -/
  speed : Int := 0
  /-- direction of the last count (Table 3.5) -/
  backward : Bool := false
  /-- index reference r -/
  reference : Option Int := none
  zEdges : Nat := 0
  history : List IndexEntry := []
  uncertain : Bool := false
  indexDev : Bool := false
  /-- ticks of the last OVERSPEED, QUAD_ERR and SSI_ERROR events while live -/
  overspeedAt : Option Nat := none
  quadErrAt : Option Nat := none
  ssiErrAt : Option Nat := none
  hallInvalid : Bool := false
  /-- ticks of the error-burst events of the last 1 ms, newest first -/
  burst : List Nat := []
  /-- FAILED and the tick of the last failure condition -/
  failed : Bool := false
  failedAt : Option Nat := none
  sticky : Nat := 0
  /-- raw count at the last commit of the channel, carried over the count's wraps -/
  commitCount : Int := 0
  /-- SSI: tick of the last frame -/
  frameAt : Option Nat := none
  deriving DecidableEq, Repr

/-- An open slip window (R78): scaled start counts of both channels and their directions. -/
structure SlipWin where
  master0 : Int
  alternate0 : Int
  masterBack : Bool
  alternateBack : Bool
  deriving DecidableEq, Repr

/-- The spindle (R74 to R78). -/
structure Spindle where
  /-- spindle position, nm -/
  pos : Int := 0
  /-- the position the counts give, which `pos` takes after the pipeline delay (R63) -/
  target : Int := 0
  basePos : Int := 0
  /-- base_count, carried over the wraps of the raw count, so that their difference is the travel -/
  baseCount : Int := 0
  /-- a source has been selected since the start -/
  selected : Bool := false
  /-- active channel, none without a source -/
  active : Option Nat := none
  /-- base_count is set by the active channel's next count, which leaves the position where it is -/
  firstCount : Bool := false
  /-- the position stands still because the active channel has failed (R75) -/
  frozen : Bool := false
  altActive : Bool := false
  restorePending : Bool := false
  slip : Bool := false
  lastSlip : Int := 0
  slipWin : Option SlipWin := none
  /-- slip windows completed since the failover, and whether the last was within tolerance -/
  windowsSince : Nat := 0
  lastInTol : Bool := false
  failovers : Nat := 0
  lostTravel : Int := 0
  failoverDc : Nat := 0
  unabsorbed : Int := 0
  /-- RE_ZERO counts that the raw count has taken and the spindle not yet given up: added to the raw count in R74,
  moved towards 0 by one per 16 counts of travel (R72) -/
  corr : Int := 0
  absorbStep : Nat := 0
  /-- alternate's raw count at the master's last count, and the converse, for the stall test (Table 3.3) -/
  altAtMaster : Int := 0
  masterAtAlt : Int := 0
  /-- speed that the master's samples give a trellis member, µm/s -/
  speed : Int := 0
  /-- tick from which the position is extrapolated: that of the last accepted sample of the SSI channel that drives it (R67) -/
  sampleDc : Option Nat := none
  /-- the position is held: the last sample lies behind it (R67) -/
  held : Bool := false
  /-- tick at which the position last advanced -/
  movedAt : Nat := 0
  deriving DecidableEq, Repr

/-- A divider output (R81). -/
structure DivOut where
  acc : Nat := 0
  /-- quadrature phase, 0 to 3 -/
  phase : Nat := 0
  deriving DecidableEq, Repr

/-- An encoder emulator (R82). -/
structure Emu where
  /-- counts emitted or discarded, signed -/
  emitted : Int := 0
  /-- quadrature phase of the A and B pins, 0 to 3 -/
  phase : Nat := 0
  /-- position at which the emulator was enabled -/
  origin : Int := 0
  lastDc : Nat := 0
  lag : Bool := false
  skip : Bool := false
  zLevel : Bool := false
  deriving DecidableEq, Repr

/-- A GP input (R83). -/
structure GpIn where
  level : Bool := false
  activeSince : Option Nat := none
  stuck : Bool := false
  deriving DecidableEq, Repr

/-- The position part of the state. -/
structure PosSt where
  chans : Tab Chan := []
  sp : Spindle := {}
  divs : Tab DivOut := []
  emus : Tab Emu := []
  gps : Tab GpIn := []
  /-- tick of the last measurement of speeds (R79) -/
  speedAt : Nat := 0
  deriving DecidableEq, Repr

end Sys2Proof.Machine
end

