-- ==== Sys2Proof/Machine/Parts/Start.lean ====
section
/-! DEFINITION. The start part of the state: straps, reset pins, boot flash slots, starts and the safe state
(chapter 15). All plain data. -/

namespace Sys2Proof.Machine

/-- A firmware slot of the flash (Tables 15.5, 15.6): the 512 bytes of its header, none where it is erased, and its payload; and the
first check of Table 15.7 that these fail, 0 when valid. -/
structure FwSlot where
  header : Bytes := []
  payload : Bytes := []
  reason : Nat := 1
  deriving DecidableEq, Repr

/-- The image that slot A holds when the device leaves its maker: fw_version 1, dp_level 1, a payload of one byte, confirmed, install_seq 1.
Its digest, key, signature and payload are whatever verifies. (DESIGN CHOICE, log entry 10) -/
def makerSlot : FwSlot where
  header := [0x4B, 0x50, 0x5A, 0x46] ++ leBytes 2 1 ++ leBytes 2 0 ++ leBytes 4 1 ++ leBytes 4 0 ++ leBytes 2 1 ++ zeros 2 ++ leBytes 4 1
    ++ zeros 8 ++ (List.range 240).map Config.makerSeal ++ zeros 228 ++ leBytes 4 0x3C5AC3A5 ++ leBytes 4 1
    ++ leBytes 4 0xA5C35A3C
  payload := [Config.makerSeal 240]
  reason := 0

/-- A start that has been decided and has not yet run. -/
structure DueStart where
  /-- Table 15.9: 0 cold, 1 W2, 2 W1 -/
  kind : Nat
  cause : Nat
  /-- the firmware slot a start was told to boot -/
  slot : Option Nat
  /-- tick of step 1 -/
  startDc : Nat
  deriving DecidableEq, Repr

/-- The start part of the state. -/
structure StartSt where
  /-- RST_N is held low -/
  rstLow : Bool := false
  /-- held in reset by a thermal TRIP (Table 17.2) -/
  held : Bool := false
  /-- PERSTn_N held low, a bit per port -/
  perst : Nat := 0
  /-- the straps were latched at the edge of RST_N that called for the due cold start -/
  latched : Bool := false
  /-- TRELLIS_ROLE strap, 0 to 3 -/
  trellisRole : Nat := 0
  bootSel : Bool := false
  testEn : Bool := false
  due : Option DueStart := some ⟨0, 0, none, 0⟩
  /-- cold start step 3 has been reached: the window answers (R467) -/
  windowUp : Bool := false
  /-- cold start step 11 has been reached outside the safe state -/
  blocksUp : Bool := false
  safe : Bool := false
  safeCause : Nat := 0
  w1Running : Bool := false
  /-- BOOT_STAGE, START_KIND, START_CAUSE, READY -/
  stage : Nat := 0
  kind : Nat := 0
  cause : Nat := 0
  ready : Bool := false
  /-- tick of step 1 of the current or last start, its duration -/
  startDc : Nat := 0
  durationMs : Nat := 0
  /-- tick up to which durationMs counts -/
  stageDc : Nat := 0
  /-- tick of mailbox ready of the last W2: what it kept of the lanes stands for 60 s from there -/
  keptAt : Option Nat := none
  recalibrated : Bool := false
  runningSlot : Option Nat := none
  trial : Bool := false
  fwVersion : Nat := 0
  dpLevel : Nat := 0
  slotA : FwSlot := makerSlot
  slotB : FwSlot := {}
  /-- the board record (Table 15.8), none where it is not programmed -/
  board : Bytes := []
  /-- failure counts and whether a W1 has failed since the last successful start -/
  coldFails : Nat := 0
  w2Fails : Nat := 0
  w1Failed : Bool := false
  /-- the present or due cold start leaves the safe state -/
  fromSafe : Bool := false
  coldCount : Nat := 0
  w2Count : Nat := 0
  w1Count : Nat := 0
  /-- tick at which the slots became IDLE -/
  idleSince : Option Nat := none
  /-- the start has succeeded (R402) -/
  succeeded : Bool := false
  heartbeat : Nat := 0
  lastHeartbeat : Nat := 0
  /-- tick of the last watchdog service -/
  watchdogAt : Nat := 0
  watchdogStopped : Bool := false
  /-- DIAG.INJECT stopped it: the event of the start that follows carries INJECTED (R432) -/
  injected : Bool := false
  /-- a W2 has begun and the data path is down -/
  torn : Bool := false
  /-- the JTAG instruction in force is IDCODE, which Test-Logic-Reset selects; else BYPASS (R442) -/
  tapId : Bool := true
  /-- board record: subsystem vendor and device as in force -/
  subsystem : Nat × Nat := (0x1F3D, 0x0001)
  deriving DecidableEq, Repr

end Sys2Proof.Machine
end

