-- ==== Sys2Proof/Machine/Parts/Time.lean ====
section
/-! DEFINITION. The time part of the state: the device counter, the time views, TV_SEL, the PTP ports, the transmit
timestamp queues, PPS and CLK10 (chapter 5). All plain data. -/

namespace Sys2Proof.Machine

/-- One time view's state (R114, R116, R121, R132). Frequencies are exact rationals in parts per billion. -/
structure View where
  baseDc : Nat := 0
  /-- ns since the PTP epoch with 32 fraction bits -/
  baseNs : Int := 0
  /-- units of 2^-40, with phase_ppb -/
  rate : Int := 0
  /-- the rate of freq_ppb alone, in force once phase_ppb has ended -/
  heldRate : Int := 0
  epoch : Nat := 0
  freq : Rat := 0
  phase : Rat := 0
  /-- device counter at which phase_ppb ends -/
  phaseUntil : Option Nat := none
  /-- device counter of the last measurement -/
  measuredAt : Option Nat := none
  locked : Bool := false
  holdover : Bool := false
  frozen : Bool := false
  suspect : Bool := false
  unverified : Bool := false
  /-- last measured offset, ns -/
  offset : Rat := 0
  /-- offsets recorded during qualification with their ticks, oldest first -/
  recorded : List (Nat × Rat) := []
  /-- device counter at the end of qualification -/
  qualEnd : Option Nat := none
  /-- the partner has been LOCKED throughout the qualification -/
  partnerHeld : Bool := false
  /-- filtered mean path delay, picoseconds -/
  pathPs : Option Nat := none
  /-- samples of view - partner (ns, 32 fraction bits) while both LOCKED, newest first, with their tick -/
  drefs : List (Nat × Int) := []
  /-- a pending TIME.STEP_VIEW: tick and value in ns -/
  step : Option (Nat × Nat) := none
  /-- the seconds a PPS_IN view takes at its next PPS_IN edge (R124) -/
  ppsSeconds : Option Nat := none
  /-- device counter of the last TIME.FEED_OFFSET (Table 5.2) -/
  fedAt : Option Nat := none
  /-- the source was lost and has brought no measurement since (R122) -/
  lost : Bool := false
  deriving DecidableEq, Repr

/-- TV_SEL (R118, R130). The bias runs from `biasNs` (32 fraction bits) at `biasDc` towards 0. -/
structure TvSel where
  view : Nat := 7
  biasNs : Int := 0
  biasDc : Nat := 0
  epoch : Nat := 0
  slewing : Bool := false
  /-- ns per second of the bias slew in force -/
  slewRate : Nat := 1000
  /-- device counter since when the primary has been LOCKED without ASYMMETRY_SUSPECT -/
  healthySince : Option Nat := none
  /-- a W2 kept the selection, which stands until a commit of TIME.SET_SELECT (R115) -/
  kept : Bool := false
  deriving DecidableEq, Repr

/-- What TV_SEL was before a change: the map of the view it selected and its own state, up to a tick (R118). -/
structure TvPast where
  before : Nat
  view : View
  sel : TvSel
  deriving DecidableEq, Repr

/-- A master data set heard on a SLAVE_ONLY port (IEEE 1588 Announce). -/
structure PtpMaster where
  priority1 : Nat
  clockClass : Nat
  accuracy : Nat
  variance : Nat
  priority2 : Nat
  grandmaster : Nat
  stepsRemoved : Nat
  portId : Nat
  heardAt : Nat
  deriving DecidableEq, Repr

/-- One PTP port's engine state (R125 to R127). -/
structure PtpPort where
  masters : List PtpMaster := []
  lastAnnounce : Option Nat := none
  lastSync : Option Nat := none
  /-- a two-step Sync awaiting its Follow_Up: sequence, receive time (tick, sub-tick), correction (2^-16 ns) -/
  sync : Option (Nat × Nat × Nat × Int) := none
  /-- the last Sync's t1 (master time, ns) and the tick and sub-tick of t2 -/
  t12 : Option (Rat × Nat × Nat) := none
  /-- its Announce timeout has been counted since the last Announce -/
  timedOut : Bool := false
  /-- an outstanding Delay_Req or Pdelay_Req: sequence and departure tick and sub-tick -/
  delayReq : Option (Nat × Nat × Nat) := none
  /-- a two-step Pdelay_Resp awaiting its follow-up: sequence, t4 tick and sub-tick, t2 in ns, correction -/
  pdelay : Option (Nat × Nat × Nat × Rat × Int) := none
  nextSeq : Nat := 0
  announceSeq : Nat := 0
  lastTx : Nat := 0
  deriving DecidableEq, Repr

/-- One entry of a transmit timestamp queue (Table 5.7). -/
structure TxqEntry where
  sequenceId : Nat
  messageType : Nat
  domain : Nat
  subTick : Nat
  view : Nat
  deviceCount : Nat
  tvNs : Nat
  epoch : Nat
  deriving DecidableEq, Repr

/-- A transmit timestamp queue. -/
structure Txq where
  entries : List TxqEntry := []
  overflow : Bool := false
  drops : Nat := 0
  /-- ENTRY1 to ENTRY6 as latched: words 0x0C to 0x20 -/
  latched : List Nat := []
  deriving DecidableEq, Repr

/-- The time part of the state. -/
structure TimeSt where
  /-- device counter, ticks of 1.6 ns -/
  dc : Nat := 0
  views : Tab View := []
  sel : TvSel := {}
  /-- TV_SEL before its changes, newest first -/
  past : List TvPast := []
  ptp : Tab PtpPort := []
  txq : Tab Txq := []
  /-- last accepted PPS_IN edge -/
  ppsLast : Option Nat := none
  /-- CLK10_IN relative to REFCLK_SYS, ppb -/
  clk10Ppb : Int := 0
  /-- last second number PPS_OUT emitted -/
  ppsOutSecond : Option Nat := none
  /-- tick of the last PPS_OUT pulse -/
  ppsOutAt : Option Nat := none
  deriving DecidableEq, Repr

end Sys2Proof.Machine
end

