-- ==== Sys2Proof/Machine/Parts/Trel.lean ====
section
/-! DEFINITION. The trellis part of the state: identity, the ring, time mapping of links, the shared position, the two-phase commit
and the digest sweep (chapter 14). All plain data. -/

namespace Sys2Proof.Machine

/-- The identity that TREL.SET_IDENTITY sets (Table 14.12). -/
structure Identity where
  trellis : Nat
  device : Nat
  ringSize : Nat
  openChain : Bool
  roleKey : Nat
  eastAsym : Int
  westAsym : Int
  spurAsym : Int
  auxEast : Nat
  auxWest : Nat
  holdoverUs : Nat
  deriving DecidableEq, Repr

/-- One exchange of TIME flits (R367), in ticks: own time of receipt, one-way delay and partner counter minus own. -/
structure Exchange where
  at' : Rat
  d : Rat
  theta : Rat
  deriving DecidableEq, Repr

/-- The time mapping of one Graft group (R367). -/
structure Link where
  txSeq : Nat := 0
  /-- own TIME flits as seq, tick and sub-tick, newest first -/
  sent : List (Nat × Nat × Nat) := []
  /-- partner's last TIME flit: seq, tick and sub-tick of its arrival -/
  heard : Option (Nat × Nat × Nat) := none
  /-- newest first, at most 64 -/
  exchanges : List Exchange := []
  /-- consecutive exchanges outside ±100 ps of the mean -/
  outside : Nat := 0
  locked : Bool := false
  /-- device_id of the neighbour as its TIME flits name it; trellis of a spur as its HELLO names it -/
  partner : Option Nat := none
  trellis : Option Nat := none
  /-- a manager's spur: it is the third of its trellis and not used; the role_epoch that its device has claimed over it (R377) -/
  refused : Bool := false
  claim : Option Nat := none
  /-- tick of the last flit of any kind -/
  lastHeard : Option Nat := none
  deriving DecidableEq, Repr

/-- A position sample (Table 14.4), its tick in this device's own counter. -/
structure Sample where
  epoch : Nat
  seq : Nat
  at' : Rat
  hops : Nat
  flags : Nat
  position : Int
  speed : Int
  lag : Nat
  deriving DecidableEq, Repr

/-- What a device knows of a member: its HELLO, its DIGEST answer, and when and where it was last heard. -/
structure Member where
  lost : Bool := false
  strap : Nat := 0
  roleEpoch : Nat := 0
  roleKey : Nat := 0xFFFF
  ringSize : Nat := 0
  /-- measured hop delays of its east and west links, ps -/
  delayEast : Nat := 0
  delayWest : Nat := 0
  /-- tick of its last message over the east and the west port -/
  heardEast : Option Nat := none
  heardWest : Option Nat := none
  /-- tick of its last accepted HELLO over the east and the west port -/
  helloEast : Option Nat := none
  helloWest : Option Nat := none
  /-- tick of its last HELLO that told of another device under its device_id: it is refused -/
  clashAt : Option Nat := none
  /-- on a manager: the largest hop delay of the ring behind the spur, ps -/
  ringHop : Nat := 0
  generation : Nat := 0
  commitState : Nat := 0
  digest : Bytes := []
  /-- sweeps without an answer, whether it agrees, and whether DIGEST_MISMATCH stands raised -/
  silent : Nat := 0
  agrees : Bool := true
  /-- its last trellis commit was missed (R383) -/
  diverged : Bool := false
  mismatch : Bool := false
  deriving DecidableEq, Repr

/-- A member's answer to PREPARE (Table 14.7). -/
structure Prepared where
  status : Nat
  command : Nat
  reason : Nat
  object : Nat
  stageUs : Nat
  deriving DecidableEq, Repr

/-- A trellis commit that this device coordinates (R381). Members are devices of the ring, and on a manager trellis × 16 + device. -/
structure TwoPhase where
  id : Nat
  ticket : Option Nat
  estate : Bool
  boundary : Nat
  position : Int
  /-- the one device of TREL.RESYNC -/
  only : Option Nat
  startedAt : Nat
  members : List Nat
  answers : Tab Prepared
  pc : Option Int
  /-- tick of the last COMMIT -/
  repeatAt : Nat
  armed : List Nat
  applied : List Nat
  missed : List Nat
  /-- whether the first station has reached P_c, and the tick at which the last one's position passed it -/
  reached : Bool
  passedAt : Option Nat
  deriving DecidableEq, Repr

/-- The open window of station_slip_ppm (R78, R380): own channel's position and the trellis's where it began, and whether each then went
backward. -/
structure StationWin where
  own : Int
  pos : Int
  ownBack : Bool
  trelBack : Bool
  deriving DecidableEq, Repr

/-- A PREPARE that this device holds as a member (R381, R384). -/
structure Prep where
  id : Nat
  /-- who sent it: device_id, 0xFF for a manager -/
  src : Nat
  since : Nat
  stageUs : Nat
  ok : Bool
  /-- its shadow copies are prepared (R45) -/
  prepared : Bool := false
  deriving DecidableEq, Repr

/-- One entry of a digest sweep (TREL.GET_DIGESTS). -/
structure SweepEntry where
  member : Nat
  roleKey : Nat
  commitState : Nat
  agrees : Bool
  generation : Nat
  digest : Bytes
  deriving DecidableEq, Repr

/-- The trellis part of the state. -/
structure TrelSt where
  identity : Option Identity := none
  /-- Table 14.2: 0 ALONE to 5 MANAGER -/
  st : Nat := 0
  master : Nat := 0
  epoch : Nat := 0
  /-- lag in force, in units of 16 ticks (25.6 ns) -/
  lag : Nat := 0
  /-- members of the formed trellis, a bit each -/
  ring : Nat := 0
  members : Tab Member := []
  /-- by group_first -/
  links : Tab Link := []
  /-- failed links, bit 0 EAST and 1 WEST -/
  broken : Nat := 0
  /-- tick of the first HELLO heard, of the last sent, and of JOINING -/
  firstHello : Option Nat := none
  helloAt : Option Nat := none
  joinedAt : Nat := 0
  /-- this device is refused for its device_id, and the tick of the last HELLO that said so -/
  conflict : Bool := false
  conflictAt : Nat := 0
  /-- samples of the newest role_epoch, newest first, and the tick at which the newest came -/
  samples : List Sample := []
  sampleSeq : Nat := 0
  sampleAt : Option Nat := none
  /-- POS_STALE, and the sample tick of the newest sample when it set: it clears when a newer one applies (Table 14.8) -/
  posStale : Bool := false
  staleFrom : Rat := 0
  /-- tick of the last flit that the master originated -/
  masterHeardAt : Option Nat := none
  detached : Bool := false
  /-- frozen position of an ISOLATED device -/
  frozen : Option Int := none
  /-- difference still to be absorbed (R369), nm, and travel since the last nm absorbed -/
  absorb : Int := 0
  absorbTravel : Nat := 0
  /-- tick and number of the newest estate sample that a trellis master has had -/
  estateAt : Option Nat := none
  estateSeq : Option Nat := none
  attached : Bool := false
  /-- difference that the master still has to absorb into what it sends on after TREL.REATTACH (R380), nm, and travel since the last nm -/
  estateAbsorb : Int := 0
  estateTravel : Nat := 0
  reattach : Bool := false
  /-- station_slip_ppm and its open window -/
  stationSlip : Int := 0
  slipFrom : Option StationWin := none
  diverged : Bool := false
  /-- last trellis commit: id, phase (Table 14.13) and P_c -/
  commitId : Nat := 0
  phase : Nat := 0
  commitPc : Int := 0
  /-- a trellis commit that CFG.CANCEL disarmed here: its id and P_c -/
  cancelled : Option (Nat × Int) := none
  prep : Option Prep := none
  /-- scope of that commit: 0 TRELLIS, 1 ESTATE; and the next commit_id of this device as a coordinator -/
  scope : Nat := 0
  nextCommit : Nat := 1
  coord : Option TwoPhase := none
  /-- digests expected of a role_key -/
  expected : Tab (List Bytes) := []
  sweep : Nat := 0
  sweepAt : Option Nat := none
  answered : List Nat := []
  lastSweep : List SweepEntry := []
  deriving DecidableEq, Repr

end Sys2Proof.Machine
end

