-- ==== Sys2Proof/Machine/Parts/Trig.lean ====
section
/-! DEFINITION. The trigger part of the state: compare units, TRG outputs, GigE Vision actions, marks and ACT outputs
(chapter 4). All plain data. -/

namespace Sys2Proof.Machine

/-- A trigger record (Table 4.2). -/
structure TrigRec where
  deviceCount : Nat
  position : Int
  value : Int
  sequence : Nat
  unit : Nat
  source : Nat
  flags : Nat
  crossed : Nat
  deriving DecidableEq, Repr

/-- A scheduled action command that has been sent (R102 to R104). -/
structure GevOut where
  value : Int
  tick : Nat
  degraded : Bool
  achieved : Option Int
  /-- sequence of the record that carries the value, once it is written -/
  record : Option Nat
  deriving DecidableEq, Repr

/-- A compare unit's state. -/
structure TrigUnit where
  /-- the mark H up to which the unit has evaluated its values -/
  h : Int := 0
  /-- armed values, ascending, at most 16 -/
  queue : List Int := []
  /-- the next trigger's sequence -/
  sequence : Nat := 0
  /-- trigger records, newest first: the log shows 256 of them, ingest pairs with 4,096 -/
  records : List TrigRec := []
  /-- a FIRE_LATE value due in the next tick -/
  late : Option Int := none
  gev : List GevOut := []
  deriving DecidableEq, Repr

/-- A TRG output: its level and the pulses scheduled on it, as start and end in picoseconds of the device counter. -/
structure TrgOut where
  level : Bool := false
  scheduled : List (Nat × Nat) := []
  /-- end of the pulse in progress -/
  endPs : Option Nat := none
  deriving DecidableEq, Repr

/-- A mark (R106 to R109). -/
structure Mark where
  act : Nat
  /-- LENGTH mode -/
  length : Bool
  assertAt : Int
  deassertAt : Int
  region : Nat
  /-- the scheduling rule let it fire late -/
  late : Bool
  /-- asserted: tick of assertion, and the width and ACTIVE_LOW in force then -/
  asserted : Option (Nat × Nat × Bool)
  deriving DecidableEq, Repr

/-- The trigger part of the state. -/
structure TrigSt where
  /-- high-water mark H (R88) -/
  high : Int := 0
  units : Tab TrigUnit := []
  trgs : Tab TrgOut := []
  /-- pending and asserted marks in scheduling order, at most 4,096 -/
  marks : List Mark := []
  /-- ACT pins at their active level -/
  acts : Tab Bool := []
  deriving DecidableEq, Repr

end Sys2Proof.Machine
end

