-- ==== Sys2Proof/Machine/State.lean ====
section
/-! DEFINITION. The state of the device, the reasons a step can stop, and the state after reset. -/

namespace Sys2Proof.Machine

/-- Why a step stops with a fault. No command of this block does: the spec gives every row of its table an effect, so
the type has no constructor. -/
inductive Fault where
  deriving DecidableEq, Repr

/-- Why a step refuses a command. -/
inductive Refusal where
  /-- Raised by an arm of `exec` whose command has no meaning yet. Safe: nothing is claimed of such a command. -/
  | notModelled (mnemonic : String)
  deriving DecidableEq, Repr

/-- The whole device, and the queue of commands that wait, first in first out. -/
structure State where
  pending : List Instr := []
  /-- what the device has put out, newest first -/
  outbox : List Out := []
  /-- levels that the output pins have, low where unlisted; numbered as `Out.pulse` numbers them -/
  pins : Tab Bool := []
  /-- the model's own: advanced each time a free value is drawn -/
  draws : Nat := 0
  win : Win := {}
  mbx : Mbx := {}
  cfg : Cfg := {}
  stat : Stat := {}
  ev : Ev := {}
  /-- units handed to delivery and not yet placed, oldest first -/
  handoff : List DUnit := []
  time : TimeSt := {}
  pos : PosSt := {}
  start : StartSt := {}
  trig : TrigSt := {}
  lane : LaneSt := {}
  cam : CamSt := {}
  ing : IngSt := {}
  fab : FabSt := {}
  fault : FaultSt := {}
  trel : TrelSt := {}
  cal : CalSt := {}
  deliv : DelivSt := {}
  deriving DecidableEq, Repr

/-- The machine right after reset. -/
def State.reset : State := {}

end Sys2Proof.Machine
end

