-- ==== Sys2Proof/Machine/Ops.lean ====
section
/-! DEFINITION. The named operations every chapter shares: time, counters, configuration images, interrupts, events
and the fault summary. -/

namespace Sys2Proof.Machine

/-! Time (R6, R112) -/

/-- Device-counter ticks of 1.6 ns in a number of microseconds. -/
def usTicks (us : Nat) : Nat := 625 * us
/-- Ticks in a number of milliseconds. -/
def msTicks (ms : Nat) : Nat := 625000 * ms
/-- Ticks in a number of seconds. -/
def secTicks (n : Nat) : Nat := 625000000 * n

/-- The device counter. -/
def dcNow (s : State) : Nat := s.time.dc

/-- Ticks from an earlier device-counter value to a later one; the counter wraps at 2^64 (R112). -/
def ticksFrom (t0 t1 : Nat) : Nat := (t1 + 2 ^ 64 - t0 % 2 ^ 64) % 2 ^ 64

/-- Ticks since a device-counter value. -/
def since (s : State) (t : Nat) : Nat := ticksFrom t (dcNow s)

/-- Whether a device-counter value lies in the past or is now (half the counter's range decides). -/
def reached (s : State) (t : Nat) : Bool := decide (ticksFrom t (dcNow s) < 2 ^ 63)

/-- A device-counter value some ticks ahead. -/
def ahead (s : State) (n : Nat) : Nat := (dcNow s + n) % 2 ^ 64

/-! Outputs -/

/-- Put something out. -/
def emit (o : Out) (s : State) : State := { s with outbox := o :: s.outbox }

/-- Drive an output pin to a level, at a device time in ps. -/
def drivePin (pin : Nat) (level : Bool) (ps : Nat) (s : State) : State :=
  if tget false s.pins pin == level then s else emit (.pulse pin level ps) { s with pins := tset false s.pins pin level }

/-- Picoseconds of the device counter now. (DESIGN CHOICE, log entry 47) -/
def psNow (s : State) : Nat := dcNow s * 1600

/-- Drive the A and B pins of a quadrature output, from `pin` on, to a phase: forward is A leading B (R81, R82). -/
def driveQuad (pin phase ps : Nat) (s : State) : State :=
  drivePin (pin + 1) (phase == 2 || phase == 3) ps (drivePin pin (phase == 1 || phase == 2) ps s)

/-! Counters (R57, R58) -/

/-- The top value of a live counter. -/
def counterTop : Nat := 2 ^ 48 - 1

/-- Add to the live counter of index `i` of family `f`; it saturates at 2^48 - 1. -/
def bumpBy (f i n : Nat) (s : State) : State :=
  { s with stat := { s.stat with live := tmod 0 s.stat.live (f * 4096 + i) (fun v => satAdd counterTop v n) } }

/-- Add one to a live counter. -/
def bump (f i : Nat) (s : State) : State := bumpBy f i 1 s

/-- A port counter (Table 7.12). -/
def portCount (port k : Nat) (s : State) : State := bump 3 (768 + port * 8 + k) s

/-- A frame that the device transmits on a port, counted there (R202). -/
def sendFrame (port : Nat) (o : Out) (s : State) : State := portCount port 6 (emit o s)

/-- A live counter's value. -/
def liveCounter (s : State) (f i : Nat) : Nat := tget 0 s.stat.live (f * 4096 + i)

/-! Configuration images (R42, R46, R52, R53) -/

/-- The key of a setting: command code and object. -/
def settingKey (code obj : Nat) : Nat := code * 2 ^ 32 + obj

/-- Every setting of one image laid over another. -/
def overlay (base : Image) : Image → Image
  | [] => base
  | (k, v) :: t => overlay (tput base k v) t

/-- The configuration an armed or applying commit gives: the active one with the staged settings laid over it. -/
def nextImage (s : State) : Image := overlay s.cfg.active s.cfg.staged

/-- Whether a commit is APPLYING. -/
def applying (s : State) : Bool := match s.cfg.commit with
  | some c => c.applying
  | none => false

/-- The configuration that parts which act on position follow: the new one from P_c on (R46). -/
def posImage (s : State) : Image := if applying s then nextImage s else s.cfg.active

/-- The configuration a bed follows: the new one once it has emitted its first row at or after P_c (R46). -/
def bedImage (s : State) (bed : Nat) : Image := match s.cfg.commit with
  | some c => if c.applying && !(c.bedsLeft.contains bed) then nextImage s else s.cfg.active
  | none => s.cfg.active

/-- The generation that rows of a bed carry. -/
def bedGeneration (s : State) (bed : Nat) : Nat := match s.cfg.commit with
  | some c => if c.applying && !(c.bedsLeft.contains bed) then c.newGen else s.cfg.generation
  | none => s.cfg.generation

/-- A setting of an image, with the payload its reset value spells. -/
def settingIn (img : Image) (code obj : Nat) (reset : Bytes) : Bytes := tget reset img (settingKey code obj)

/-- Whether a command code is a load, recorded by the digest of what it loaded (R53). -/
def isLoad (code : Nat) : Bool := code == 0x0804 || code == 0x0900

/-- The value of a canonical record: the request payload, or the SHA-256 of a load's bytes (R53). -/
def recordValue (code : Nat) (v : Bytes) : Bytes := if isLoad code then sha256 v else v

/-- One canonical record (Table 2.17). -/
def canonRecord (k : Nat) (v : Bytes) : Bytes :=
  let code := k / 2 ^ 32
  let w := recordValue code v
  leBytes 2 code ++ zeros 2 ++ leBytes 4 (k % 2 ^ 32) ++ leBytes 4 w.length ++ zeros 4 ++ padTo 8 w

/-- The canonical image of a configuration whose entries all differ from their reset values (Table 2.16). -/
def canonImage (features : Nat) (img : Image) : Bytes :=
  let body := img.flatMap (fun e => canonRecord e.1 e.2)
  [0x4B, 0x50, 0x5A, 0x43] ++ leBytes 2 1 ++ zeros 2 ++ leBytes 4 img.length ++ zeros 4
    ++ leBytes 8 (64 + body.length) ++ leBytes 32 features ++ zeros 8 ++ body

/-- short_digest of a configuration (R54). -/
def shortDigestOf (s : State) (img : Image) : Nat := leNat ((sha256 (canonImage s.mbx.accepted img)).take 4)

/-- Whether a feature bit of Table 2.8 is accepted. -/
def feature (s : State) (bit : Nat) : Bool := s.mbx.locked && bitOf s.mbx.accepted bit

/-! Time views (R114, R118, R130) -/

/-- A view's state. -/
def view (s : State) (v : Nat) : View := tget {} s.time.views v

/-- Set a view. TV7 is never set (R117). -/
def setView (v : Nat) (x : View) (s : State) : State :=
  if v = 7 then s else { s with time := { s.time with views := tset {} s.time.views v x } }

/-- The travel of a view over some ticks at a rate, ns with 32 fraction bits, rounded down. -/
def viewTravel (ticks : Int) (rate : Int) : Int := ticks * (8 * 2 ^ 32) * (2 ^ 40 + rate) / (5 * 2 ^ 40)

/-- dc - base_dc of R114: negative for a tick before the base; a tick 2^63 or more below it lies after the counter's wrap.
(DESIGN CHOICE, log entry 89) -/
def travelTicks (base dc : Nat) : Int :=
  if base ≤ dc then (dc : Int) - base
  else if base - dc < 2 ^ 63 then -((base : Int) - dc) else (dc : Int) + 2 ^ 64 - base

/-- A view's value at a device-counter value, ns with 32 fraction bits (R114): on `rate` until phase_ppb ends, on the
held rate after that (R121). -/
def viewAt (w : View) (dc : Nat) : Int :=
  let n := travelTicks w.baseDc dc
  match w.phaseUntil with
  | none => w.baseNs + viewTravel n w.rate
  | some u =>
    let k := travelTicks w.baseDc u
    if n ≤ k then w.baseNs + viewTravel n w.rate
    else w.baseNs + viewTravel k w.rate + viewTravel (n - k) w.heldRate

/-- The rate a view runs on at a tick. -/
def rateAt (w : View) (dc : Nat) : Int := match w.phaseUntil with
  | some u => if travelTicks w.baseDc dc ≤ travelTicks w.baseDc u then w.rate else w.heldRate
  | none => w.rate

/-- The present value of a view. -/
def viewNow (s : State) (v : Nat) : Int := viewAt (view s v) (dcNow s)

/-- The selection bias at a tick: it moves towards 0 at the slew rate (R130). -/
def biasAt (t : TvSel) (dc : Nat) : Int :=
  let moved : Int := ((t.slewRate * (travelTicks t.biasDc dc).toNat * 16 * 2 ^ 32 / 10 ^ 10 : Nat) : Int)
  if 0 ≤ t.biasNs then (if t.biasNs ≤ moved then 0 else t.biasNs - moved)
  else (if -t.biasNs ≤ moved then 0 else t.biasNs + moved)

/-- The selected view's map and the selection that held at a tick (R118). -/
def tvSelThen (s : State) (dc : Nat) : View × TvSel :=
  match s.time.past.reverse.find? (fun e => decide (0 < ticksFrom dc e.before) && decide (ticksFrom dc e.before < 2 ^ 63)) with
  | some e => (e.view, e.sel)
  | none => (view s s.time.sel.view, s.time.sel)

/-- TV_SEL at a tick, ns with 32 fraction bits (R118). -/
def tvSelAt (s : State) (dc : Nat) : Int := viewAt (tvSelThen s dc).1 dc + biasAt (tvSelThen s dc).2 dc

/-- The selection epoch at a tick (R118). -/
def tvEpochAt (s : State) (dc : Nat) : Nat := (tvSelThen s dc).2.epoch

/-- TV_SEL now in whole ns since the PTP epoch. -/
def tvSelNs (s : State) : Nat := (tvSelAt s (dcNow s) / 2 ^ 32).toNat

/-- The spindle speed: that of the active channel (R80); on a trellis member what the samples say, and 0 while isolated (R369). -/
def spinSpeed (s : State) : Int :=
  if s.trel.st = 2 then s.pos.sp.speed else if s.trel.st = 4 then 0
  else match s.pos.sp.active with
    | some ch => (tget {} s.pos.chans ch).speed
    | none => 0

/-! Interrupts (R336, R468) -/

/-- The registers of a function. -/
def fnRegs (s : State) (f : Fn) : FnRegs := tget {} s.win.fns f

/-- Set the registers of a function. -/
def setFnRegs (f : Fn) (r : FnRegs) (s : State) : State := { s with win := { s.win with fns := tset {} s.win.fns f r } }

/-- Send an MSI-X message, or set the vector's PBA bit while it is masked (R336). -/
def sendMsix (f : Fn) (vec : Nat) (s : State) : State :=
  let e := tget {} s.win.msix (f * 1024 + vec)
  if e.masked then { s with win := { s.win with pba := tset false s.win.pba (f * 1024 + vec) true } }
  else bump 11 (2048 + fnPort f * 16 + 4) (emit (.msix (fnPort f) e.addrLo e.addrHi e.data) s)

/-- The vector of a cause bit: 0 mailbox, 1 tickets, 2 faults and starts (R468). -/
def causeVector (bit : Nat) : Nat := if bit = 0 then 0 else if bit = 1 then 1 else 2

/-- Set a cause bit of a function; going from 0 to 1 while enabled raises its vector (R468). -/
def raiseCause (bit : Nat) (f : Fn) (s : State) : State :=
  let r := fnRegs s f
  if bitOf r.cause bit then s else
    let s1 := setFnRegs f { r with cause := r.cause + 2 ^ bit } s
    if bitOf r.enable bit then sendMsix f (causeVector bit) s1 else s1

/-- Set a cause bit in both PFs. -/
def raisePfCause (bit : Nat) (s : State) : State := raiseCause bit 64 (raiseCause bit 0 s)

/-! Free values and rounding -/

/-- A quotient as an integer where the spec gives no rounding: a whole quotient is itself, any other is one of its two
neighbours, and which one is free (`Config.roundsUp`). (DESIGN CHOICE, log entry 13) -/
def freeRound (q : Rat) : Int := if q.den = 1 then q.num else q.floor + (b2n (Config.roundsUp q) : Nat)

/-- `n / d` as an integer, its rounding free; 0 for a divisor of 0. (DESIGN CHOICE, log entry 13) -/
def freeDiv (n d : Int) : Int := if d = 0 then 0 else if n % d = 0 then n / d else freeRound ((n : Rat) / (d : Rat))

/-- `n / d` rounded half away from zero. -/
def roundAway (n d : Int) : Int :=
  if d = 0 then 0 else
    let neg := decide (n < 0) != decide (d < 0)
    let q := (2 * n.natAbs + d.natAbs) / (2 * d.natAbs)
    if neg then -(q : Int) else (q : Int)

/-- Advance the counter that free values are drawn by. -/
def draw (s : State) : State := { s with draws := s.draws + 1 }

end Sys2Proof.Machine
end

