-- ==== Sys2Proof/Machine/Events.lean ====
section
/-! DEFINITION. Raising events (R426 to R428), the fault status word and its vector (R429), and the end of every
meaning. -/

namespace Sys2Proof.Machine

/-- device_id of a tag (Table 12.5): the position in the trellis, 0 outside one. -/
def tagDevice (s : State) : Nat := match s.trel.identity with
  | some i => if decide (2 ≤ s.trel.st) && decide (s.trel.st ≤ 4) then i.device else 0
  | none => 0
/-- trellis_id of a tag: 0 outside an estate, of which a trellis is part once estate samples have reached its master. -/
def tagTrellis (s : State) : Nat := match s.trel.identity with
  | some i => if decide (2 ≤ s.trel.st) && decide (s.trel.st ≤ 4) && (s.trel.attached || s.trel.detached) then i.trellis else 0
  | none => 0

/-- Event codes' class: the EVENTS select bit (Table 17.4). (DEDUCED, log entry 76) -/
def eventClass (code : Nat) : Nat := code / 256

/-- The 32-byte event header (Table 17.4). -/
def eventHeader (e : EventRec) : Bytes :=
  leBytes 2 e.code ++ leBytes 1 (eventClass e.code) ++ leBytes 1 e.severity ++ leBytes 4 e.sequence
    ++ leBytes 4 e.object ++ leBytes 2 e.body.length ++ leBytes 1 e.eflags ++ leBytes 1 0
    ++ leInt 8 e.arg0 ++ leInt 8 e.arg1

/-- A log entry: the header and the first 32 body bytes (R428). -/
def eventLogEntry (e : EventRec) : Bytes := eventHeader e ++ fitTo 32 e.body

/-- The unit that carries an event (tag_type 6, R325, Table 12.7): both positions are the spindle position. -/
def eventUnit (e : EventRec) (kind select : Nat) (s : State) : DUnit where
  src := ⟨kind, 0, 0, select⟩
  tagType := 6
  flags := 0
  head := 0xFFFF
  stream := 0xFFFF
  generation := s.cfg.generation
  startPos := s.pos.sp.pos
  endPos := s.pos.sp.pos
  deviceCount := dcNow s
  tvSelNs := tvSelNs s
  tvEpoch := s.time.sel.epoch
  paramSet := 0
  shortDigest := shortDigestOf s s.cfg.active
  deviceId := tagDevice s
  trellisId := tagTrellis s
  payload := [.raw (padTo 8 (eventHeader e ++ e.body))]

/-- Hand a unit to delivery. -/
def handUnit (u : DUnit) (s : State) : State := { s with handoff := s.handoff ++ [u] }

/-- The event limit per code and second (R428). -/
def eventLimit : Nat := 1000
/-- The events the log keeps (R428). -/
def eventLogSize : Nat := 65536

/-- The sequence after the last one: from 1, wrapping from 0xFFFF_FFFF to 1. -/
def nextEventSeq (n : Nat) : Nat := if n = 2 ^ 32 - 1 then 1 else n + 1

/-- Deliver and log an event. PTP_FRAME is never logged and goes to PTP_RX routes alone (R426, R428). (DEDUCED, log entry 35) -/
def logEvent (e : EventRec) (ptpPort : Option Nat) (s : State) : State :=
  let s1 := { s with ev := { s.ev with
    seq := e.sequence
    log := if ptpPort.isSome then s.ev.log else (e :: s.ev.log).take eventLogSize
    lastFault := if 3 ≤ e.severity then some e else s.ev.lastFault } }
  let s2 := handUnit (match ptpPort with
    | some p => eventUnit e 8 p s1
    | none => eventUnit e 7 (eventClass e.code) s1) (bump 14 4 s1)
  if 3 ≤ e.severity then raisePfCause 2 s2 else s2

/-- Raise an event: at most 1,000 of a code in a second are delivered, the excess is counted (R428). (DEDUCED, log entry 35) -/
def raiseWith (code severity object : Nat) (arg0 arg1 : Int) (body : Bytes) (ptpPort : Option Nat) (s : State) :
    State :=
  let n := tget 0 s.ev.second code
  let s1 := { s with ev := { s.ev with second := tset 0 s.ev.second code (n + 1) } }
  if eventLimit ≤ n then bump 14 5 s1
  else logEvent ⟨code, severity, nextEventSeq s.ev.seq, object, arg0, arg1, b2n s.ev.injecting, body⟩ ptpPort s1

/-- Raise an event without a body. -/
def raise (code severity object : Nat) (arg0 arg1 : Int) (s : State) : State :=
  raiseWith code severity object arg0 arg1 [] none s

/-! The fault status word (Table 17.6, offset 0x00) -/

/-- NO_MOTION: no source selected, or the active channel STALE (Table 3.5); on a member what the master's samples say, and set while
isolated (R369, Table 14.4). -/
def noMotion (s : State) : Bool :=
  if s.trel.st = 4 then true
  else if s.trel.st = 2 then (match s.trel.samples with | k :: _ => bitOf k.flags 1 | [] => true)
  else match s.pos.sp.active with
    | none => true
    | some c => (tget {} s.pos.chans c).stale

/-- Channels of a stack: 16. A stack that is failed whole shows every channel failed. -/
def markedChannels (s : State) (stack : Nat) : Nat :=
  if bitOf s.fault.failedStacks stack then 0xFFFF else tget 0 s.fault.marked stack

/-- STACK_FAILED: the stacks with a marked channel. -/
def stacksMarked (s : State) : Nat := sumBy (fun k => 2 ^ k * b2n (markedChannels s k != 0)) (List.range 4)

/-- Tiles whose spare runs a slot or is retired; engines are tile × 17 + 16 for the spares. -/
def tilesWithoutSpare (s : State) : List Nat :=
  (List.range 32).filter (fun t => s.fab.fab.retired.contains (t * 17 + 16) || (tfind s.fab.fab.spareAt t).isSome)

/-- The Graft groups with exactly one active lane, by group_first. (DESIGN CHOICE, log entry 49) -/
def lastLaneGroups (s : State) : List Nat := (s.lane.grafts.filter (fun e => (setBits 8 e.2.txMap).length == 1)).map (·.1)

/-- COVERAGE_REDUCED (Table 17.6). -/
def coverageReduced (s : State) : Bool :=
  stacksMarked s != 0 || !(tilesWithoutSpare s).isEmpty || !(lastLaneGroups s).isEmpty || s.deliv.furrows.any (fun e => e.2.alone)

/-- FAULT_STATUS [15:0]. -/
def faultStatus (s : State) : Nat :=
  b2n s.start.w1Running + 2 * b2n s.start.safe + 4 * b2n s.fault.warn + 8 * b2n s.fault.throttle + 16 * b2n s.fault.stop
    + 32 * b2n s.fab.sprint.on + 64 * b2n (feature s 6) + 128 * b2n (coverageReduced s) + 256 * stacksMarked s
    + 4096 * b2n s.trel.diverged + 0x2000 * b2n (noMotion s)
    + 0x4000 * b2n (s.pos.sp.altActive || s.trel.posStale || s.trel.detached) + 0x8000 * b2n (s.fab.graphs.any (fun e => e.2.stopped))

/-- Compare the status word with the one last seen: a bit that became 1 sets its sticky bit, and any change raises
the PFs' fault vector (R429). -/
def syncFault (s : State) : State :=
  let now := faultStatus s
  if now = s.ev.status then s
  else raisePfCause 2 { s with ev := { s.ev with status := now, sticky := s.ev.sticky ||| (now &&& (now ^^^ s.ev.status)) } }

/-- The end of every meaning: the fault status follows the state, and the device goes on. -/
def done (s : State) : Host.Outcome State Fault Refusal := .next (syncFault s)

end Sys2Proof.Machine
end

