-- ==== Sys2Proof/Machine/Mailbox.lean ====
section
/-! DEFINITION. The mailbox as every command shares it: taking a request at GO, the checks of R35 in their order, the
pointer block (R28, R29), tickets (R30, R31) and the completion of a response (R25). -/

namespace Sys2Proof.Machine

/-! Status codes (Table 2.6) -/

def stOk : Nat := 0x0000
def stInProgress : Nat := 0x0001
def stBadCmd : Nat := 0x0002
def stBadArg : Nat := 0x0003
def stNotNegotiated : Nat := 0x0004
def stBusy : Nat := 0x0005
def stNoResource : Nat := 0x0006
def stBadState : Nat := 0x0007
def stDenied : Nat := 0x0008
def stFault : Nat := 0x0009
def stTimeout : Nat := 0x000A
def stBehind : Nat := 0x000B

/-! Slots -/

/-- The slot numbers a function has: 64 for a PF, one for a VF (R22). -/
def slotCount (f : Fn) : Nat := if fnIsPf f then 64 else 1

/-- The slot's own registers. -/
def slotOf (s : State) (f : Fn) (n : Nat) : Slot := tget {} s.win.slots (f * 64 + n)

/-- Set them. -/
def setSlot (f : Fn) (n : Nat) (x : Slot) (s : State) : State :=
  { s with win := { s.win with slots := tset {} s.win.slots (f * 64 + n) x } }

/-- Whether a slot reads OFFLINE: the Headstock is not answering, or the device is in the safe state and the slot is
not slot 0 of a PF (R23, R33, R403). -/
def slotOffline (s : State) (f : Fn) (n : Nat) : Bool :=
  !s.mbx.answering || (s.start.safe && !(fnIsPf f && n == 0))

/-- STATE of Table 2.2. -/
def slotState (s : State) (f : Fn) (n : Nat) : Nat := if slotOffline s f n then 3 else (slotOf s f n).st

/-- The address of a byte of a slot. -/
def slotAddr (f : Fn) (n off : Nat) : Nat := (f * 64 + n) * 8192 + off

/-- `len` bytes of a slot from `off`. -/
def slotRead (s : State) (f : Fn) (n off : Nat) : Nat → Bytes
  | 0 => []
  | k + 1 => tget 0 s.win.mem (slotAddr f n off) :: slotRead s f n (off + 1) k

/-- Write bytes into slot memory. -/
def memWrite (addr : Nat) : Bytes → Tab Byte → Tab Byte
  | [], m => m
  | b :: t, m => memWrite (addr + 1) t (tset 0 m addr b)

/-- Write bytes into a slot. (DESIGN CHOICE, log entry 15) -/
def slotWrite (f : Fn) (n off : Nat) (b : Bytes) (s : State) : State :=
  { s with win := { s.win with mem := memWrite (slotAddr f n off) b s.win.mem } }

/-- Request flag REQ_INDIRECT. -/
def reqIndirect (flags : Nat) : Bool := bitOf flags 0
/-- Request flag RESP_INDIRECT. -/
def respIndirect (flags : Nat) : Bool := bitOf flags 1
/-- Whether the request starts with a pointer block (R28). -/
def hasPointer (flags : Nat) : Bool := reqIndirect flags || respIndirect flags

/-- The request that stands in a slot's request area (Table 2.3), with the inline bytes it may use. -/
def standingRequest (s : State) (f : Fn) (n : Nat) : Req :=
  let h := slotRead s f n 0 16
  let flags := fld h 2 2
  let len := fld h 8 4
  let inl := (if hasPointer flags then 32 else 0) + (if reqIndirect flags then 0 else len)
  ⟨f, n, fld h 0 2, flags, fld h 4 4, len, fld h 12 2, fld h 14 2, slotRead s f n 16 (min 4080 inl)⟩

/-- GO: the request is taken as it stands and the slot goes BUSY; on a BUSY or OFFLINE slot OVERRUN is set and the GO
has no effect (R23, R24). -/
def slotGo (f : Fn) (n : Nat) (s : State) : State :=
  let x := slotOf s f n
  if slotOffline s f n || x.st == 1 then setSlot f n { x with overrun := true } s
  else
    let s1 := setSlot f n { x with st := 1 } s
    { s1 with mbx := { s1.mbx with inbox := s1.mbx.inbox ++ [standingRequest s f n] } }

/-! Responses -/

/-- What a command's own work gives: a status, a response payload, the ticket (0 for none) and the state after it. -/
structure Reply where
  status : Nat
  payload : Bytes
  ticket : Nat
  st : State
  deriving DecidableEq, Repr

/-- A reply without a payload. -/
def reply (status : Nat) (s : State) : Reply := ⟨status, [], 0, s⟩
/-- OK with a payload. -/
def replyOk (p : Bytes) (s : State) : Reply := ⟨stOk, p, 0, s⟩

/-- Index of a host port's counter (Table 13.22). -/
def portIndex (p k : Nat) : Nat := 2048 + p * 16 + k

/-- R25: payload, header, SEQ_LOW and DONE, MBOX_DONE, and unless QUIET the mailbox cause. -/
def putResponse (q : Req) (status : Nat) (payload : Bytes) (len ticket : Nat) (s : State) : State :=
  let hdr := leBytes 2 q.command ++ leBytes 2 status ++ leBytes 4 q.sequence ++ leBytes 4 len ++ leBytes 4 ticket
  let s1 := slotWrite q.fn q.slot 0x1000 hdr (slotWrite q.fn q.slot 0x1010 payload s)
  let s2 := setSlot q.fn q.slot { slotOf s q.fn q.slot with st := 2, seqLow := q.sequence % 65536 } s1
  let r := fnRegs s2 q.fn
  let s3 := setFnRegs q.fn { r with mboxDone := r.mboxDone ||| 2 ^ q.slot } s2
  if bitOf q.flags 2 then s3 else raiseCause 0 q.fn s3

/-- The bytes of a request payload that was read at req_addr count for the function's port (R361). -/
def countRequest (q : Req) (s : State) : State :=
  if reqIndirect q.flags && decide (q.payloadLen ≤ 67108864) then bumpBy 11 (portIndex (fnPort q.fn) 1) q.payloadLen s else s

/-- The response to a request that the Headstock has read. -/
def respond (q : Req) (status : Nat) (payload : Bytes) (len ticket : Nat) (s : State) : State :=
  putResponse q status payload len ticket (countRequest q s)

/-- A request payload that cannot be read gives FAULT with fault_code 2 (R33); the failed completion is counted (R361). -/
def readFault (q : Req) (timeout : Bool) (s : State) : State :=
  putResponse q stFault (leBytes 4 2) 4 0 (bump 11 (portIndex (fnPort q.fn) (if timeout then 5 else 6)) s)

/-- A payload goes to host memory: its bytes count for the function's port (R361). -/
def sendHost (fn : Fn) (addr : Nat) (b : Bytes) (s : State) : State :=
  emit (.hostWrite fn addr b) (bumpBy 11 (portIndex (fnPort fn) 0) b.length s)

/-- resp_addr and resp_capacity of the pointer block. -/
def respAddr (q : Req) : Nat := fld q.inline 8 8
/-- The room for a response payload: the slot, or resp_capacity (R29). -/
def respRoom (q : Req) : Nat := if respIndirect q.flags then fld q.inline 16 4 else 4080

/-- Complete a request with a reply (R25, R29, R33): a payload that does not fit gives NO_RESOURCE and the command has
had no effect; a payload for resp_addr that cannot be written gives FAULT with fault_code 2, again without effect. R33 does not say where
a fault_code goes when the request set RESP_INDIRECT: here it stands inline in the slot, for codes 1 and 2 alike.
(DESIGN CHOICE, log entry 78) -/
def complete (q : Req) (respOk : Bool) (before : State) (r : Reply) : State :=
  if respRoom q < r.payload.length then respond q stNoResource [] r.payload.length 0 before
  else if respIndirect q.flags && r.payload.length != 0 then
    if respOk then respond q r.status [] r.payload.length r.ticket (sendHost q.fn (respAddr q) r.payload r.st)
    else respond q stFault (leBytes 4 2) 4 0 before
  else respond q r.status r.payload r.payload.length r.ticket r.st

/-! The checks of R35 -/

/-- What the checks need to know of a command. -/
structure CmdSpec where
  code : Nat
  /-- the feature whose acceptance it needs besides BASE (Table 2.8) -/
  needs : Option Nat := none
  /-- a VF may issue it (Table 2.7) -/
  vf : Bool := false
  /-- the payload_len it takes; none where its own checks judge the length -/
  len : Option Nat := none
  /-- exempt from checks 3 and 4 of R35 (R403, R404) -/
  exempt : Bool := false
  /-- accepted in the safe state (R403) -/
  inSafe : Bool := false
  /-- where the payload names a furrow that the function must own (R338): the offset of its u16 -/
  furrow : Option Nat := none
  deriving DecidableEq, Repr

/-- Header, pointer block and length (check 5 of R35, R8, R28). -/
def headerBad (q : Req) (len : Option Nat) : Bool :=
  let addrQ := fld q.inline 0 8
  let addrR := fld q.inline 8 8
  let cap := fld q.inline 16 4
  decide (8 ≤ q.flags) || q.reserved != 0 || q.functionField / 64 % 4 != 0 || q.functionField / 512 != 0
    || (if reqIndirect q.flags then decide (67108864 < q.payloadLen)
        else decide ((if hasPointer q.flags then 4048 else 4080) < q.payloadLen))
    || (hasPointer q.flags && (!(zeroRange q.inline 20 12)
        || (if reqIndirect q.flags then addrQ % 8 != 0 else addrQ != 0)
        || (if respIndirect q.flags then addrR % 8 != 0 || decide (67108864 < cap) else addrR != 0 || cap != 0)))
    || (match len with | some n => q.payloadLen != n | none => false)

/-- Whether a cut list names the EXPR operator (0x00F0) in one of its operator records (Tables 10.1, 10.2). -/
def cutNamesExpr (d : Bytes) : Bool :=
  fld d 0 4 == 0x4C5A504B && (List.range (min 128 (fld d 6 2))).any (fun i => fld d (64 + 32 * i) 2 == 0x00F0)

/-- The feature that a request's fields ask for, beyond the one that its command needs: kind CONTROL of SYS.RESTART and mode CONTROL of
SYS.FW_ACTIVATE (R407), GRAFT of a lane (R145), the protocol of a head (Table 2.8), the EXPR operator (R257), a sprint mode (R273), TILES of a
graph (R327), a route of tiles or of camera buffers (R344), and a stack fault to be injected (R432). -/
def namedFeature (code : Nat) (p : Bytes) : Option Nat := match code with
  | 0x0010 => if fld p 0 1 = 0 then some 13 else none
  | 0x0013 => if fld p 0 1 = 0 then some 13 else none
  | 0x0200 => if fld p 1 1 = 10 then some 3 else none
  | 0x0301 => if fld p 1 1 = 1 then some 1 else if fld p 1 1 = 2 then some 2 else none
  | 0x0900 => if cutNamesExpr (p.drop 8) then some 11 else none
  | 0x0902 => if fld p 0 1 = 1 || fld p 0 1 = 2 then some 7 else none
  | 0x0A00 => if bitOf (fld p 1 1) 0 then some 10 else none
  | 0x0B00 => if fld p 2 1 = 3 then some 10 else if fld p 2 1 = 8 then some 12 else none
  | 0x0E13 => if fld p 0 1 = 3 then some 6 else none
  | _ => none

/-- Whether a request is exempt from checks 3 and 4 of R35 (R404): SYS.RESTART is with kind DEVICE or COLD alone. -/
def isExempt (c : CmdSpec) (p : Option Bytes) : Bool :=
  c.exempt && (c.code != 0x0010 || (match p with | some b => fld b 0 1 == 1 || fld b 0 1 == 2 | none => false))

/-- Whether a request is taken in the safe state (R403): SYS.RESTART is with kind COLD alone. -/
def takenInSafe (c : CmdSpec) (p : Option Bytes) : Bool :=
  c.inSafe && (c.code != 0x0010 || (match p with | some b => fld b 0 1 == 2 | none => false))

/-- SR_IOV, FEATURES unlocked and features not accepted, that of the command and that which its fields ask for: checks 3 and 4 of R35. In
the safe state every command that R403 does not list returns BAD_STATE. -/
def stateBad (c : CmdSpec) (q : Req) (p : Option Bytes) (s : State) : Option Nat :=
  if s.start.safe then (if takenInSafe c p then none else some stBadState)
  else if isExempt c p then none
  else if !s.mbx.locked && decide (2 < c.code) then some stBadState
  else if !fnIsPf q.fn && !feature s 8 then some stNotNegotiated
  else match c.needs, p.bind (namedFeature c.code) with
    | some a, some b => if feature s a && feature s b then none else some stNotNegotiated
    | some a, none => if feature s a then none else some stNotNegotiated
    | none, some b => if feature s b then none else some stNotNegotiated
    | none, none => none

/-- The function that the function field names, in its defined bits [5:0] and 8 (Table 2.3). -/
def namedFn (q : Req) : Fn := q.functionField % 64 + 64 * (q.functionField / 256 % 2)

/-- Whether a command names a furrow that another function owns (R338). -/
def namesForeign (c : CmdSpec) (q : Req) (p : Option Bytes) (s : State) : Bool := match c.furrow, p with
  | some k, some b =>
    let x := tget {} s.deliv.furrows (fld b k 2)
    decide (k + 2 ≤ b.length) && x.st != 0 && x.owner != q.fn
  | _, _ => false

/-- DENIED, for the function field or the access right (check 1 of R35): another function's name, a command that a VF may not issue, a
furrow of another function (Table 2.7, R338). -/
def denied (c : CmdSpec) (q : Req) (p : Option Bytes) (s : State) : Bool :=
  namedFn q != q.fn || (!fnIsPf q.fn && !c.vf) || namesForeign c q p s

/-- The first failing check of R35 before the command's own, `p` the request payload where it can be read. -/
def firstBad (c : CmdSpec) (q : Req) (p : Option Bytes) (s : State) : Option Nat :=
  if denied c q p s then some stDenied
  else match stateBad c q p s with
    | some st => some st
    | none => if headerBad q c.len then some stBadArg else none

/-- The request payload: what stands inline, or what was read at req_addr. -/
def payloadOf (q : Req) (io : Option Bytes) : Option Bytes :=
  if reqIndirect q.flags then io.map (fitTo q.payloadLen)
  else some (fitTo q.payloadLen (if hasPointer q.flags then q.inline.drop 32 else q.inline))

/-- The codes of the commands that the chapters define, per family as ranges of the low byte: first and last (R36, Table 2.8 and the
command table of each family). -/
def codeRanges : Nat → List (Nat × Nat)
  | 0x00 => [(0x00, 0x03), (0x10, 0x15)]
  | 0x01 => [(0x00, 0x04)]
  | 0x02 => [(0x00, 0x01), (0x10, 0x17)]
  | 0x03 => [(0x00, 0x02), (0x10, 0x18)]
  | 0x04 => [(0x00, 0x04), (0x10, 0x14)]
  | 0x05 => [(0x00, 0x05), (0x10, 0x15)]
  | 0x06 => [(0x00, 0x03), (0x10, 0x14)]
  | 0x07 => [(0x00, 0x02), (0x10, 0x13)]
  | 0x08 => [(0x00, 0x05), (0x10, 0x13)]
  | 0x09 => [(0x00, 0x02), (0x10, 0x14)]
  | 0x0A => [(0x00, 0x01), (0x10, 0x12)]
  | 0x0B => [(0x00, 0x01), (0x10, 0x17)]
  | 0x0C => [(0x00, 0x00), (0x10, 0x19)]
  | 0x0D => [(0x00, 0x00), (0x10, 0x14)]
  | 0x0E => [(0x10, 0x13)]
  | 0x0F => [(0x00, 0x01)]
  | _ => []

/-- Whether a command code is defined (R36). (DEDUCED, log entry 8) -/
def codeDefined (c : Nat) : Bool := (codeRanges (c / 256)).any (fun r => decide (r.1 ≤ c % 256) && decide (c % 256 ≤ r.2))

/-- The status of a request with an undefined code: checks 1 and 2 of R35; no VF may issue one. -/
def undefinedStatus (q : Req) : Nat := if namedFn q != q.fn || !fnIsPf q.fn then stDenied else stBadCmd

/-- The Headstock answers the requests with undefined codes that stand before the next defined one. (DEDUCED, log entry 8) -/
def answerUndefined : List Req → State → State
  | [], s => s
  | q :: rest, s =>
    if codeDefined q.command then s
    else answerUndefined rest (putResponse q (undefinedStatus q) [] 0 0 { s with mbx := { s.mbx with inbox := rest } })

/-- The Headstock looks at its oldest request, unless it does not answer or waits for a head.
(DESIGN CHOICE, log entry 3; DEDUCED, log entry 8) -/
def headstockTurn (s : State) : State := if !s.mbx.answering || s.mbx.hold.isSome then s else answerUndefined s.mbx.inbox s

/-- Serve the oldest request, when it is the command of `c`: the checks in order, then the command's own work. (DEDUCED, log entry 8) -/
def serveNext (c : CmdSpec) (io : HostIo) (own : State → Req → Bytes → Reply) (s : State) : State :=
  if !s.mbx.answering || s.mbx.hold.isSome then s else
  match s.mbx.inbox with
  | [] => s
  | q :: rest =>
    if q.command != c.code then s else
      let s0 := { s with mbx := { s.mbx with inbox := rest } }
      match firstBad c q (payloadOf q io.req) s0 with
      | some st => complete q true s0 (reply st s0)
      | none => match payloadOf q io.req with
        | none => readFault q io.timeout s0
        | some p => complete q io.respOk s0 (own s0 q p)

/-- A row of the mailbox: the Headstock has its turn, and serves the request when it is the row's command. -/
def serve (c : CmdSpec) (io : HostIo) (own : State → Req → Bytes → Reply) (s : State) : State := serveNext c io own (headstockTurn s)

/-- A command whose response may come later: its own work answers, or leaves the request with the Headstock (R26, R187). -/
def serveHoldNext (c : CmdSpec) (io : HostIo) (own : State → Req → Bytes → Reply ⊕ State) (s : State) : State :=
  if !s.mbx.answering || s.mbx.hold.isSome then s else
  match s.mbx.inbox with
  | [] => s
  | q :: rest =>
    if q.command != c.code then s else
      let s0 := { s with mbx := { s.mbx with inbox := rest } }
      match firstBad c q (payloadOf q io.req) s0 with
      | some st => complete q true s0 (reply st s0)
      | none => match payloadOf q io.req with
        | none => readFault q io.timeout s0
        | some p => match own s0 q p with
          | .inl r => complete q io.respOk s0 r
          | .inr t => t

/-- Its row. -/
def serveOrHold (c : CmdSpec) (io : HostIo) (own : State → Req → Bytes → Reply ⊕ State) (s : State) : State :=
  serveHoldNext c io own (headstockTurn s)

/-! Tickets (R31) -/

/-- The tickets a function may hold. -/
def ticketLimit (f : Fn) : Nat := if fnIsPf f then 256 else 4

/-- The tickets of a function that are outstanding. -/
def ticketsOf (s : State) (f : Fn) : Nat := (s.mbx.tickets.filter (fun e => e.2.fn == f)).length

/-- Issue a ticket for background work: IN_PROGRESS with its number, or BUSY past the limit (R31). R31 only says that 0 is never issued:
the number after 2^32 - 1 is 1. (DESIGN CHOICE, log entry 79) -/
def issueTicket (q : Req) (args : Bytes) (start : Nat → State → State) (s : State) : Reply :=
  if ticketLimit q.fn ≤ ticketsOf s q.fn then reply stBusy s
  else
    let n := s.mbx.nextTicket
    let t : Ticket := ⟨q.fn, q.command, args, [], if respIndirect q.flags then some (respAddr q) else none, respRoom q,
      false, 0, [], 0, 0⟩
    let s1 := { s with mbx := { s.mbx with
      nextTicket := if n = 2 ^ 32 - 1 then 1 else n + 1, tickets := tput s.mbx.tickets n t } }
    ⟨stInProgress, [], n, start n s1⟩

/-- Change a ticket. -/
def modTicket (n : Nat) (f : Ticket → Ticket) (s : State) : State := match tfind s.mbx.tickets n with
  | some t => { s with mbx := { s.mbx with tickets := tput s.mbx.tickets n (f t) } }
  | none => s

/-- The tickets whose work runs a command, in order. -/
def ticketsRunning (s : State) (command : Nat) : List Nat :=
  (s.mbx.tickets.filter (fun e => e.2.command == command && !e.2.done)).map (·.1)

/-- The room for a ticket's result: the 4,072 bytes that SYS.TICKET_STATUS returns inline, or resp_capacity where that is more, since only a
longer result goes to resp_addr (R29, Table 2.11). (DEDUCED, log entry 80) -/
def ticketRoom (t : Ticket) : Nat := if t.respAddr.isSome then max 4072 t.respCap else 4072

/-- Whether a ticket's result can be given: it fits, and where it goes to resp_addr the host takes it. -/
def resultGoes (t : Ticket) (result : Bytes) (respOk : Bool) : Bool :=
  decide (result.length ≤ ticketRoom t) && (decide (result.length ≤ 4072) || respOk)

/-- Close a ticket with its final response; the function's ticket cause is raised (R31, Table 20.4). A result that does not fit gives
NO_RESOURCE, and result_len is what it needs (R29); one of more than 4,072 bytes goes to the original resp_addr (Table 2.11).
(DEDUCED, log entry 80) -/
def closeTicket (n status : Nat) (result : Bytes) (respOk : Bool) (s : State) : State :=
  match tfind s.mbx.tickets n with
  | none => s
  | some t =>
    if t.done then s else
    let fits := decide (result.length ≤ ticketRoom t)
    let wide := fits && decide (4072 < result.length)
    let st := if !fits then stNoResource else if wide && !respOk then stFault else status
    let res := if !fits then [] else if wide && !respOk then leBytes 4 2 else result
    let s1 := match t.respAddr with
      | some a => if wide && respOk then sendHost t.fn a result s else s
      | none => s
    let t' := { t with done := true, status := st, resultLen := if fits then res.length else result.length
                       result := if res.length ≤ 4072 then res else [], doneAt := dcNow s }
    let s2 := { s1 with mbx := { s1.mbx with tickets := tput s1.mbx.tickets n t' } }
    let r := fnRegs s2 t.fn
    raiseCause 1 t.fn (setFnRegs t.fn { r with ticketDone := (r.ticketDone + 1) % 2 ^ 32 } s2)

/-- A ticket's work ends. While a W1 runs no work ends: the tickets that are outstanding then end with it, FAULT (R33). -/
def endTicket (n status : Nat) (result : Bytes) (respOk : Bool) (s : State) : State :=
  if s.mbx.answering then closeTicket n status result respOk s else s

/-! Staged commands (R41, R42) -/

/-- One field of a request: offset, size, signed, and the values it takes. -/
structure Field where
  off : Nat
  size : Nat
  lo : Int
  hi : Int
  signed : Bool := false
  deriving DecidableEq, Repr

/-- The value of a field. -/
def fieldVal (p : Bytes) (f : Field) : Int := if f.signed then sfld p f.off f.size else (fld p f.off f.size : Int)

/-- Whether every field is in range and every reserved range is zero (R8). -/
def fieldsOk (p : Bytes) (fs : List Field) (reserved : List (Nat × Nat)) : Bool :=
  fs.all (fun f => decide (f.lo ≤ fieldVal p f) && decide (fieldVal p f ≤ f.hi))
    && reserved.all (fun r => zeroRange p r.1 r.2)

/-- Whether the Cloche takes no setting: a commit is armed or applying, or the device holds a PREPARE (R42, R381).
(DEDUCED, log entry 18) -/
def clocheBusy (s : State) : Bool := s.cfg.commit.isSome || s.trel.prep.isSome

/-- Stage a setting (R42): BUSY while the Cloche is closed, the command's own check, then the value replaces an
earlier one of the same command and object. (DEDUCED, log entry 18) -/
def stage (code : Nat) (obj : Bytes → Nat) (check : State → Bytes → Option Nat) (s : State) (_q : Req) (p : Bytes) :
    Reply :=
  if clocheBusy s then reply stBusy s
  else match check s p with
    | some st => reply st s
    | none => reply stOk { s with cfg := { s.cfg with staged := tput s.cfg.staged (settingKey code (obj p)) p } }

/-- A direct command that the device answers from its state alone. -/
def query (check : State → Bytes → Option Nat) (answer : State → Bytes → Bytes) (s : State) (_q : Req) (p : Bytes) :
    Reply :=
  match check s p with
  | some st => reply st s
  | none => replyOk (answer s p) s

/-- A check that answers BAD_ARG unless a condition holds. -/
def orBadArg (ok : Bool) : Option Nat := if ok then none else some stBadArg

end Sys2Proof.Machine
end

