-- ==== Sys2Proof/Machine/PosCfg.lean ====
section
/-! DEFINITION. The settings of the POS family: request layouts, reset values, the checks of R86 and what a commit
checks and does (Tables 3.8 to 3.10, R474). -/

namespace Sys2Proof.Machine

/-! POS.SET_CHANNEL (Table 3.8) -/

/-- A channel's settings as its request payload spells them. -/
structure ChanCfg where
  mode : Nat
  decode : Nat
  invert : Bool
  zLow : Bool
  gray : Bool
  filterN : Nat
  deadCount : Nat
  staleUs : Nat
  zHoldUs : Nat
  indexPeriod : Nat
  indexTol : Nat
  indexMode : Nat
  ssiBits : Nat
  ssiDiv : Nat
  ssiPeriodUs : Nat
  ssiMonoUs : Nat
  failLimit : Nat
  ssiMaxStep : Nat
  deriving DecidableEq, Repr

/-- Read a POS.SET_CHANNEL payload. -/
def chanCfgOf (p : Bytes) : ChanCfg where
  mode := fld p 1 1
  decode := fld p 2 1
  invert := bitOf (fld p 3 1) 0
  zLow := bitOf (fld p 3 1) 1
  gray := bitOf (fld p 3 1) 2
  filterN := fld p 4 2
  deadCount := fld p 6 2
  staleUs := fld p 8 4
  zHoldUs := fld p 12 4
  indexPeriod := fld p 16 4
  indexTol := fld p 20 2
  indexMode := fld p 22 1
  ssiBits := fld p 23 1
  ssiDiv := fld p 24 2
  ssiPeriodUs := fld p 26 2
  ssiMonoUs := fld p 28 2
  failLimit := fld p 30 2
  ssiMaxStep := fld p 32 4

/-- Reset value: the channel OFF, everything else 0 (R60). -/
def chanReset (ch : Nat) : Bytes := leBytes 48 ch

/-- A channel's settings in an image. -/
def chanCfg (img : Image) (ch : Nat) : ChanCfg := chanCfgOf (settingIn img 0x0400 ch (chanReset ch))

/-- `v` in a range, where the field applies, and 0 where it does not (R86). -/
def inRangeIf (applies : Bool) (v lo hi : Nat) : Bool :=
  if applies then decide (lo ≤ v) && decide (v ≤ hi) else v == 0

/-- The checks of POS.SET_CHANNEL. (DEDUCED, log entry 41) -/
def chanCheck (_s : State) (p : Bytes) : Option Nat :=
  let c := chanCfgOf p
  let quad := c.mode == 1
  let ssi := c.mode == 3
  let edge := c.mode == 1 || c.mode == 2
  let on := c.mode != 0
  let idx := quad && c.indexMode != 0
  orBadArg (decide (fld p 0 1 < 16) && decide (c.mode < 4) && inRangeIf quad c.decode 0 2
    && decide (fld p 3 1 < 8) && (edge || !c.invert) && (quad || !c.zLow) && (ssi || !c.gray)
    && inRangeIf on c.filterN 1 1023 && inRangeIf edge c.deadCount 2 65535
    && inRangeIf on c.staleUs 100 10000000 && inRangeIf quad c.zHoldUs 1 1000000
    && inRangeIf quad c.indexMode 0 3 && inRangeIf idx c.indexPeriod 1 4294967295
    && (if idx then decide (2 * c.indexTol < c.indexPeriod) else c.indexTol == 0)
    && inRangeIf ssi c.ssiBits 8 40 && inRangeIf ssi c.ssiDiv 16 1562 && inRangeIf ssi c.ssiPeriodUs 2 1000
    && inRangeIf ssi c.ssiMonoUs 1 100 && inRangeIf on c.failLimit 1 65535
    && inRangeIf ssi c.ssiMaxStep 1 2147483647 && zeroRange p 36 12)

/-! POS.SET_SPINDLE (Table 3.9) -/

/-- The spindle settings. -/
structure SpinCfg where
  master : Option Nat
  alternate : Option Nat
  failoverOnSlip : Bool
  slipTol : Nat
  masterScale : Nat
  alternateScale : Nat
  slipWindow : Nat
  stallDistance : Nat
  deriving DecidableEq, Repr

/-- A channel number of one byte, 0xFF for none. -/
def chanNum (n : Nat) : Option Nat := if n = 0xFF then none else some n

/-- Read a POS.SET_SPINDLE payload. -/
def spinCfgOf (p : Bytes) : SpinCfg where
  master := chanNum (fld p 0 1)
  alternate := chanNum (fld p 1 1)
  failoverOnSlip := bitOf (fld p 2 1) 0
  slipTol := fld p 4 4
  masterScale := fld p 8 8
  alternateScale := fld p 16 8
  slipWindow := fld p 24 8
  stallDistance := fld p 32 4

/-- Reset value: no source. -/
def spinReset : Bytes := leBytes 48 0xFFFF

/-- The spindle settings of an image. -/
def spinCfg (img : Image) : SpinCfg := spinCfgOf (settingIn img 0x0401 0 spinReset)

/-- A scale of 1 nm to 10,000,000 nm per count in 32.32. -/
def scaleOk (v : Nat) : Bool := decide (2 ^ 32 ≤ v) && decide (v ≤ 10000000 * 2 ^ 32)

/-- The checks of POS.SET_SPINDLE (R86). -/
def spinCheck (_s : State) (p : Bytes) : Option Nat :=
  let m := fld p 0 1
  let a := fld p 1 1
  let c := spinCfgOf p
  orBadArg (zeroRange p 3 1 && zeroRange p 36 12 &&
    (if m == 0xFF then a == 0xFF && zeroRange p 2 34
     else decide (m < 16) && scaleOk c.masterScale &&
      (if a == 0xFF then c.alternateScale == 0 && c.slipTol == 0 && c.slipWindow == 0 && c.stallDistance == 0
          && fld p 2 1 == 0
       else decide (a < 16) && a != m && decide (fld p 2 1 < 2) && inRangeIf true c.slipTol 1 100000
        && scaleOk c.alternateScale && inRangeIf true c.slipWindow 100000000 100000000000
        && inRangeIf true c.stallDistance 10000 100000000)))

/-! POS.SET_DIV, POS.SET_EMU, POS.SET_GP_INPUT (Table 3.10) -/

/-- Reset value of a divider: disabled. -/
def divReset (n : Nat) : Bytes := leBytes 16 n
/-- A divider's settings: enable, source, m, n. -/
structure DivCfg where
  enable : Bool
  source : Nat
  m : Nat
  n : Nat
  deriving DecidableEq, Repr
/-- The divider settings of an image. -/
def divCfg (img : Image) (d : Nat) : DivCfg :=
  let p := settingIn img 0x0402 d (divReset d)
  ⟨fld p 1 1 == 1, fld p 2 1, fld p 4 2, fld p 6 2⟩

/-- The checks of POS.SET_DIV: a disabled divider takes 0 in the fields that do not apply (R86). -/
def divCheck (_s : State) (p : Bytes) : Option Nat :=
  let n := fld p 6 2
  orBadArg (decide (fld p 0 1 < 16) && zeroRange p 3 1 && zeroRange p 8 8 &&
    (match fld p 1 1 with
      | 0 => zeroRange p 2 6
      | 1 => decide (fld p 2 1 < 16) && decide (1 ≤ n) && inRangeIf true (fld p 4 2) 1 n
      | _ => false))

/-- Reset value of an emulator: disabled. -/
def emuReset (e : Nat) : Bytes := leBytes 32 e
/-- An emulator's settings. -/
structure EmuCfg where
  enable : Bool
  invert : Bool
  perM : Nat
  zDist : Nat
  zOff : Nat
  deriving DecidableEq, Repr
/-- The emulator settings of an image. -/
def emuCfg (img : Image) (e : Nat) : EmuCfg :=
  let p := settingIn img 0x0403 e (emuReset e)
  ⟨fld p 1 1 == 1, bitOf (fld p 2 1) 0, fld p 4 4, fld p 8 8, fld p 16 8⟩

/-- The checks of POS.SET_EMU. -/
def emuCheck (_s : State) (p : Bytes) : Option Nat :=
  let d := fld p 8 8
  orBadArg (decide (fld p 0 1 < 2) && zeroRange p 3 1 && zeroRange p 24 8 &&
    (match fld p 1 1 with
      | 0 => zeroRange p 2 22
      | 1 => decide (fld p 2 1 < 2) && inRangeIf true (fld p 4 4) 1000 10000000
          && (d == 0 || inRangeIf true d 1000000 (2 ^ 40)) && (if d == 0 then fld p 16 8 == 0 else decide (fld p 16 8 < d))
      | _ => false))

/-- Reset value of a GP input: no setting, filtered with N = 1, active high, no STUCK check (R83). -/
def gpReset (g : Nat) : Bytes := leBytes 16 (g + 0x10000)
/-- A GP input's settings. -/
structure GpCfg where
  activeLow : Bool
  stuckCheck : Bool
  filterN : Nat
  holdUs : Nat
  deriving DecidableEq, Repr
/-- The GP settings of an image. -/
def gpCfg (img : Image) (g : Nat) : GpCfg :=
  let p := settingIn img 0x0404 g (gpReset g)
  ⟨bitOf (fld p 1 1) 0, bitOf (fld p 1 1) 1, fld p 2 2, fld p 4 4⟩

/-- The checks of POS.SET_GP_INPUT. -/
def gpCheck (_s : State) (p : Bytes) : Option Nat :=
  orBadArg (decide (fld p 0 1 < 24) && decide (fld p 1 1 < 4) && inRangeIf true (fld p 2 2) 1 1023
    && inRangeIf (bitOf (fld p 1 1) 1) (fld p 4 4) 1 10000000 && zeroRange p 8 8)

/-! What CFG.COMMIT checks of the POS settings (R66, Table 3.7) -/

/-- The reason a POS setting of a candidate configuration fails, if it does. -/
def posValidate (img : Image) (code obj : Nat) : Option Nat :=
  let off (c : Option Nat) : Bool := match c with
    | some n => (chanCfg img n).mode == 0
    | none => false
  match code with
  | 0x0400 =>
    let c := chanCfg img obj
    -- (bits + 1) clock periods of 2 × div × 3.2 ns, plus the monoflop time, within the period (R66), in 0.1 ns
    if c.mode == 3 && decide (c.ssiPeriodUs * 10000 < (c.ssiBits + 1) * 2 * c.ssiDiv * 32 + c.ssiMonoUs * 10000)
    then some stBadArg else none
  | 0x0401 => if off (spinCfg img).master || off (spinCfg img).alternate then some 0x43 else none
  | 0x0402 =>
    let d := divCfg img obj
    if !d.enable then none
    else if (chanCfg img obj).mode == 3 then some 0x40
    else if (chanCfg img d.source).mode == 0 then some 0x43 else none
  | _ => none

end Sys2Proof.Machine
end

