-- ==== Sys2Proof/Machine/LaneCfg.lean ====
section
/-! DEFINITION. The settings of the LANE family: request layouts, reset values, and the placement rules that CFG.COMMIT
checks (R142, R144, R145, R148, R153, Tables 6.1, 6.3, 6.13). -/

namespace Sys2Proof.Machine

/-- Whether a lane index is a field lane (R142). -/
def isFieldLane (l : Nat) : Bool := decide (l < 48)

/-- The GRAFT mode. -/
def modeGraft : Nat := 10

/-- Whether a mode is NRZ (Table 6.1). -/
def modeNrz (m : Nat) : Bool := m == 1 || m == 2 || m == 8 || m == 9

/-- Whether a mode is PAM4. -/
def modePam4 (m : Nat) : Bool := decide (3 ≤ m) && decide (m ≤ 7) || m == 10

/-- Whether a FEC value is allowed in a mode (Table 6.1). -/
def fecAllowed (m fec : Nat) : Bool :=
  if m = 0 || m = 1 || m = 8 then fec == 0
  else if m = 2 || m = 9 then decide (fec ≤ 1)
  else if m = 10 then fec == 0 || fec == 2
  else fec == 2

/-- Whether a group size is allowed in a mode (Table 6.1). -/
def lanesAllowed (m n : Nat) : Bool :=
  if m = 5 then n == 2
  else if m = 6 || m = 7 then n == 4
  else if m = 10 then n == 1 || n == 4 || n == 8
  else n == 1

/-- Read a LANE.SET_LANE payload. -/
def laneSetOf (p : Bytes) : LaneSet where
  mode := fld p 1 1
  fec := fld p 2 1
  an := bitOf (fld p 3 1) 0
  txInvert := bitOf (fld p 3 1) 1
  rxInvert := bitOf (fld p 3 1) 2
  manual := bitOf (fld p 3 1) 3
  first := fld p 4 1
  lanes := fld p 5 1
  minLanes := fld p 6 1

/-- Reset value: OFF, a group of its own (R144). -/
def laneReset (l : Nat) : Bytes := leBytes 16 (l + l * 2 ^ 32 + 2 ^ 40)

/-- A lane's settings in an image. -/
def laneSet (img : Image) (l : Nat) : LaneSet := laneSetOf (settingIn img 0x0200 l (laneReset l))

/-- The checks of LANE.SET_LANE: ranges (R145). -/
def laneCheck (_s : State) (p : Bytes) : Option Nat :=
  let c := laneSetOf p
  if !(fieldsOk p [⟨0, 1, 0, 63, false⟩, ⟨1, 1, 0, 10, false⟩, ⟨3, 1, 0, 15, false⟩, ⟨4, 1, 0, 63, false⟩] [(7, 9)]
    && fecAllowed c.mode c.fec && lanesAllowed c.mode c.lanes
    && (!c.an || (c.mode != 0 && c.mode != modeGraft)) && (!c.manual || c.fec == 0)
    && (if c.mode = modeGraft then decide (1 ≤ c.minLanes) && decide (c.minLanes ≤ c.lanes) else c.minLanes == 0))
  then some stBadArg
  else none

/-- Read a LANE.SET_EQ payload. -/
def eqSetOf (p : Bytes) : EqSet where
  fixed := fld p 1 1 == 1
  ctle := fld p 2 1
  pre := fld p 3 1
  post := fld p 4 1
  interval :=
    let v := fld p 6 2
    if v = 0 then some 3600 else if v = 0xFFFF then none else some v

/-- Reset value: TX_ASSISTED (R148), taps 0, the default interval. -/
def eqReset (l : Nat) : Bytes := leBytes 16 l

/-- A lane's equalisation settings in an image. -/
def eqSet (img : Image) (l : Nat) : EqSet := eqSetOf (settingIn img 0x0201 l (eqReset l))

/-- The checks of LANE.SET_EQ (R148, R153). -/
def eqCheck (_s : State) (p : Bytes) : Option Nat :=
  let i := fld p 6 2
  orBadArg (fieldsOk p [⟨0, 1, 0, 63, false⟩, ⟨1, 1, 0, 1, false⟩, ⟨3, 1, 0, 16, false⟩, ⟨4, 1, 0, 24, false⟩]
      [(5, 1), (8, 8)]
    && decide (fld p 3 1 + fld p 4 1 ≤ 40) && inRangeIf (fld p 1 1 == 1) (fld p 2 1) 0 31
    && (i == 0 || i == 0xFFFF || (decide (60 ≤ i) && decide (i ≤ 65534))))

/-- The lanes of a group. -/
def groupLanes (c : LaneSet) : List Nat := (List.range c.lanes).map (· + c.first)

/-- Whether a group lies where R145 lets it. -/
def groupPlaced (l : Nat) (c : LaneSet) : Bool :=
  let last := c.first + c.lanes - 1
  decide (c.first ≤ l) && decide (l ≤ last) && decide (last < 64) && isFieldLane c.first == isFieldLane last
    && (c.lanes == 1 || (c.lanes == 2 && c.first % 2 == 0) || (c.lanes == 4 && c.first % 4 == 0)
        || (c.lanes == 8 && c.first % 8 == 0))
    && (c.mode != modeGraft || (if isFieldLane l then c.lanes == 1 || c.lanes == 4 else c.lanes == 4 || c.lanes == 8))

/-- Whether two lanes of a group agree: only the polarity flags may differ (R145). -/
def groupAgrees (a b : LaneSet) : Bool := decide ({ a with txInvert := b.txInvert, rxInvert := b.rxInvert } = b)

/-- What CFG.COMMIT checks of a lane (R145). -/
def laneValidate (img : Image) (code l : Nat) : Option Nat :=
  if code != 0x0200 then none else
    let c := laneSet img l
    if c.mode != 0 && c.mode != modeGraft && !isFieldLane l then some 0x45
    else if !(groupPlaced l c) || (groupLanes c).any (fun k => !groupAgrees c (laneSet img k)) then some 0x42
    else none

end Sys2Proof.Machine
end

