-- ==== Sys2Proof/Machine/TrigCfg.lean ====
section
/-! DEFINITION. The settings of the TRIG family: request layouts, reset values, checks, and what a commit checks
(Tables 4.6 to 4.10, R91, R97, R99). -/

namespace Sys2Proof.Machine

/-! TRIG.SET_UNIT (Table 4.6) -/

/-- A compare unit's settings. -/
structure UnitCfg where
  enable : Bool
  fireLate : Bool
  gateGp : Nat
  gateLow : Bool
  gateOn : Bool
  pitch : Nat
  phase : Int
  trgMask : Nat
  cxpHeads : Nat
  gevHeads : Nat
  deriving DecidableEq, Repr

/-- Read a TRIG.SET_UNIT payload. -/
def unitCfgOf (p : Bytes) : UnitCfg where
  enable := fld p 1 1 == 1
  fireLate := fld p 2 1 == 1
  gateGp := bitsOf (fld p 3 1) 0 5
  gateLow := bitOf (fld p 3 1) 6
  gateOn := bitOf (fld p 3 1) 7
  pitch := fld p 4 4
  phase := sfld p 8 8
  trgMask := fld p 16 8
  cxpHeads := fld p 24 8
  gevHeads := fld p 32 8

/-- Reset value: the unit disabled. -/
def unitReset (u : Nat) : Bytes := leBytes 64 u

/-- A unit's settings in an image. -/
def unitCfg (img : Image) (u : Nat) : UnitCfg := unitCfgOf (settingIn img 0x0500 u (unitReset u))

/-- The checks of TRIG.SET_UNIT. -/
def unitCheck (_s : State) (p : Bytes) : Option Nat :=
  let c := unitCfgOf p
  orBadArg (fieldsOk p [⟨0, 1, 0, 63, false⟩, ⟨1, 1, 0, 1, false⟩, ⟨2, 1, 0, 1, false⟩] [(40, 24)]
    && decide (c.gateGp < 24) && !bitOf (fld p 3 1) 5
    && (c.pitch == 0 || inRangeIf true c.pitch 1000 4000000000) && (c.pitch != 0 || c.phase == 0)
    && decide (c.cxpHeads < 2 ^ 48) && decide (c.gevHeads < 2 ^ 48))

/-! TRIG.SET_TRG_OUTPUT and TRIG.SET_ACT_BANK (Table 4.7) -/

/-- A TRG output's settings. -/
structure TrgCfg where
  enable : Bool
  invert : Bool
  width : Nat
  delay : Nat
  fine : Nat
  deriving DecidableEq, Repr

/-- Reset value: the output disabled. -/
def trgReset (o : Nat) : Bytes := leBytes 16 o

/-- A TRG output's settings in an image. -/
def trgCfg (img : Image) (o : Nat) : TrgCfg :=
  let p := settingIn img 0x0501 o (trgReset o)
  ⟨bitOf (fld p 1 1) 0, bitOf (fld p 1 1) 1, fld p 2 2, fld p 4 2, fld p 6 2⟩

/-- The checks of TRIG.SET_TRG_OUTPUT (R99). -/
def trgCheck (_s : State) (p : Bytes) : Option Nat :=
  orBadArg (fieldsOk p [⟨0, 1, 0, 63, false⟩, ⟨1, 1, 0, 3, false⟩, ⟨2, 2, 4, 65535, false⟩, ⟨4, 2, 0, 4095, false⟩,
    ⟨6, 2, 0, 1590, false⟩] [(8, 8)] && fld p 6 2 % 10 == 0)

/-- Reset value: the bank DISABLED (R105). -/
def bankReset (b : Nat) : Bytes := leBytes 8 b

/-- The standard of an ACT bank: 0 DISABLED, 1 LVDS, 2 CMOS33. -/
def bankStd (img : Image) (b : Nat) : Nat := fld (settingIn img 0x0502 b (bankReset b)) 1 1

/-- The checks of TRIG.SET_ACT_BANK. -/
def bankCheck (_s : State) (p : Bytes) : Option Nat :=
  orBadArg (fieldsOk p [⟨0, 1, 0, 1, false⟩, ⟨1, 1, 0, 2, false⟩] [(2, 6)])

/-! TRIG.SET_ACT_OUTPUT (Table 4.8) -/

/-- An ACT output's settings. -/
structure ActCfg where
  enable : Bool
  activeLow : Bool
  length : Bool
  widthUs : Nat
  bandLo : Int
  bandHi : Int
  lead : Nat
  trail : Nat
  deriving DecidableEq, Repr

/-- Reset value: no setting, which leaves the output disabled (R108). -/
def actReset (a : Nat) : Bytes := leBytes 32 a

/-- An ACT output's settings in an image. -/
def actCfg (img : Image) (a : Nat) : ActCfg :=
  let p := settingIn img 0x0503 a (actReset a)
  ⟨bitOf (fld p 1 1) 0, bitOf (fld p 1 1) 1, fld p 2 1 == 1, fld p 4 4, sfld p 8 4, sfld p 12 4, fld p 16 4, fld p 20 4⟩

/-- The checks of TRIG.SET_ACT_OUTPUT. -/
def actCheck (_s : State) (p : Bytes) : Option Nat :=
  orBadArg (fieldsOk p [⟨0, 1, 0, 15, false⟩, ⟨1, 1, 0, 3, false⟩, ⟨2, 1, 0, 1, false⟩, ⟨4, 4, 1, 1000000, false⟩,
      ⟨16, 4, 0, 1000000000, false⟩, ⟨20, 4, 0, 1000000000, false⟩] [(3, 1), (24, 8)]
    && decide (sfld p 8 4 < sfld p 12 4) && (fld p 2 1 == 1 || fld p 20 4 == 0))

/-! TRIG.SET_ACTION_RULE (Table 4.9) -/

/-- An action rule's settings. -/
structure RuleCfg where
  enable : Bool
  fireLate : Bool
  /-- none for any graph -/
  graph : Option Nat
  actMask : Nat
  distance : Nat
  minArea : Nat
  classMap : Nat
  deriving DecidableEq, Repr

/-- Reset value: the rule disabled. -/
def ruleReset (r : Nat) : Bytes := leBytes 64 r

/-- A rule's settings in an image. -/
def ruleCfg (img : Image) (r : Nat) : RuleCfg :=
  let p := settingIn img 0x0504 r (ruleReset r)
  ⟨fld p 1 1 == 1, fld p 2 1 == 1, chanNum (fld p 3 1), fld p 4 2, fld p 8 8, fld p 16 4, fld p 24 32⟩

/-- The checks of TRIG.SET_ACTION_RULE. -/
def ruleCheck (_s : State) (p : Bytes) : Option Nat :=
  orBadArg (fieldsOk p [⟨0, 1, 0, 63, false⟩, ⟨1, 1, 0, 1, false⟩, ⟨2, 1, 0, 1, false⟩, ⟨8, 8, 1000000, 2 ^ 40, false⟩]
      [(6, 2), (20, 4), (56, 8)]
    && (decide (fld p 3 1 < 64) || fld p 3 1 == 0xFF))

/-! TRIG.SET_GEV_ACTION (Table 4.10) -/

/-- A unit's GigE Vision action settings. -/
structure GevCfg where
  deviceKey : Nat
  groupKey : Nat
  groupMask : Nat
  leadUs : Nat
  tolNm : Nat
  deriving DecidableEq, Repr

/-- Reset value: no setting. -/
def gevReset (u : Nat) : Bytes := leBytes 32 u

/-- A unit's action settings in an image. -/
def gevCfg (img : Image) (u : Nat) : GevCfg :=
  let p := settingIn img 0x0505 u (gevReset u)
  ⟨fld p 4 4, fld p 8 4, fld p 12 4, fld p 16 4, fld p 20 4⟩

/-- The checks of TRIG.SET_GEV_ACTION. -/
def gevCheck (_s : State) (p : Bytes) : Option Nat :=
  orBadArg (fieldsOk p [⟨0, 1, 0, 63, false⟩, ⟨16, 4, 50, 100000, false⟩, ⟨20, 4, 0, 100000000, false⟩]
    [(1, 3), (24, 8)])

/-! What CFG.COMMIT checks (R91, R97) -/

/-- A scale rounded up to whole nanometres. -/
def scaleNm (v : Nat) : Nat := ceilDiv v (2 ^ 32)

/-- The reason a TRIG setting of a candidate configuration fails, if it does. -/
def trigValidate (img : Image) (code obj : Nat) : Option Nat :=
  if code != 0x0500 then none else
    let c := unitCfg img obj
    let sp := spinCfg img
    if c.pitch != 0 && (decide (c.pitch < scaleNm sp.masterScale) || decide (c.pitch < scaleNm sp.alternateScale))
    then some 0x44
    else if c.enable && (List.range 64).any (fun u =>
        u != obj && (unitCfg img u).enable && (unitCfg img u).trgMask &&& c.trgMask != 0) then some 0x45
    else none

end Sys2Proof.Machine
end

