-- ==== Sys2Proof/Machine/CamCfg.lean ====
section
/-! DEFINITION. The settings of the CAM family: request layouts, reset values, and what CFG.COMMIT checks of ports, heads
and line streams (R178, R182, R183, R195, Tables 7.2, 7.9). -/

namespace Sys2Proof.Machine

/-- The modes of an Ethernet port. -/
def modeEth (m : Nat) : Bool := decide (1 ≤ m) && decide (m ≤ 7)
/-- The modes of a CoaXPress-over-Fiber port. -/
def modeCxp (m : Nat) : Bool := m == 8 || m == 9

/-! CAM.SET_PORT -/

/-- An IPv4 address of a request in the order of the wire: the request holds it as a little-endian u32 (R5). -/
def wireIp (p : Bytes) (off : Nat) : Bytes := ((p.drop off).take 4).reverse

/-- A port's addresses, in the order of the wire. -/
structure PortCfg where
  icmp : Bool
  ipv4 : Bytes
  mac : Bytes
  deriving DecidableEq, Repr

/-- A port's settings in an image, none where the port has none. -/
def portCfg (img : Image) (n : Nat) : Option PortCfg :=
  (tfind img (settingKey 0x0300 n)).map (fun p => ⟨bitOf (fld p 1 1) 0, wireIp p 4, (p.drop 8).take 6⟩)

/-- The checks of CAM.SET_PORT: a unicast MAC has its group bit clear. -/
def portCheck (_s : State) (p : Bytes) : Option Nat :=
  orBadArg (fieldsOk p [⟨0, 1, 0, 47, false⟩, ⟨1, 1, 0, 1, false⟩] [(2, 2), (14, 2)] && fld p 8 1 % 2 == 0)

/-! CAM.SET_HEAD -/

/-- A head's declaration. -/
structure HeadCfg where
  protocol : Nat
  port : Nat
  alt : Option Nat
  confirm : Bool
  frames : Bool
  unit : Nat
  delay : Nat
  confirmOffset : Nat
  ip : Bytes
  mac : Bytes
  heartbeatMs : Nat
  resendWaitUs : Nat
  resendAttempts : Nat
  altIp : Bytes
  altMac : Bytes
  blockTimeoutUs : Nat
  deriving DecidableEq, Repr

/-- Reset value: protocol NONE, no alternate port. -/
def headReset (h : Nat) : Bytes := leBytes 64 (h + 0xFF000000)

/-- Read a CAM.SET_HEAD payload. -/
def headCfgOf (p : Bytes) : HeadCfg where
  protocol := fld p 1 1
  port := fld p 2 1
  alt := if fld p 3 1 = 0xFF then none else some (fld p 3 1)
  confirm := bitOf (fld p 4 2) 0
  frames := fld p 6 1 == 1
  unit := fld p 7 1
  delay := fld p 8 2
  confirmOffset := fld p 10 2
  ip := wireIp p 12
  mac := (p.drop 16).take 6
  heartbeatMs := if fld p 22 2 = 0 then 3000 else fld p 22 2
  resendWaitUs := if fld p 24 2 = 0 then 200 else fld p 24 2
  resendAttempts := if fld p 26 1 = 0 then 2 else fld p 26 1
  altIp := wireIp p 28
  altMac := (p.drop 32).take 6
  blockTimeoutUs := fld p 40 4

/-- A head's declaration in an image. -/
def headCfg (img : Image) (h : Nat) : HeadCfg := headCfgOf (settingIn img 0x0301 h (headReset h))

/-- Whether a head is declared. -/
def headOn (img : Image) (h : Nat) : Bool := decide (h < 48) && (headCfg img h).protocol != 0

/-- 0, or a value in a range. -/
def zeroOrIn (v lo hi : Nat) : Bool := v == 0 || (decide (lo ≤ v) && decide (v ≤ hi))

/-- The checks of CAM.SET_HEAD. With protocol NONE the head is not there and only the layout counts. (DEDUCED, log entry 52) -/
def headCheck (_s : State) (p : Bytes) : Option Nat :=
  let proto := fld p 1 1
  let gige := proto == 1
  let alt := fld p 3 1 != 0xFF
  if !(fieldsOk p [⟨0, 1, 0, 47, false⟩, ⟨1, 1, 0, 2, false⟩, ⟨2, 1, 0, 47, false⟩, ⟨4, 2, 0, 1, false⟩,
      ⟨6, 1, 0, 1, false⟩, ⟨7, 1, 0, 63, false⟩, ⟨8, 2, 0, 1023, false⟩] [(27, 1), (38, 2), (44, 20)]
    && (!alt || decide (fld p 3 1 < 48)) && (bitOf (fld p 4 2) 0 || fld p 10 2 == 0)
    && (gige || zeroRange p 12 10) && (proto == 0 && fld p 22 2 == 0 || zeroOrIn (fld p 22 2) 500 60000)
    && (if gige then zeroOrIn (fld p 24 2) 20 10000 else fld p 24 2 == 0)
    && (if proto == 2 || gige then zeroOrIn (fld p 26 1) 1 7 else fld p 26 1 == 0)
    && (alt || zeroRange p 28 10) && (proto == 0 && fld p 40 4 == 0 || inRangeIf true (fld p 40 4) 100 1000000)) then some stBadArg
  else none

/-! CAM.SET_STREAM -/

/-- A line stream's declaration. -/
structure StreamCfg where
  head : Nat
  index : Nat
  format : Nat
  channel : Nat
  part : Option Nat
  columns : Nat
  frameLines : Nat
  lineRate : Nat
  fill : Nat
  deriving DecidableEq, Repr

/-- Read a CAM.SET_STREAM payload. -/
def streamCfgOf (p : Bytes) : StreamCfg where
  head := fld p 1 1
  index := fld p 2 1
  format := fld p 3 1
  channel := fld p 4 2
  part := if fld p 6 1 = 0xFF then none else some (fld p 6 1)
  columns := fld p 8 4
  frameLines := fld p 12 4
  lineRate := fld p 16 4
  fill := fld p 20 2

/-- A line stream's declaration in an image, none where it is not declared. -/
def streamCfg (img : Image) (n : Nat) : Option StreamCfg := (tfind img (settingKey 0x0302 n)).map streamCfgOf

/-- Container bits on the wire (Table 7.2). -/
def containerBits (f : Nat) : Nat := if f = 1 then 8 else if f = 3 then 10 else if f = 5 then 12 else 16

/-- Bit depth of a format. -/
def formatDepth (f : Nat) : Nat :=
  if f = 1 then 8 else if f = 2 || f = 3 then 10 else if f = 4 || f = 5 then 12 else if f = 6 then 14 else 16

/-- The PFNC code checked in a GigE Vision leader (Table 7.2). -/
def pfncCode (f : Nat) : Nat :=
  match f with
  | 1 => 0x01080001
  | 2 => 0x01100003
  | 3 => 0x010A0046
  | 4 => 0x01100005
  | 5 => 0x010C0047
  | 6 => 0x01100025
  | _ => 0x01100007

/-- The bytes of a line of some columns (R203). -/
def lineBytes (format columns : Nat) : Nat := ceilDiv (columns * containerBits format) 8

/-- The checks of CAM.SET_STREAM: fill_value lies within the stream's pixel width. -/
def streamCheck (_s : State) (p : Bytes) : Option Nat :=
  orBadArg (fieldsOk p [⟨0, 1, 0, 127, false⟩, ⟨1, 1, 0, 47, false⟩, ⟨2, 1, 0, 7, false⟩, ⟨3, 1, 1, 7, false⟩,
      ⟨8, 4, 1, 16384, false⟩, ⟨12, 4, 1, 65535, false⟩, ⟨16, 4, 1, 1000000, false⟩] [(7, 1), (22, 10)]
    && decide (fld p 20 2 < 2 ^ formatDepth (fld p 3 1)))

/-- The declared streams of an image, ascending. -/
def declaredStreams (img : Image) : List Nat := (List.range 128).filter (fun n => (streamCfg img n).isSome)

/-- The declared streams of a head, ascending. -/
def headStreams (img : Image) (h : Nat) : List Nat :=
  (declaredStreams img).filter (fun n => match streamCfg img n with | some c => c.head == h | none => false)

/-- The ports a head names. -/
def headPorts (c : HeadCfg) : List Nat := c.port :: c.alt.toList

/-- The declared heads on a port. -/
def portHeads (img : Image) (port : Nat) : List Nat :=
  (List.range 48).filter (fun h => headOn img h && (headPorts (headCfg img h)).contains port)

/-! What CFG.COMMIT checks -/

/-- Whether a lane is the lowest lane of a group in a mode of a kind. -/
def isPort (img : Image) (kind : Nat → Bool) (l : Nat) : Bool :=
  let c := laneSet img l
  kind c.mode && c.first == l && isFieldLane l

/-- R178: a port setting names the lowest lane of an Ethernet group. -/
def portValid (img : Image) (port : Nat) : Option Nat := if isPort img modeEth port then none else some 0x40

/-- Two heads that may share a port: both GigE Vision, with distinct addresses there (R182). -/
def mayShare (img : Image) (port a b : Nat) : Bool :=
  let x := headCfg img a
  let y := headCfg img b
  let ipOn (c : HeadCfg) : Bytes := if c.port = port then c.ip else c.altIp
  let macOn (c : HeadCfg) : Bytes := if c.port = port then c.mac else c.altMac
  x.protocol == 1 && y.protocol == 1 && ipOn x != ipOn y && macOn x != macOn y

/-- The MAC rate of a mode, bit/s (IEEE 802.3). -/
def macRate (m : Nat) : Nat :=
  1000000000 * (if m = 1 then 10 else if m = 2 then 25 else if m = 3 then 50 else if m = 4 then 100
    else if m = 5 || m = 6 then 200 else 400)

/-- The declared rate of a head's streams, bit/s on the wire (R183). -/
def headRate (img : Image) (h : Nat) : Nat :=
  sumBy (fun n => match streamCfg img n with
    | some c => c.columns * containerBits c.format * c.lineRate
    | none => 0) (headStreams img h)

/-- Whether a port carries the declared rates of its heads (R183, R195). (DESIGN CHOICE, log entry 53) -/
def portFits (img : Image) (port : Nat) : Bool :=
  let rate := sumBy (headRate img) (portHeads img port)
  let m := (laneSet img port).mode
  if modeCxp m then decide (rate ≤ Config.cxpPayloadRate m) else decide (rate * 16020 ≤ macRate m * 15934)

/-- R182, R183 and R195 for a head. -/
def headValid (accepted : Nat) (img : Image) (h : Nat) : Option Nat :=
  let c := headCfg img h
  if c.protocol = 0 then none
  else if c.alt.isSome && (c.protocol != 1 || c.alt == some c.port || !bitOf accepted 14) then some stBadArg
  else
    let kind := if c.protocol = 1 then modeEth else modeCxp
    let streams := headStreams img h
    let idx := streams.filterMap (fun n => (streamCfg img n).map (·.index))
    if streams.isEmpty || !(headPorts c).all (isPort img kind)
      || idx.any (fun i => decide (2 ≤ (idx.filter (· == i)).length))
      || (headPorts c).any (fun p => (portHeads img p).any (fun g => g != h && !mayShare img p h g)) then some 0x40
    else if !(headPorts c).all (portFits img) then some 0x46
    else none

/-- R182 for a stream: its head is declared, its channel suits the head's protocol and is its own on every port. -/
def streamValid (img : Image) (n : Nat) : Option Nat := match streamCfg img n with
  | none => none
  | some c =>
    let h := headCfg img c.head
    let gige := h.protocol == 1
    if !headOn img c.head then some 0x40
    else if !(if gige then decide (1024 ≤ c.channel) && c.channel != 3956 && c.channel != 3957 else decide (c.channel < 256))
    then some stBadArg
    else if (declaredStreams img).any (fun m => m != n && (match streamCfg img m with
        | some d => d.channel == c.channel && headOn img d.head
          && (headPorts h).any (fun p => (headPorts (headCfg img d.head)).contains p)
        | none => false)) then some 0x40
    else none

/-- What CFG.COMMIT checks of the CAM settings. -/
def camValidate (accepted : Nat) (img : Image) (code obj : Nat) : Option Nat :=
  if code = 0x0300 then portValid img obj
  else if code = 0x0301 then headValid accepted img obj
  else if code = 0x0302 then streamValid img obj
  else none

end Sys2Proof.Machine
end

