-- ==== Sys2Proof/Machine/Graft.lean ====
section
/-! DEFINITION. Lanes and the Graft link layer as other chapters use them: a lane's state and flags, sending flits,
replay, the transmit map and its markers (R157, R161 to R170). -/

namespace Sys2Proof.Machine

/-- A lane that has no entry: OFF, a group of its own. -/
def laneDefault (l : Nat) : Lane := { set := { first := l } }

/-- A lane. -/
def laneOf (s : State) (l : Nat) : Lane := tget (laneDefault l) s.lane.lanes l

/-- Set a lane. -/
def setLane (l : Nat) (x : Lane) (s : State) : State :=
  { s with lane := { s.lane with lanes := tset (laneDefault l) s.lane.lanes l x } }

/-- Change a lane. -/
def modLane (l : Nat) (f : Lane → Lane) (s : State) : State := setLane l (f (laneOf s l)) s

/-- A Graft group by its group_first. -/
def graftOf (s : State) (g : Nat) : Graft := tget {} s.lane.grafts g

/-- Set a Graft group. -/
def setGraft (g : Nat) (x : Graft) (s : State) : State :=
  { s with lane := { s.lane with grafts := tset {} s.lane.grafts g x } }

/-! Flags (Table 6.14) -/

def flNoSignal : Nat := 0
def flNoLock : Nat := 1
def flHiBer : Nat := 2
def flFrozen : Nat := 3
def flWander : Nat := 4
def flMargin : Nat := 5
def flAnNoCommon : Nat := 6
def flTrainFail : Nat := 7
def flLaneOrder : Nat := 8
def flFecUncorrectable : Nat := 9
def flOutOfMap : Nat := 10
def flLinkFail : Nat := 11
def flRefclkLost : Nat := 12

/-- Whether a live flag is set. -/
def Lane.has (x : Lane) (bit : Nat) : Bool := bitOf x.live bit

/-- Set or clear a live flag; a flag that is set is sticky too. -/
def Lane.flag (x : Lane) (bit : Nat) (on : Bool) : Lane :=
  if on then { x with live := x.live ||| 2 ^ bit, sticky := x.sticky ||| 2 ^ bit }
  else if bitOf x.live bit then { x with live := x.live - 2 ^ bit } else x

/-! States (Table 6.5) -/

def lsOff : Nat := 0
def lsCalibrating : Nat := 1
def lsAutoneg : Nat := 2
def lsTraining : Nat := 3
def lsAligning : Nat := 4
def lsUp : Nat := 5
def lsRetraining : Nat := 6
def lsTest : Nat := 7
def lsFault : Nat := 8

/-- A lane enters ALIGNING: not locked, NO_SIGNAL while no energy is detected. -/
def Lane.align (x : Lane) : Lane :=
  (({ x with st := lsAligning, locked := false }).flag flNoLock true).flag flNoSignal (!x.energy)

/-- A lane begins a training attempt. -/
def Lane.train (x : Lane) (now : Nat) : Lane := { x with st := lsTraining, trainStart := now, readyRun := 0, locked := false }

/-- Whether a lane in TX_ASSISTED mode trains before it aligns: Graft lanes by training frames, field lanes by their
PHY's training, which needs AN (Table 6.3). -/
def Lane.trains (x : Lane) : Bool := !x.eq.fixed && (x.set.mode == modeGraft || x.set.an)

/-- A lane's start values: transmitter taps as set, and in CTLE_FIXED the set peaking, the FFE at unity main tap and
the DFE at 0 (Table 6.3, R153). (DESIGN CHOICE, log entry 48) -/
def Lane.loadTaps (x : Lane) : Lane :=
  let y := { x with pre := x.eq.pre, post := x.eq.post }
  if x.eq.fixed then { y with coeffs := { ctle := x.eq.ctle, dfe := 0, ffe := (List.range 24).map Config.ffeUnity }, atBound := 0 }
  else y

/-- The first state of the mode in force (Table 6.5). -/
def Lane.start (x : Lane) (now : Nat) : Lane :=
  let y := ({ x with
    tries := 0, trained := false, reanchor := false, locked := false, live := 0, hasAnchor := false }).loadTaps
  if x.set.mode = 0 then { y with st := lsOff }
  else if x.set.an then { y with st := lsAutoneg }
  else if y.trains then y.train now
  else y.align

/-- The lanes of a lane's group, this one among them. -/
def laneGroup (s : State) (l : Nat) : List Nat := groupLanes (laneOf s l).set

/-- A lane's position in its group. -/
def lanePosition (x : Lane) (l : Nat) : Nat := l - x.set.first

/-- Whether every lane of a port is UP (R178: a field port is a group). -/
def portUp (s : State) (first : Nat) : Bool :=
  let c := (laneOf s first).set
  c.mode != 0 && (groupLanes c).all (fun l => (laneOf s l).st == lsUp)

/-! Markers and maps (R167) -/

/-- An alignment marker's 64-bit block after its sync header: type 0xA5, position, map, version, zeros. -/
def markerBlock (position : Nat) (g : Graft) : Bytes :=
  [0xA5] ++ leBytes 1 position ++ leBytes 1 g.txMap ++ leBytes 1 g.mapVersion ++ zeros 4

/-- Whether a lane sends 64b/66b blocks, and so markers: in the transmit map or on its way back to it. -/
def Lane.sendsBlocks (x : Lane) : Bool :=
  x.st == lsUp || x.st == lsAligning || (x.st == lsRetraining && (x.trained || x.eq.fixed))

/-- Send a marker on every lane of a group that sends blocks (R167). -/
def sendMarkers (first : Nat) (s : State) : State :=
  ((laneGroup s first).filter (fun l => (laneOf s l).sendsBlocks || bitOf (graftOf s first).txMap (l - first))).foldl (fun t l =>
    emit (.marker l (markerBlock (l - first) (graftOf s first))) t) s

/-- The number of active lanes of a map. -/
def activeLanes (map : Nat) : Nat := (setBits 8 map).length

/-! Flits (Table 6.6) -/

/-- Whether a flit type is reliable (R162). -/
def flitReliable (kind : Nat) : Bool := decide (3 ≤ kind) && decide (kind ≤ 5)

/-- A flit's 256 bytes. -/
def flitBytes (g : Graft) (nak : Bool) (seq : Nat) (f : Flit) : Bytes :=
  let r := flitReliable f.kind
  let body := leBytes 1 f.kind ++ leBytes 1 (b2n r + 2 * b2n nak) ++ leBytes 1 (if r then seq else 0)
    ++ leBytes 1 g.lastRx ++ leBytes 1 g.rxMap ++ leBytes 1 g.mapVersion ++ leBytes 2 f.payload.length ++ fitTo 244 f.payload
  body ++ leBytes 4 (crc32 body)

/-- Put one flit on the line: it carries a NAK that is due (R163), and counts as sent. (DESIGN CHOICE, log entry 49) -/
def putFlit (first seq : Nat) (f : Flit) (s : State) : State :=
  let g := graftOf s first
  bump 2 (1024 + first * 8) (emit (.flit first (flitBytes g g.nak seq f)) (setGraft first { g with nak := false } s))

/-- The replay buffer's size (R163). -/
def replayWindow : Nat := 64

/-- Send new reliable flits while the replay buffer has room. -/
def sendWaiting (first : Nat) : Nat → State → State
  | 0, s => s
  | k + 1, s =>
    let g := graftOf s first
    match g.waiting with
    | [] => s
    | f :: rest =>
      if replayWindow ≤ g.held.length || g.txMap = 0 then s
      else
        let g' := { g with
          waiting := rest, held := g.held ++ [(g.nextSeq, f)], nextSeq := (g.nextSeq + 1) % 256
          progressAt := if g.held.isEmpty then dcNow s else g.progressAt }
        sendWaiting first k (putFlit first g.nextSeq f (setGraft first g' s))

/-- Give a flit to a group: POSITION and TIME go at once (R165), reliable flits in order behind the window. -/
def sendFlit (first : Nat) (f : Flit) (s : State) : State :=
  let g := graftOf s first
  if flitReliable f.kind then sendWaiting first 1 (setGraft first { g with waiting := g.waiting ++ [f] } s)
  else if g.txMap = 0 then s
  else putFlit first 0 f s

/-- Replay held flits from a place in the buffer on, in order. -/
def replayFrom (first : Nat) (held : List (Nat × Flit)) (s : State) : State :=
  bump 2 (1024 + first * 8 + 3) (held.foldl (fun t e => putFlit first e.1 e.2 t) s)

/-- Set a group's transmit map: a new version and markers when it changes (R167, R168); lanes of the group outside the
map show OUT_OF_MAP. -/
def setTxMap (first map : Nat) (s : State) : State :=
  let g := graftOf s first
  if g.txMap = map then s
  else
    let s1 := sendMarkers first (setGraft first { g with txMap := map, mapVersion := (g.mapVersion + 1) % 256 } s)
    (laneGroup s first).foldl (fun t l =>
      modLane l (fun x => x.flag flOutOfMap (decide (map != 0) && !bitOf map (l - first))) t) s1

/-- A lane pair leaves the map in both directions and goes to RETRAINING (R168): markers for the new map, one restripe and its events. A
NAK that is due goes with the next flit (R163). With the map empty the group is to fail (R170). -/
def restripeOut (l : Nat) (s : State) : State :=
  let x := laneOf s l
  let first := x.set.first
  let g := graftOf s first
  let bit := 2 ^ (l - first)
  let rx := if bitOf g.rxMap (l - first) then g.rxMap - bit else g.rxMap
  let tx := if bitOf g.txMap (l - first) then g.txMap - bit else g.txMap
  let s1 := setTxMap first tx (setGraft first { g with rxMap := rx } s)
  let s2 := modLane l (fun y => { y.flag flNoLock true with
    st := lsRetraining, trained := false, locked := false, tries := 0, readyRun := 0, trainStart := dcNow s
    reanchor := false }) s1
  if tx = 0 then s2 else
    let n := activeLanes tx
    let s3 := raise 0x0402 2 l n 0 (bump 2 (1024 + first * 8 + 5) s2)
    let s4 := if n < x.set.minLanes then raise 0x0403 2 first n 0 s3 else s3
    putFlit first 0 ⟨0, []⟩ s4

/-- Whether a Graft group runs. -/
def graftUp (s : State) (first : Nat) : Bool :=
  let g := graftOf s first
  (laneOf s first).set.mode == modeGraft && g.txMap != 0 && g.rxMap != 0 && !g.failed

end Sys2Proof.Machine
end

