-- ==== Sys2Proof/Machine/Heads.lean ====
section
/-! DEFINITION. Heads: their states and events, the control engine with its one outstanding command, connection, and what a
port's loss or return does to them (R184 to R187, R195, R196, R475). -/

namespace Sys2Proof.Machine

/-- A head. -/
def headOf (s : State) (h : Nat) : Head := tget {} s.cam.heads h

/-- Set a head. -/
def setHead (h : Nat) (x : Head) (s : State) : State := { s with cam := { s.cam with heads := tset {} s.cam.heads h x } }

/-- Change a head. -/
def modHead (h : Nat) (f : Head → Head) (s : State) : State := setHead h (f (headOf s h)) s

/-- A head's declaration in force: camera parts act on position (R46). -/
def headSet (s : State) (h : Nat) : HeadCfg := headCfg (posImage s) h

def hsOff : Nat := 0
def hsConnecting : Nat := 1
def hsReady : Nat := 2
def hsStreaming : Nat := 3
def hsDegraded : Nat := 4
def hsLost : Nat := 5

/-- A head counter. -/
def headCount (h k : Nat) (s : State) : State := bump 3 (h * 16 + k) s

/-- Whether a head streams, as Table 8.6 asks: a DEGRADED head does, through its other link. (DEDUCED, log entry 93) -/
def streaming (s : State) (h : Nat) : Bool := (headOf s h).st == hsStreaming || (headOf s h).st == hsDegraded

/-- The streams of a head that does not stream are IDLE once none of their lines is pending (Table 8.6). -/
def idleStreams (h : Nat) (s : State) : State :=
  if streaming s h then s
  else (headStreams (posImage s) h).foldl (fun t n =>
    let x : StreamSt := tget {} t.ing.streams n
    if x.unread.isEmpty then { t with ing := { t.ing with streams := tset {} t.ing.streams n { x with st := 0 } } } else t) s

/-- A head changes state: HEAD_STATE with the old and new state and the cause (R184, Table 7.13). -/
def headTo (h st cause : Nat) (s : State) : State :=
  let x := headOf s h
  if x.st = st then s
  else idleStreams h (raise 0x0501 1 h (x.st + 256 * st) cause (setHead h { x with st := st, since := dcNow s } s))

/-- Whether a head's control is held: proxy and schedules are taken (Table 7.8). -/
def headReady (s : State) (h : Nat) : Bool :=
  let st := (headOf s h).st
  st == hsReady || st == hsStreaming || st == hsDegraded

/-- The port of one of a head's interfaces. -/
def ifacePort (s : State) (h : Nat) (alt : Bool) : Nat :=
  let c := headSet s h
  if alt then c.alt.getD c.port else c.port

/-- The port that carries a head's control (Table 7.11). -/
def activePort (s : State) (h : Nat) : Nat := ifacePort s h (headOf s h).onAlt

/-! The control engine (R186) -/

/-- The GVCP command codes of the engine's own commands (GigE Vision 2.x). -/
def gvcpReadReg : Nat := 0x0080
def gvcpWriteReg : Nat := 0x0082
def gvcpPacketResend : Nat := 0x0040

/-- A big-endian 32-bit word of a GVCP payload. -/
def beWord (v : Nat) : Bytes := (leBytes 4 v).reverse

/-- The bootstrap registers the engine writes (GigE Vision 2.x): control privilege, message port and address, and for stream
channel k its port, packet size and destination address. (PRESUMED, log entry 50) -/
def regControl : Nat := 0x0A00
def regMessagePort : Nat := 0x0B00
def regMessageAddr : Nat := 0x0B10
def regExtended : Nat := 0x0954
def regChannelPort (k : Nat) : Nat := 0x0D00 + 0x40 * k
def regPacketSize (k : Nat) : Nat := 0x0D04 + 0x40 * k
def regChannelAddr (k : Nat) : Nat := 0x0D18 + 0x40 * k

/-- One register write of a head. -/
def writeJob (addr value : Nat) : CtlJob := ⟨0, 0, gvcpWriteReg, beWord addr ++ beWord value, none⟩

/-- The address of the port that a head's streams and messages go to, as a number. -/
def destination (img : Image) (h : Nat) : Nat := match portCfg img (headCfg img h).port with
  | some p => leNat p.ipv4.reverse
  | none => 0

/-- The writes that configure a stream's channel (R185). (PRESUMED, log entry 50) -/
def channelJobs (img : Image) (n : Nat) : List CtlJob := match streamCfg img n with
  | some d => [writeJob (regChannelAddr d.index) (destination img d.head), writeJob (regChannelPort d.index) d.channel,
      writeJob (regPacketSize d.index) 16000]
  | none => []

/-- The connection's steps, in R185's order: control, extended IDs and whether the head has them, each stream channel, the message
channel. (PRESUMED, log entry 50) -/
def connectJobs (img : Image) (h : Nat) : List CtlJob :=
  [writeJob regControl 2, writeJob regExtended 1, ⟨0, 0, gvcpReadReg, beWord regExtended, none⟩]
    ++ (headStreams img h).flatMap (channelJobs img)
    ++ [writeJob regMessageAddr (destination img h), writeJob regMessagePort 3957]

/-- Send the outstanding command of a head, once or again. -/
def sendControl (h : Nat) (o : CtlOut) (s : State) : State :=
  let x := headOf s h
  if (headSet s h).protocol = 2 then
    emit (.cxpControl h (decide (o.job.command = 1)) (fld o.job.payload 0 4) o.reqId (o.job.payload.drop 4)) s
  else
    let alt := o.job.via.getD x.onAlt
    sendFrame (ifacePort s h alt) (.gvcp h alt o.job.command o.reqId o.job.payload) s

/-- Whether a job is a scheduled write: it goes before a proxied command that is ready at once (R186). -/
def jobFirst (j : CtlJob) : Bool := j.tag == 2

/-- The job a head sends next, and the rest. -/
def takeJob (l : List CtlJob) : Option (CtlJob × List CtlJob) :=
  match l.find? jobFirst with
  | some j => some (j, l.erase j)
  | none => match l with
    | [] => none
    | j :: t => some (j, t)

/-- Send the next command of a head that has none outstanding. -/
def nextControl (h : Nat) (s : State) : State :=
  let x := headOf s h
  if x.out.isSome then s else
  match takeJob x.jobs with
  | none => s
  | some (j, rest) =>
    let o : CtlOut := ⟨j, x.nextReq, 1, dcNow s⟩
    let s1 := setHead h { x with jobs := rest, out := some o, nextReq := if x.nextReq = 65535 then 1 else x.nextReq + 1 } s
    let s2 := if j.tag = 2 then headCount h 13 s1 else s1
    sendControl h o s2

/-- Give a head a command. -/
def addJob (h : Nat) (j : CtlJob) (s : State) : State := nextControl h (modHead h (fun x => { x with jobs := x.jobs ++ [j] }) s)

/-- Begin a connection attempt (R185), on the alternate interface while only that one's port is up (R195). A CoaXPress head has nothing
to connect. -/
def beginConnect (h : Nat) (s : State) : State :=
  let c := headSet s h
  let onAlt := !portUp s c.port && (match c.alt with | some a => portUp s a | none => false)
  let kept := (headOf s h).jobs.filter (fun j => j.tag != 0 && j.tag != 1)
  let s1 := modHead h (fun x => { x with
    jobs := (if c.protocol = 1 then connectJobs (posImage s) h else []) ++ kept
    out := match x.out with
      | some o => if o.job.tag ≤ 1 then none else some o
      | none => none
    missed := 0, onAlt := onAlt, silent := if onAlt then [0] else [], primarySince := none, heard := dcNow s }) s
  nextControl h s1

/-- A head enters CONNECTING. -/
def headConnect (h cause : Nat) (s : State) : State :=
  beginConnect h (headTo h hsConnecting cause (modHead h (fun x => { x with tries := 0 }) s))

/-- A schedule leaves a head without a switch; a sent one keeps nothing (R200). -/
def dropSched (h id : Nat) (s : State) : State :=
  modHead h (fun x => { x with
    schedules := x.schedules.filter (fun c => c.id != id)
    jobs := x.jobs.filter (fun j => !(j.tag == 2 && j.ref == id)) }) s

/-- A schedule fails (R200); one that has ended already has had its event. -/
def failSched (h id : Nat) (s : State) : State :=
  let t := dropSched h id s
  if (headOf s h).schedules.any (fun c => c.id == id) then raise 0x0509 2 h id 0 t else t

/-- End a proxied command: the request the Headstock holds for it (`ref` 0), or its ticket (R187). (DESIGN CHOICE, log entry 51) -/
def proxyEnd (h ref status : Nat) (payload : Bytes) (respOk : Bool) (s : State) : State :=
  if ref != 0 then endTicket ref status payload respOk s
  else if !s.mbx.answering then s
  else match s.mbx.hold with
    | some k => if k.head = h then
        let s1 := { s with mbx := { s.mbx with hold := none } }
        complete k.req respOk s1 ⟨status, payload, 0, s1⟩ else s
    | none => s

/-- A head's commands, the outstanding one first. -/
def headJobs (x : Head) : List CtlJob := (match x.out with | some o => [o.job] | none => []) ++ x.jobs

/-- What is left of a head's commands ends without an answer: schedules fail, proxied commands find the head not ready. -/
def endJobs (h : Nat) (l : List CtlJob) (s : State) : State :=
  l.foldl (fun t j =>
    if j.tag = 2 then failSched h j.ref t else if 3 ≤ j.tag then proxyEnd h j.ref 0x41 [] true t else t) s

/-- A head is lost: its outstanding command and what waits end without an answer. -/
def headLost (h cause : Nat) (s : State) : State :=
  let x := headOf s h
  endJobs h (headJobs x) (headTo h hsLost cause (setHead h { x with out := none, jobs := [], align := none, realign := none } s))

/-! Ports -/

/-- A head on a port that came up, while OFF or CONNECTING (Table 7.3). -/
def headPortUp (port h : Nat) (s : State) : State :=
  let x := headOf s h
  if x.st = hsOff then headConnect h 0 s
  else if x.st = hsConnecting && (headSet s h).port = port && x.out.isNone then beginConnect h s
  else s

/-- A field port comes up. -/
def portCameUp (port : Nat) (s : State) : State :=
  (portHeads (posImage s) port).foldl (fun t h => headPortUp port h t) s

/-- A head on a port that went down: a redundant head goes on through its other port, DEGRADED, or connects there; any other is LOST
(R195, R196, Table 7.3). -/
def headPortDown (port h : Nat) (s : State) : State :=
  let x := headOf s h
  let c := headSet s h
  if x.st = hsOff || x.st = hsLost then s
  else
    let which := if c.port = port then 0 else 1
    let other := if c.port = port then c.alt else some c.port
    let alive := match other with | some p => portUp s p && !x.silent.contains (1 - which) | none => false
    if !alive then headLost h 5 s
    else if x.st = hsConnecting then (if x.onAlt == (which == 1) then beginConnect h s else s)
    else
      let s1 := raise 0x0502 2 h port 0 (setHead h { x with
        align := if x.st = hsReady then none else x.align, alignFrom := if x.st = hsReady then 0 else x.alignFrom
        onAlt := if which = 0 then true else false
        silent := if x.silent.contains which then x.silent else x.silent ++ [which], primarySince := none } s)
      headTo h hsDegraded 9 s1

/-- A field port goes down. -/
def portWentDown (port : Nat) (s : State) : State :=
  (portHeads (posImage s) port).foldl (fun t h => headPortDown port h t) s

/-- Whether a port carries a declared head. -/
def portCarriesHead (s : State) (port : Nat) : Bool := !(portHeads (posImage s) port).isEmpty

/-! Commits (R184, R200) -/

/-- A commit changes a head's setting: its schedules are flushed, what waits ends, and the head begins anew; with another trigger unit no
record of that has been claimed. -/
def headRenew (old new : Image) (h : Nat) (s : State) : State :=
  let x := headOf s h
  let s0 := x.schedules.foldl (fun t c => raise 0x050A 1 h c.id 0 (dropSched h c.id t)) s
  let left := (headJobs (headOf s0 h)).filter (fun j => j.tag != 2)
  let s1 := endJobs h left (modHead h (fun y => { y with
    out := none, jobs := [], align := none, realign := none, onAlt := false, silent := []
    claimed := if (headCfg old h).unit = (headCfg new h).unit then y.claimed else none }) s0)
  if !headOn new h then headTo h hsOff 0 s1
  else if x.st = hsOff && !((headPorts (headCfg new h)).any (portUp s)) then s1
  else headConnect h 0 s1

/-- A commit changes some streams of a head only: a head that holds control configures those channels, one that connects begins
again. -/
def channelsRenew (old new : Image) (h : Nat) (s : State) : State :=
  let moved := (headStreams new h).filter (fun n => tfind old (settingKey 0x0302 n) != tfind new (settingKey 0x0302 n))
  if moved.isEmpty || (headCfg new h).protocol != 1 then s
  else if (headOf s h).st = hsConnecting then beginConnect h s
  else if headReady s h then (moved.flatMap (channelJobs new)).foldl (fun t j => addJob h j t) s
  else s

/-- What a commit does to a head at its position. -/
def headCommit (old new : Image) (h : Nat) (s : State) : State :=
  if tget (headReset h) old (settingKey 0x0301 h) != tget (headReset h) new (settingKey 0x0301 h) then headRenew old new h s
  else if headOn new h then channelsRenew old new h s
  else s

/-- What a commit does to the heads and their streams. -/
def camCommit (old new : Image) (s : State) : State := (List.range 48).foldl (fun t h => headCommit old new h t) s

end Sys2Proof.Machine
end

