-- ==== Sys2Proof/Machine/Marks.lean ====
section
/-! DEFINITION. Marks and ACT outputs (R105 to R109). -/

namespace Sys2Proof.Machine

/-- The mark queue's entries (R106). -/
def markRoom : Nat := 4096

/-- Put a new mark list in place. -/
def setMarks (m : List Mark) (s : State) : State := { s with trig := { s.trig with marks := m } }

/-- Whether an ACT output is disabled: ENABLE clear, no setting, its bank DISABLED (R108), or in its cold-start state (R425). -/
def actDisabled (s : State) (a : Nat) : Bool :=
  s.fault.stop || !(actCfg (posImage s) a).enable || bankStd (posImage s) (a / 8) == 0

/-- The level of an ACT pin: low in a disabled bank (R454); at the active level that its oldest asserted mark has (R109); else inactive,
and low where the output is disabled. -/
def actLevel (s : State) (a : Nat) : Bool :=
  if s.fault.stop || bankStd (posImage s) (a / 8) = 0 then false
  else match (s.trig.marks.filter (fun m => m.act == a)).findSome? (·.asserted) with
    | some (_, _, low) => !low
    | none => (actCfg (posImage s) a).enable && (actCfg (posImage s) a).activeLow

/-- Drive an ACT pin: the output is active while any of its marks is asserted (R106). -/
def driveAct (a : Nat) (s : State) : State :=
  let on := s.trig.marks.any (fun m => m.act == a && m.asserted.isSome)
  drivePin (256 + a) (actLevel s a) (psNow s) { s with trig := { s.trig with acts := tset false s.trig.acts a on } }

/-- Replace the first mark that satisfies a test, or drop it. -/
def replaceFirst (test : Mark → Bool) (f : Mark → Option Mark) : List Mark → List Mark
  | [] => []
  | m :: t => if test m then (match f m with | some x => x :: t | none => t) else m :: replaceFirst test f t

/-- A mark asserts, or is discarded and counted when its output is disabled (R108, R109). (DEDUCED, log entry 43) -/
def assertOne (m : Mark) (s : State) : State :=
  if actDisabled s m.act then
    bump 5 577 (setMarks (replaceFirst (· == m) (fun _ => none) s.trig.marks) s)
  else
    let m' := { m with asserted := some (dcNow s, (actCfg (posImage s) m.act).widthUs, (actCfg (posImage s) m.act).activeLow) }
    let s1 := bump 5 (512 + m.act * 4) (setMarks (replaceFirst (· == m) (fun _ => some m') s.trig.marks) s)
    driveAct m.act (if m.late then bump 5 (512 + m.act * 4 + 1) s1 else s1)

/-- Schedule a mark (R108): behind, then queue room. Answers whether it is kept, and why not: 1 rejected as behind,
2 no entry. (DEDUCED, log entry 43) -/
def scheduleMark (act : Nat) (length : Bool) (a d : Int) (fireLate : Bool) (region : Nat) (s : State) : Nat × State :=
  let behind := decide (a ≤ s.trig.high)
  let s1 := if behind then raise 0x0202 2 act region a s else s
  if behind && !fireLate then (1, bump 5 (512 + act * 4 + 2) s1)
  else if markRoom ≤ s1.trig.marks.length then (2, raise 0x0203 2 act region 0 (bump 5 577 s1))
  else
    let m : Mark := ⟨act, length, a, d, region, behind, none⟩
    let s2 := setMarks (s1.trig.marks ++ [m]) s1
    (0, if behind then assertOne m s2 else s2)

/-- MARK_ASSERT: the oldest pending mark whose assertion position the high-water mark has reached asserts (R106). -/
def markAssert (s : State) : State :=
  match s.trig.marks.find? (fun m => m.asserted.isNone && decide (m.assertAt ≤ s.trig.high)) with
  | some m => assertOne m s
  | none => s

/-- Row MARK_ASSERT. -/
def execMarkAssert (s : State) : Host.Outcome State Fault Refusal := done (markAssert s)

/-- Whether an asserted mark's end has come: width_us has passed and, in LENGTH mode, the spindle position has reached
the deassertion position (R106). A late LENGTH mark whose deassertion position is at or below H lasts width_us alone
(R108), so the highest position reached decides. -/
def markEnds (s : State) (m : Mark) : Bool := match m.asserted with
  | some (t, w, _) => decide (usTicks w ≤ since s t) && (!m.length || decide (m.deassertAt ≤ s.trig.high))
  | none => false

/-- MARK_DEASSERT: the oldest asserted mark whose end has come deasserts and gives its entry back. -/
def markDeassert (s : State) : State :=
  match s.trig.marks.find? (markEnds s) with
  | some m => driveAct m.act (setMarks (replaceFirst (· == m) (fun _ => none) s.trig.marks) s)
  | none => s

/-- Row MARK_DEASSERT. -/
def execMarkDeassert (s : State) : Host.Outcome State Fault Refusal := done (markDeassert s)

/-- ACT_CUT: the strip reverses, every asserted LENGTH mark deasserts at once and is discarded (R106). -/
def actCut (s : State) : State :=
  let cut := s.trig.marks.filter (fun m => m.length && m.asserted.isSome)
  if cut.isEmpty then s else
    let s1 := setMarks (s.trig.marks.filter (fun m => !(m.length && m.asserted.isSome))) s
    cut.foldl (fun t m => driveAct m.act (bump 5 (512 + m.act * 4 + 3) t)) s1

/-- TRIG.MARK_ADD (R109). -/
def markAdd (s : State) (_q : Req) (p : Bytes) : Reply :=
  let a := fld p 0 1
  let len := (actCfg (posImage s) a).length
  let on := sfld p 8 8
  let off := sfld p 16 8
  if !(fieldsOk p [⟨0, 1, 0, 15, false⟩, ⟨1, 1, 0, 1, false⟩] [(2, 6)])
      || !(if len then decide (on < off) else off == 0) then reply stBadArg s
  else match scheduleMark a len on off (fld p 1 1 == 1) 0 s with
    | (0, t) => reply stOk t
    | (1, t) => reply stBehind t
    | (_, t) => reply 0x46 t

/-- Row TRIG_MARK_ADD. -/
def execTrigMarkAdd (io : HostIo) (s : State) : Host.Outcome State Fault Refusal :=
  done (serve { code := 0x0515, len := some 24 } io markAdd s)

end Sys2Proof.Machine
end

