-- ==== Sys2Proof/Machine/TrelPos.lean ====
section
/-! DEFINITION. The trellis position: P(t) from the master's samples, what a device absorbs after isolation, and what a compare unit
sees of it (R369 to R371). -/

namespace Sys2Proof.Machine

/-- The lag L in ticks (R370). -/
def lagTicks (s : State) : Rat := ((16 * s.trel.lag : Nat) : Rat)

/-- The lag that a sample carries, in ticks: a new L takes effect with the first sample that carries it (R370). -/
def Sample.lagTicks (k : Sample) : Rat := ((16 * k.lag : Nat) : Rat)

/-- The sample that P(t) uses at a tick: the newest one that is at least L old (R370). -/
def sampleUsed (s : State) (t : Rat) : Option Sample := s.trel.samples.find? (fun k => decide (k.at' ≤ t - k.lagTicks))

/-- nm travelled at a speed in µm/s over some ticks of 1.6 ns. -/
def travelOver (speed : Int) (ticks : Rat) : Rat := (speed : Rat) * ticks * 16 / 10000000

/-- P(t), none before the first sample applies (R370). (DESIGN CHOICE, log entry 69) -/
def trellisAt (s : State) (t : Rat) : Option Rat :=
  (sampleUsed s t).map (fun k => (k.position : Rat) + travelOver k.speed (t - k.lagTicks - k.at'))

/-- Whether this device takes its position from the trellis: a member or the master. -/
def followsTrellis (s : State) : Bool := s.trel.st == 2 || s.trel.st == 3

/-- A device that isolated takes samples again: it does not step, and absorbs the difference e (R369). -/
def rejoin (p : Int) (s : State) : State := match s.trel.frozen with
  | none => s
  | some f => raise 0x0A04 1 0 (f - p) 0 { s with trel := { s.trel with frozen := none, absorb := f - p, absorbTravel := 0 } }

/-- A difference moves towards 0 by one nm per 16 nm of forward travel: the remainder and the travel carried over (R72, R369). -/
def absorbOver (rest : Int) (carried : Nat) (travel : Int) : Int × Nat :=
  if rest = 0 then (0, 0)
  else
    let acc := carried + travel.toNat
    let k : Int := ((acc / 16 : Nat) : Int)
    (if 0 < rest then (if rest ≤ k then 0 else rest - k) else (if -rest ≤ k then 0 else rest + k), acc % 16)

/-- A spindle update in a formed trellis: the position is P(t) with what is still to be absorbed; an isolated device stands still.
(DESIGN CHOICE, log entry 69) -/
def trelUpdate (s : State) : State :=
  if s.trel.st = 4 then { s with pos := { s.pos with sp := { s.pos.sp with pos := s.trel.frozen.getD s.pos.sp.pos, speed := 0 } } }
  else match sampleUsed s (dcNow s), trellisAt s (dcNow s) with
    | some k, some q =>
      let p := freeRound q
      let s1 := rejoin p s
      let last := s1.pos.sp.pos - s1.trel.absorb
      let a := absorbOver s1.trel.absorb s1.trel.absorbTravel (p - last)
      let stale := s1.trel.posStale && !decide (s1.trel.staleFrom < k.at')
      { s1 with
        trel := { s1.trel with absorb := a.1, absorbTravel := a.2, posStale := stale }
        pos := { s1.pos with sp := { s1.pos.sp with
          pos := p + a.1, speed := if s1.trel.st = 2 then k.speed else s1.pos.sp.speed } } }
    | _, _ => s

/-- The position that compare units act on at this tick: P(t + 1.6 ns) in a formed trellis, else the spindle position (R371). -/
def comparePos (s : State) : Int :=
  if followsTrellis s && s.trel.frozen.isNone then
    match trellisAt s (dcNow s + 1) with
    | some q => freeRound q + s.trel.absorb
    | none => s.pos.sp.pos
  else s.pos.sp.pos

/-- The crossing instant of a value within the coming tick as codes of 10 ps, 0 to 160 (R371). -/
def crossCodes (s : State) (v : Int) : Nat :=
  if !(followsTrellis s && s.trel.frozen.isNone) then 0
  else match trellisAt s (dcNow s), trellisAt s (dcNow s + 1) with
    | some a, some b =>
      let f := ((v - s.trel.absorb : Int) : Rat) - a
      if b ≤ a || f ≤ 0 then 0 else min 160 (f / (b - a) * 160 + 1 / 2).floor.toNat
    | _, _ => 0

/-- Whether the trellis makes triggers, rows and records degraded (R369, R375, R380): samples are missing, a difference is being absorbed, or
the sample in use says that its origin is on its alternate channel, detached or uncertain. -/
def trelDegraded (s : State) : Bool :=
  (followsTrellis s && (s.trel.posStale || s.trel.absorb != 0 || s.trel.estateAbsorb != 0 || (match sampleUsed s (dcNow s) with
    | some k => bitOf k.flags 0 || bitOf k.flags 3
    | none => false))) || s.trel.st == 4

end Sys2Proof.Machine
end

