-- ==== Sys2Proof/Machine/Pos.lean ====
section
/-! DEFINITION. Encoder channels, the spindle position, dividers, emulators and GP inputs (chapter 3). -/

namespace Sys2Proof.Machine

/-! Access -/

/-- A channel's state. -/
def chan (s : State) (ch : Nat) : Chan := tget {} s.pos.chans ch

/-- A channel's settings in force. -/
def chanSet (s : State) (ch : Nat) : ChanCfg := chanCfg (posImage s) ch

/-- The spindle settings in force. -/
def spinSet (s : State) : SpinCfg := spinCfg (posImage s)

/-- The live flags of a channel (Table 3.4, R84). -/
def liveFlags (c : Chan) : Nat :=
  b2n c.stale + 2 * b2n c.uncertain + 4 * b2n c.deadA + 8 * b2n c.deadB + 16 * b2n (c.deadZ || c.stuckZ)
    + 32 * b2n c.hallInvalid + 64 * b2n c.ssiErrAt.isSome + 128 * b2n c.overspeedAt.isSome
    + 256 * b2n c.quadErrAt.isSome + 512 * b2n c.indexDev + 1024 * b2n c.failed

/-- Put a channel's state back: a sticky bit is set whenever its live bit is (R84). -/
def setChan (ch : Nat) (c : Chan) (s : State) : State :=
  let c' := { c with sticky := c.sticky ||| liveFlags c }
  { s with pos := { s.pos with chans := tset {} s.pos.chans ch c' } }

/-- Change a channel's state. -/
def modChan (ch : Nat) (f : Chan → Chan) (s : State) : State := setChan ch (f (chan s ch)) s

/-- Change the spindle. -/
def modSpin (f : Spindle → Spindle) (s : State) : State := { s with pos := { s.pos with sp := f s.pos.sp } }

/-- A count kept to 48 bits signed (R64). -/
def wrap48 (v : Int) : Int := signedOf 48 (patternOf 48 v)

/-- The difference of two raw counts, right across the wrap. -/
def countDiff (a b : Int) : Int := wrap48 (a - b)

/-- The scale in force for a channel: master's or alternate's. R79 gives no other channel a scale: theirs is 0, and so the speed that is
measured of them. (DESIGN CHOICE, log entry 96) -/
def scaleOf (s : State) (ch : Nat) : Nat :=
  let c := spinSet s
  if c.master = some ch then c.masterScale else if c.alternate = some ch then c.alternateScale else 0

/-- Counts scaled to nm, rounded down (R74). -/
def scaled (counts : Int) (scale : Nat) : Int := counts * (scale : Int) / 2 ^ 32

/-- The raw count of a channel takes a value, kept to 48 bits. What is measured from it is carried over the wrap (R64, R74). -/
def putCount (ch : Nat) (v : Int) (s : State) : State :=
  let by' := wrap48 v - v
  let s1 := modChan ch (fun c => { c with count := wrap48 v, commitCount := c.commitCount + by' }) s
  if s.pos.sp.active == some ch then modSpin (fun sp => { sp with baseCount := sp.baseCount + by' }) s1 else s1

/-- A raw count is changed without travel: the counts from which slip and stall are measured change with it (R75, R78). -/
def moveBaselines (ch : Nat) (by' : Int) (s : State) : State :=
  let cfg := spinSet s
  let m : Int := if cfg.master == some ch then by' else 0
  let a : Int := if cfg.alternate == some ch then by' else 0
  modSpin (fun sp => { sp with
    slipWin := sp.slipWin.map (fun w => { w with master0 := w.master0 + m, alternate0 := w.alternate0 + a })
    altAtMaster := sp.altAtMaster + a, masterAtAlt := sp.masterAtAlt + m }) s

/-! The position as it stands (R67, R74, R76) -/

/-- The direction of motion of a channel: that of its speed, or at speed 0 of its last count. -/
def forwardMotion (c : Chan) : Bool := if 0 < c.speed then true else if c.speed < 0 then false else !c.backward

/-- The position a spindle update gives: the target; while an SSI channel drives it, extrapolated between samples from the last measured
speed, held while the last sample lies behind it, and never moved back against the direction of motion (R67). -/
def spinNewUnder (img : Image) (s : State) : Int :=
  let sp := s.pos.sp
  match sp.active with
  | none => sp.pos
  | some ch =>
    let c := chan s ch
    if (chanCfg img ch).mode != 3 || sp.frozen then sp.target
    else if sp.held then sp.pos
    else match sp.sampleDc with
      | none => sp.target
      | some t =>
        let x := sp.target + c.speed * ((since s t : Nat) : Int) / 625000
        if forwardMotion c then max sp.pos x else min sp.pos x

/-- The same under the configuration in force. -/
def spinNew (s : State) : Int := spinNewUnder (posImage s) s

/-- The position of this device's own channel as it stands under a configuration: at a commit, under the one that the commit ends
(R64, R474). -/
def standingUnder (img : Image) (s : State) : Int := if followsTrellis s || s.trel.st == 4 then s.pos.sp.target else spinNewUnder img s

/-- The position of this device's own channel as it stands. -/
def standing (s : State) : Int := standingUnder (posImage s) s

/-! Failure (R75 to R77) -/

/-- Whether the active channel is failed and nothing takes its place: the master with no alternate that is not failed, or the alternate
itself (R75). -/
def mustFreeze (s : State) : Bool := match s.pos.sp.active with
  | none => false
  | some ch =>
    let cfg := spinSet s
    let other := cfg.master == some ch && (match cfg.alternate with | some a => !(chan s a).failed | none => false)
    (chan s ch).failed && !other

/-- The spindle position freezes where it stands (R75). -/
def freeze (s : State) : State :=
  if mustFreeze s && !s.pos.sp.frozen then
    let p := standing s
    modSpin (fun sp => { sp with frozen := true, target := p, sampleDc := none, held := false }) s
  else s

/-- A failure condition of Table 3.3 is raised on a channel: it is FAILED; as a pending return's master it cancels the
return; as the active channel with no healthy other it freezes the spindle position. A failed master goes on driving the position until
the alternate's next count (R76). -/
def failChan (ch : Nat) (s : State) : State :=
  let s1 := modChan ch (fun c => { c with failed := true, failedAt := some (dcNow s) }) s
  let cfg := spinSet s1
  if cfg.master == some ch || cfg.alternate == some ch then
    freeze (modSpin (fun sp => { sp with
      restorePending := sp.restorePending && cfg.master != some ch, slipWin := none }) s1)
  else s1

/-- An event that counts towards the error burst: OVERSPEED, QUAD_ERR and HALL_INVALID events that together reach
error_fail_limit within 1 ms fail the channel (Table 3.3). With `unsure` it sets UNCERTAIN. -/
def burstEvent (ch : Nat) (unsure : Bool) (s : State) : State :=
  let t := dcNow s
  let s1 := modChan ch (fun c => { c with
    burst := t :: c.burst.filter (fun u => decide (ticksFrom u t < msTicks 1)), uncertain := c.uncertain || unsure }) s
  let lim := (chanSet s ch).failLimit
  if 0 < lim && lim ≤ (chan s1 ch).burst.length then failChan ch s1 else s1

/-- QUAD_ERR (R64, R65): it sets UNCERTAIN in QUADRATURE alone. -/
def quadErr (ch : Nat) (s : State) : State :=
  burstEvent ch ((chanSet s ch).mode == 1) (bump 4 (ch * 16 + 1) (modChan ch (fun c => { c with quadErrAt := some (dcNow s) }) s))

/-! Failover, return and slip (R76 to R78) -/

/-- Rebase the spindle on a channel without a step: base_pos is the position given, base_count the channel's
raw count (R76), or that of its first valid sample where an SSI channel has had none (R67). A RE_ZERO correction not yet absorbed is
dropped. -/
def rebaseAt (p : Int) (ch : Nat) (s : State) : State :=
  let ssi := (chanSet s ch).mode == 3
  let sampled := (chan s ch).ssiPrev.isSome
  modSpin (fun sp => { sp with
    active := some ch, basePos := p, target := p, baseCount := (chan s ch).count, corr := 0, absorbStep := 0
    firstCount := ssi && !sampled, frozen := false, held := false, sampleDc := if ssi && sampled then some (dcNow s) else none }) s

/-- Rebase it where it stands. -/
def rebaseOn (ch : Nat) (s : State) : State := rebaseAt (standing s) ch s

/-- The master has failed, the alternate is configured and healthy and makes its next count: fail over (R76). The dropped correction is
reported positive where the position still lags the corrected count. (DESIGN CHOICE, log entry 97) -/
def failover (m a : Nat) (s : State) : State :=
  let sp := s.pos.sp
  let lost := scaled (countDiff (chan s a).count sp.altAtMaster) (scaleOf s a)
  let rest := scaled (-sp.corr) (scaleOf s m)
  let s1 := modSpin (fun q => { q with
    altActive := true, failovers := q.failovers + 1, lostTravel := lost,
    failoverDc := dcNow s, unabsorbed := rest, windowsSince := 0, lastInTol := false, slipWin := none,
    restorePending := false }) (rebaseOn a s)
  raise 0x0101 2 (m + a * 256) lost rest (bump 4 256 s1)

/-- Whether the master has failed with a healthy alternate waiting for its next count. -/
def failoverDue (s : State) (ch : Nat) : Option Nat :=
  let cfg := spinSet s
  match cfg.master, cfg.alternate with
  | some m, some a =>
    if ch = a && s.pos.sp.active == some m && (chan s m).failed && !(chan s a).failed then some m else none
  | _, _ => none

/-- A slip window's value in ppm, half away from zero (R78): travels in counts × scale. -/
def slipPpm (mc ac : Int) (ms as : Nat) : Int := roundAway ((ac * (as : Int) - mc * (ms : Int)) * 1000000) (mc * (ms : Int))

/-- Slip windows at a count of a channel (R78): a window is abandoned while either channel is STALE or turns; it ends
when the master has travelled slip_window_nm; the next starts at the first master count with both healthy. (DEDUCED, log entry 42) -/
def slipStep (ch : Nat) (s : State) : State :=
  let cfg := spinSet s
  match cfg.master, cfg.alternate with
  | some m, some a =>
    let cm := chan s m
    let ca := chan s a
    let barred := cm.stale || ca.stale || cm.failed || ca.failed
    let opened : SlipWin := ⟨cm.count, ca.count, cm.backward, ca.backward⟩
    match s.pos.sp.slipWin with
    | none => if ch = m && !barred then modSpin (fun sp => { sp with slipWin := some opened }) s else s
    | some w =>
      if barred || cm.backward != w.masterBack || ca.backward != w.alternateBack then
        modSpin (fun sp => { sp with slipWin := if ch = m && !barred then some opened else none }) s
      else
        let dm := countDiff cm.count w.master0
        let da := countDiff ca.count w.alternate0
        if ch = m && decide (cfg.slipWindow * 2 ^ 32 ≤ dm.natAbs * cfg.masterScale) then
          let v := slipPpm dm da cfg.masterScale cfg.alternateScale
          let out := decide (cfg.slipTol < v.natAbs)
          let s1 := modSpin (fun sp => { sp with
            lastSlip := v, windowsSince := sp.windowsSince + 1, lastInTol := !out,
            slipWin := some opened, slip := sp.slip || out }) s
          if out then
            let s2 := raise 0x0102 1 (m + a * 256) v 0 (bump 4 257 s1)
            if cfg.failoverOnSlip then failChan m s2 else s2
          else s1
        else s
  | _, _ => s

/-- The stall condition of Table 3.3 at a count of one channel of the pair: the other has made no count while this
one travelled stall_distance_nm. -/
def stallStep (ch : Nat) (s : State) : State :=
  let cfg := spinSet s
  match cfg.master, cfg.alternate with
  | some m, some a =>
    if ch = m then
      let s1 := modSpin (fun sp => { sp with altAtMaster := (chan s a).count }) s
      if cfg.stallDistance * 2 ^ 32 ≤ (countDiff (chan s m).count s.pos.sp.masterAtAlt).natAbs * cfg.masterScale
      then failChan a s1 else s1
    else if ch = a then
      let s1 := modSpin (fun sp => { sp with masterAtAlt := (chan s m).count }) s
      if cfg.stallDistance * 2 ^ 32 ≤ (countDiff (chan s a).count s.pos.sp.altAtMaster).natAbs * cfg.alternateScale
      then failChan m s1 else s1
    else s
  | _, _ => s

/-! Counting -/

/-- One step of a divider: the accumulator takes m per source count and the output steps at n (R81). -/
def divStep (fwd : Bool) (m n : Nat) (d : DivOut) : DivOut :=
  if fwd then
    if n ≤ d.acc + m then { acc := d.acc + m - n, phase := (d.phase + 1) % 4 } else { d with acc := d.acc + m }
  else
    if d.acc < m then { acc := d.acc + n - m, phase := (d.phase + 3) % 4 } else { d with acc := d.acc - m }

/-- `k` counts through a divider: its pins step with it. -/
def divSteps (d : Nat) (fwd : Bool) (m n : Nat) : Nat → State → State
  | 0, s => s
  | k + 1, s =>
    let x := divStep fwd m n (tget {} s.pos.divs d)
    divSteps d fwd m n k (driveQuad (1024 + 2 * d) x.phase (psNow s) { s with pos := { s.pos with divs := tset {} s.pos.divs d x } })

/-- The dividers that follow a channel take its counts (R81). -/
def divsFollow (ch : Nat) (delta : Int) (s : State) : State :=
  (List.range 16).foldl (fun s d =>
    let c := divCfg (posImage s) d
    if c.enable && c.source == ch && !s.fault.stop then divSteps d (decide (0 < delta)) c.m c.n delta.natAbs s else s) s

/-- Move the RE_ZERO correction towards 0 by one per 16 counts of forward travel (R72). (DEDUCED, log entry 42) -/
def absorb (fwd : Int) (sp : Spindle) : Spindle :=
  if sp.corr = 0 || fwd ≤ 0 then sp else
    let n := sp.absorbStep + fwd.natAbs
    let k := min (n / 16) sp.corr.natAbs
    { sp with absorbStep := if k = sp.corr.natAbs then 0 else n % 16
              corr := if 0 < sp.corr then sp.corr - k else sp.corr + k }

/-- The position the counts of the active channel give (R74). -/
def spinTarget (s : State) (ch : Nat) (sp : Spindle) : Int :=
  sp.basePos + scaled ((chan s ch).count + sp.corr - sp.baseCount) (scaleOf s ch)

/-- The active channel has made counts: the first after the selection sets base_count and leaves the position
(R74); any other moves the position, unless it is frozen. (DEDUCED, log entry 42) -/
def spinFollow (ch : Nat) (delta : Int) (s : State) : State :=
  let sp := s.pos.sp
  if sp.active != some ch || sp.frozen then s
  else if sp.firstCount then
    modSpin (fun q => { q with firstCount := false, basePos := q.target, baseCount := (chan s ch).count, corr := 0 }) s
  else
    let sp1 := absorb delta sp
    modSpin (fun _ => { sp1 with target := spinTarget s ch sp1 }) s

/-- A channel makes `delta` counts at tick `t` (delta not 0): the count, the times for speed, STALE clears, dividers,
failover, return, slip, stall and the spindle follow; a backward count of the active channel cuts LENGTH marks where it drives the position (R106). -/
def countStep (ch : Nat) (delta : Int) (t : Nat) (s : State) : State :=
  let s1 := modChan ch (fun c => { c with
    stale := false, lastCountDc := t, staleFrom := t, backward := decide (delta < 0)
    countTimes := (t :: c.countTimes).take 7
    window := (t, delta) :: c.window.filter (fun e => decide (ticksFrom e.1 t < 2 ^ 20)) }) (putCount ch ((chan s ch).count + delta) s)
  let reverses := s1.pos.sp.active == some ch && decide (delta < 0) && !followsTrellis s1
  let s2 := divsFollow ch delta (if reverses then actCut s1 else s1)
  let s3 := match failoverDue s2 ch with
    | some m => failover m ch s2
    | none =>
      if s2.pos.sp.restorePending && (spinSet s2).master == some ch then
        modSpin (fun sp => { sp with altActive := false, restorePending := false }) (rebaseOn ch s2)
      else spinFollow ch delta s2
  stallStep ch (slipStep ch s3)

/-! Index checking (R71 to R73) -/

/-- Record a checked Z edge in the 16-entry history (R73). -/
def indexRecord (ch : Nat) (c d : Int) (outcome : Nat) (s : State) : State :=
  modChan ch (fun x => { x with zEdges := x.zEdges + 1
                                history := lastN 16 (x.history ++ [⟨c, d, outcome, (x.zEdges + 1) % 65536⟩]) }) s

/-- The deviation of R71: from the nearest multiple of index_period around the reference, half away from zero. -/
def indexDeviation (c r : Int) (period : Nat) : Int :=
  let diff := countDiff c r
  diff - roundAway diff period * (period : Int)

/-- An active Z edge is checked (R71, Table 3.2). -/
def indexCheck (ch : Nat) (s : State) : State :=
  let cfg := chanSet s ch
  let x := chan s ch
  if cfg.indexMode = 0 || x.stuckZ then s else
    let s0 := bump 4 (ch * 16 + 5) s
    match x.reference with
    | none => indexRecord ch x.count 0 0 (modChan ch (fun c => { c with reference := some x.count }) s0)
    | some r =>
      let d := indexDeviation x.count r cfg.indexPeriod
      if d.natAbs ≤ cfg.indexTol then
        indexRecord ch x.count d 1 (modChan ch (fun c => { c with
          indexDev := false, uncertain := if cfg.indexMode = 2 then false else c.uncertain }) s0)
      else
        let s1 := bump 4 (ch * 16 + 6) (modChan ch (fun c => { c with indexDev := true }) s0)
        match cfg.indexMode with
        | 1 => indexRecord ch x.count d 2 s1
        | 2 =>
          let s2 := moveBaselines ch (-d) (putCount ch (x.count - d) (indexRecord ch x.count d 3 s1))
          if s2.pos.sp.active == some ch then modSpin (fun sp => { sp with corr := sp.corr + d }) s2 else s2
        | _ => failChan ch (modChan ch (fun c => { c with uncertain := true }) (indexRecord ch x.count d 4 s1))

/-! Edges -/

/-- Raise a dead-input condition: the flag, the counter, and the failure (R68, R75). -/
def raiseDead (ch : Nat) (set : Chan → Chan) (s : State) : State :=
  failChan ch (bump 4 (ch * 16 + 3) (modChan ch set s))

/-- Edges of A and B for the dead-input check of a QUADRATURE channel (R68). -/
def quadDead (ch : Nat) (ea eb : Bool) (s : State) : State :=
  let lim := (chanSet s ch).deadCount
  let s1 := modChan ch (fun c => { c with
    quietA := if ea then 0 else c.quietA + b2n eb, quietB := if eb then 0 else c.quietB + b2n ea
    deadA := c.deadA && !ea, deadB := c.deadB && !eb }) s
  let c := chan s1 ch
  let s2 := if !c.deadA && decide (lim ≤ c.quietA) then raiseDead ch (fun x => { x with deadA := true }) s1 else s1
  if !c.deadB && decide (lim ≤ c.quietB) then raiseDead ch (fun x => { x with deadB := true }) s2 else s2

/-- The same for the three switches of a HALL channel: a switch is dead when the other two together make dead_count
edges while it makes none (R68). -/
def hallDead (ch : Nat) (eu ev ew : Bool) (s : State) : State :=
  let lim := (chanSet s ch).deadCount
  let s1 := modChan ch (fun c => { c with
    quietA := if eu then 0 else c.quietA + b2n ev + b2n ew
    quietB := if ev then 0 else c.quietB + b2n eu + b2n ew
    quietZ := if ew then 0 else c.quietZ + b2n eu + b2n ev
    deadA := c.deadA && !eu, deadB := c.deadB && !ev, deadZ := c.deadZ && !ew }) s
  let c := chan s1 ch
  let s2 := if !c.deadA && decide (lim ≤ c.quietA) then raiseDead ch (fun x => { x with deadA := true }) s1 else s1
  let s3 := if !c.deadB && decide (lim ≤ c.quietB) then raiseDead ch (fun x => { x with deadB := true }) s2 else s2
  if !c.deadZ && decide (lim ≤ c.quietZ) then raiseDead ch (fun x => { x with deadZ := true }) s3 else s3

/-- The count of a quadrature edge: `decode` 0 X4, 1 X2, 2 X1; forward is A leading B (R64). (DEDUCED, log entry 41) -/
def quadDelta (decode : Nat) (invert a0 a1 b1 : Bool) : Int :=
  let edgeA := a0 != a1
  let fwd := (if edgeA then a1 != b1 else a1 == b1) != invert
  let step : Int := if fwd then 1 else -1
  match decode with
  | 0 => step
  | 1 => if edgeA then step else 0
  | _ => if edgeA && (a1 == fwd) then step else 0

/-- The place of a HALL state in the forward sequence of R65, none for an invalid state. -/
def hallPlace : Nat → Option Nat
  | 1 => some 0
  | 3 => some 1
  | 2 => some 2
  | 6 => some 3
  | 4 => some 4
  | 5 => some 5
  | _ => none

/-- The Z input of a QUADRATURE channel (R69, R71). -/
def zEdge (ch : Nat) (z t : Nat) (s : State) : State :=
  if z != b2n (chanSet s ch).zLow then
    indexCheck ch (modChan ch (fun c => { c with zSince := some t }) s)
  else modChan ch (fun c => { c with zSince := none, stuckZ := false }) s

/-- Filtered levels of a QUADRATURE channel change in one sample (R64). Where A or B and Z change in the same sample the count comes
first, and the index is checked at the count after it. (DESIGN CHOICE, log entry 82) -/
def quadEdge (ch : Nat) (a1 b1 z1 : Bool) (t : Nat) (s : State) : State :=
  let c := chan s ch
  let cfg := chanSet s ch
  let ea := c.a != a1
  let eb := c.b != b1
  let ez := c.z != z1
  let s1 := modChan ch (fun x => { x with a := a1, b := b1, z := z1 }) s
  let s2 := if ea || eb then quadDead ch ea eb s1 else s1
  let s3 := if ea && eb then quadErr ch s2
    else if ea || eb then
      let d := quadDelta cfg.decode cfg.invert c.a a1 b1
      if d = 0 then s2 else countStep ch d t s2
    else s2
  if ez then zEdge ch (b2n z1) t s3 else s3

/-- HALL_INVALID on entry to 0b000 or 0b111 (R65). -/
def hallBad (ch : Nat) (s : State) : State :=
  burstEvent ch true (bump 4 (ch * 16 + 2) (modChan ch (fun c => { c with hallInvalid := true }) s))

/-- Filtered levels of a HALL channel change (R65): U is bit 2, W bit 0. (DEDUCED, log entry 41) -/
def hallEdge (ch : Nat) (u v w : Bool) (t : Nat) (s : State) : State :=
  let c := chan s ch
  let st := 4 * b2n u + 2 * b2n v + b2n w
  let s1 := hallDead ch (c.a != u) (c.b != v) (c.z != w) (modChan ch (fun x => { x with a := u, b := v, z := w }) s)
  match hallPlace st with
  | none => hallBad ch s1
  | some p =>
    let s2 := modChan ch (fun x => { x with hallInvalid := false, hall := st }) s1
    match hallPlace c.hall with
    | none => s2
    | some q =>
      let sign : Int := if (chanSet s ch).invert then -1 else 1
      if p = q then s2
      else if p = (q + 1) % 6 then countStep ch sign t s2
      else if q = (p + 1) % 6 then countStep ch (-sign) t s2
      else quadErr ch s2

/-- Whether a level that an input has had from tick `t` on has stood for N samples of 3.2 ns: the Nth sample is N - 1 sample times after
the first (R61). -/
def filterPassed (s : State) (n t : Nat) : Bool := reached s t && decide (2 * (n - 1) ≤ since s t)

/-- ENCODER_EDGE_ACCEPTED: the levels of a channel's inputs are new from tick `t` on, the first of the samples that show them; they are
accepted when filter_n samples have (R61). A channel that is OFF or SSI ignores them until a commit makes it count.
(DEDUCED, log entry 41) -/
def encoderEdge (ch levels t : Nat) (s : State) : State :=
  if !filterPassed s (chanSet s ch).filterN t then s else
  let a := bitOf levels 0
  let b := bitOf levels 1
  let z := bitOf levels 2
  let c := chan s ch
  if c.a == a && c.b == b && c.z == z then s else
  match (chanSet s ch).mode with
  | 1 => quadEdge ch a b z t s
  | 2 => hallEdge ch a b z t s
  | _ => modChan ch (fun x => { x with a := a, b := b, z := z }) s

/-- Row ENCODER_EDGE_ACCEPTED (R61). -/
def execEncoderEdgeAccepted (ch levels t : Nat) (s : State) : Host.Outcome State Fault Refusal :=
  done (encoderEdge ch levels t s)

/-- OVERSPEED: both changes are suppressed, the event counted and UNCERTAIN set (R62). -/
def overspeed (ch : Nat) (s : State) : State :=
  if (chanSet s ch).mode = 0 then s
  else burstEvent ch true (bump 4 (ch * 16) (modChan ch (fun c => { c with overspeedAt := some (dcNow s) }) s))

/-- Row OVERSPEED. -/
def execOverspeed (ch : Nat) (s : State) : Host.Outcome State Fault Refusal := done (overspeed ch s)

/-! SSI (R66, R67) -/

/-- The binary value of a Gray code of `n` bits. -/
def grayDecode : Nat → Nat → Nat
  | 0, _ => 0
  | n + 1, g => let hi := grayDecode n (g / 2); 2 * hi + (g + hi) % 2

/-- A discarded SSI sample: three in a row raise DEAD_CHANNEL (R67). -/
def ssiDiscard (ch idx : Nat) (s : State) : State :=
  let s1 := bump 4 (ch * 16 + idx) (modChan ch (fun c => { c with ssiErrAt := some (dcNow s), ssiBad := c.ssiBad + 1 }) s)
  let c := chan s1 ch
  if 3 ≤ c.ssiBad && !c.deadChannel then raiseDead ch (fun x => { x with deadChannel := true }) s1
  else if 3 ≤ c.ssiBad then failChan ch s1 else s1

/-- The step of R67 from one absolute value to the next. -/
def ssiDelta (bits : Nat) (v v0 : Nat) : Int :=
  ((v : Int) - (v0 : Int) + 2 ^ (bits - 1)) % 2 ^ bits - 2 ^ (bits - 1)

/-- The counts of an accepted sample. -/
def ssiCount (ch : Nat) (delta : Int) (s : State) : State :=
  if delta = 0 then s else countStep ch delta (dcNow s) s

/-- An accepted sample of the SSI channel that drives the position: extrapolation goes on from it, and where it lies behind the position
in the direction of motion the position is held (R67). -/
def ssiSampled (ch : Nat) (s : State) : State :=
  if s.pos.sp.active == some ch && !s.pos.sp.frozen then
    let fwd := forwardMotion (chan s ch)
    modSpin (fun sp => { sp with
      sampleDc := some (dcNow s), held := if fwd then decide (sp.target < sp.pos) else decide (sp.pos < sp.target) }) s
  else s

/-- The first valid sample after a commit sets the raw count (R67). -/
def ssiFirst (ch v : Nat) (s : State) : State :=
  let by' := (v : Int) - (chan s ch).count
  spinFollow ch 0 (moveBaselines ch by' (modChan ch (fun c => { c with
    count := wrap48 v, commitCount := c.commitCount + by', stale := false, lastCountDc := dcNow s, staleFrom := dcNow s }) s))

/-- The value of the bits that a frame brings: with SSI_GRAY they are Gray-coded (R66). -/
def ssiValue (cfg : ChanCfg) (bits : Nat) : Nat :=
  let raw := bits % 2 ^ cfg.ssiBits
  if cfg.gray then grayDecode cfg.ssiBits raw else raw

/-- What an SSI frame brings: whether the data line stood right at the first falling and the last rising edge, and the bits taken
(R66, R67). -/
def ssiTake (ch : Nat) (startHigh endLow : Bool) (bits : Nat) (s : State) : State :=
  let cfg := chanSet s ch
  if !(startHigh && endLow) then ssiDiscard ch 7 s
  else
    let v := ssiValue cfg bits
    let good (c : Chan) : Chan := { c with ssiPrev := some v, ssiBad := 0, deadChannel := false }
    match (chan s ch).ssiPrev with
    | none => ssiSampled ch (ssiFirst ch v (modChan ch good s))
    | some v0 =>
      let d := ssiDelta cfg.ssiBits v v0
      if cfg.ssiMaxStep < d.natAbs then ssiDiscard ch 8 s
      else ssiSampled ch (ssiCount ch d (modChan ch (fun c => { good c with ssiSteps := (d :: c.ssiSteps).take 16 }) s))

/-- Whether a channel's next frame is due: ssi_period_us after the last, which leaves the clock high for ssi_monoflop_us (R66). -/
def frameDue (s : State) (ch : Nat) : Bool :=
  (chanSet s ch).mode == 3 && !s.fault.stop && (match (chan s ch).frameAt with
    | some t => decide (usTicks (chanSet s ch).ssiPeriodUs ≤ since s t)
    | none => true)

/-- SSI_FRAME: a frame has been clocked, ssi_bits + 1 pulses on the A pair of the divider output with the channel's number (R60, R66). -/
def ssiFrame (ch : Nat) (startHigh endLow : Bool) (bits : Nat) (s : State) : State :=
  if !frameDue s ch then s
  else
    let cfg := chanSet s ch
    ssiTake ch startHigh endLow bits (emit (.ssiClock ch (cfg.ssiBits + 1) (cfg.ssiDiv * 3200) (psNow s))
      (modChan ch (fun c => { c with frameAt := some (dcNow s) }) s))

/-- Row SSI_FRAME. -/
def execSsiFrame (ch : Nat) (startHigh endLow : Bool) (bits : Nat) (s : State) : Host.Outcome State Fault Refusal :=
  done (ssiFrame ch startHigh endLow bits s)

/-! Timers of a channel -/

/-- STUCK_Z: Z has been active for longer than z_hold_us (R69). -/
def stuckZ (ch : Nat) (s : State) : State :=
  let cfg := chanSet s ch
  let c := chan s ch
  match c.zSince with
  | some t =>
    if cfg.mode = 1 && !c.stuckZ && decide (usTicks cfg.zHoldUs < since s t) then
      bump 4 (ch * 16 + 4) (modChan ch (fun x => { x with stuckZ := true }) s)
    else s
  | none => s

/-- Row STUCK_Z. -/
def execStuckZ (ch : Nat) (s : State) : Host.Outcome State Fault Refusal := done (stuckZ ch s)

/-- STALE: no count for stale_time_us; the channel reports speed 0 (R70), an open slip window is abandoned (R78). -/
def stale (ch : Nat) (s : State) : State :=
  let cfg := chanSet s ch
  let c := chan s ch
  if cfg.mode != 0 && !c.stale && decide (usTicks cfg.staleUs ≤ since s c.staleFrom) then
    let s1 := modChan ch (fun x => { x with stale := true, speed := 0 }) s
    let sc := spinSet s
    if sc.master == some ch || sc.alternate == some ch then
      modSpin (fun sp => { sp with slipWin := none }) s1
    else s1
  else s

/-- Row STALE. -/
def execStale (ch : Nat) (s : State) : Host.Outcome State Fault Refusal := done (stale ch s)

/-- An event flag's tick, kept while 1 ms has not passed since it. -/
def keepRecent (s : State) (t : Option Nat) : Option Nat := t.filter (fun u => decide (since s u < msTicks 1))

/-- Whether a channel's FAILED clears: 1 s after its last failure condition, while no dead input stands (R84). -/
def failureOver (s : State) (ch : Nat) : Bool :=
  let c := chan s ch
  match c.failedAt with
  | some t => c.failed && decide (secTicks 1 ≤ since s t) && !(c.deadA || c.deadB || c.deadZ && !c.stuckZ || c.deadChannel)
  | none => false

/-- FLAG_LIVE_EXPIRY (R84): event flags go quiet 1 ms after their last event; FAILED clears when its time is over. An active channel
that was frozen goes on from where it stands. -/
def flagLiveExpiry (ch : Nat) (s : State) : State :=
  let expired := failureOver s ch
  let s1 := modChan ch (fun x => { x with
    overspeedAt := keepRecent s x.overspeedAt, quadErrAt := keepRecent s x.quadErrAt
    ssiErrAt := keepRecent s x.ssiErrAt
    failed := x.failed && !expired, failedAt := if expired then none else x.failedAt }) s
  if expired && s1.pos.sp.active == some ch && s1.pos.sp.frozen then
    rebaseOn ch s1
  else s1

/-- Row FLAG_LIVE_EXPIRY. -/
def execFlagLiveExpiry (ch : Nat) (s : State) : Host.Outcome State Fault Refusal := done (flagLiveExpiry ch s)

/-! Speed (R79, R80) -/

/-- Speed is a signed 32-bit value and saturates (R80). -/
def satSpeed (v : Int) : Int := clampInt (-2147483647) 2147483647 v

/-- The counts that edge timing spans: 4 for X4, 2 for X2, 1 for X1, 6 for HALL. -/
def edgeSpan (cfg : ChanCfg) : Nat :=
  if cfg.mode = 2 then 6 else if cfg.decode = 0 then 4 else if cfg.decode = 1 then 2 else 1

/-- `counts` × scale over `ticks`, in µm/s: nm ÷ (1.6 ns × ticks). -/
def speedOver (counts : Int) (scale ticks : Nat) : Int :=
  satSpeed (freeDiv (counts * (scale : Int) * 625000) (((2 ^ 32 * ticks : Nat)) : Int))

/-- The net and absolute counts of the last 2^20 ticks. -/
def windowCounts (s : State) (c : Chan) : Int × Nat :=
  (c.window.filter (fun e => decide (since s e.1 < 2 ^ 20))).foldl (fun a e => (a.1 + e.2, a.2 + e.2.natAbs)) (0, 0)

/-- The method after a sample: window counting from 105,000 counts/s, edge timing from 95,000 down (R79). -/
def nextMethod (old n : Nat) : Nat :=
  if 105000 * 2 ^ 20 ≤ n * 625000000 then 1 else if n * 625000000 ≤ 95000 * 2 ^ 20 then 0 else old

/-- Edge timing with the falling speed of R80; 0 until k + 1 counts have been made. -/
def edgeSpeed (s : State) (c : Chan) (cfg : ChanCfg) (scale : Nat) : Int :=
  let k := edgeSpan cfg
  match c.countTimes[0]?, c.countTimes[k]? with
  | some t0, some tk =>
    let span := ticksFrom tk t0
    let ticks := if span < since s t0 then since s tk else span
    if ticks = 0 then 0 else speedOver (if c.backward then -(k : Int) else k) scale ticks
  | _, _ => 0

/-- SSI speed: the steps of the last 16 samples over 16 periods (R80). -/
def ssiSpeed (c : Chan) (cfg : ChanCfg) (scale : Nat) : Int :=
  speedOver (c.ssiSteps.foldl (· + ·) 0) scale (16 * usTicks cfg.ssiPeriodUs)

/-- Measure one channel. -/
def measure (ch : Nat) (s : State) : State :=
  let cfg := chanSet s ch
  let c := chan s ch
  let scale := scaleOf s ch
  let w := windowCounts s c
  let method := if cfg.mode = 3 then 0 else nextMethod c.method w.2
  let v := if c.stale then 0
    else if cfg.mode = 3 then ssiSpeed c cfg scale
    else if method = 1 then speedOver w.1 scale (2 ^ 20)
    else edgeSpeed s c cfg scale
  if cfg.mode = 0 then s else
    modChan ch (fun x => { x with method := method, speed := v
                                  window := x.window.filter (fun e => decide (since s e.1 < 2 ^ 20)) }) s

/-- SPEED_SAMPLE: every channel that is not OFF is measured, 2^14 ticks after the last time (R79). R79 does not say at which ticks: the
first measurement is the first row due after a start. (DESIGN CHOICE, log entry 98) -/
def speedSample (s : State) : State :=
  if since s s.pos.speedAt < 2 ^ 14 then s
  else
    let t := (List.range 16).foldl (fun t ch => measure ch t) s
    { t with pos := { t.pos with speedAt := dcNow s } }

/-- Row SPEED_SAMPLE. -/
def execSpeedSample (s : State) : Host.Outcome State Fault Refusal := done (speedSample s)

/-! Emulators (R82) -/

/-- The count that the spindle position asks of an emulator. -/
def emuWanted (pos : Int) (perM : Nat) : Int := pos * (perM : Int) / 1000000000

/-- Whether Z is high at output count `n` with the outputs at `phase`: A and B are both high there, and `n` is the nearest such count to a
spindle position equal to z_offset modulo z_distance. Distances are in 1/perM nm. -/
def emuZ (c : EmuCfg) (n : Int) (phase : Nat) : Bool :=
  if c.zDist = 0 || phase != 2 then false else
    let here : Int := n * 1000000000
    let dist : Int := (c.zDist * c.perM : Nat)
    let off : Int := (c.zOff * c.perM : Nat)
    let t := off + (2 * (here - off) + dist) / (2 * dist) * dist
    let high := n % 4
    let nearest := (2 * (t - high * 1000000000) + 4000000000) / 8000000000 * 4 + high
    decide (nearest = n)

/-- An emulator's outputs: A and B at its phase, B leading A with INVERT, and Z. That INVERT reverses the direction, as it does on an
encoder channel, is the model's reading. (DEDUCED, log entry 83) -/
def driveEmu (e : Nat) (c : EmuCfg) (x : Emu) (s : State) : State :=
  drivePin (1088 + 3 * e + 2) x.zLevel (psNow s)
    (driveQuad (1088 + 3 * e) (if c.invert then (4 - x.phase) % 4 else x.phase) (psNow s) s)

/-- Set an emulator and its outputs. -/
def putEmu (e : Nat) (c : EmuCfg) (x : Emu) (s : State) : State :=
  driveEmu e c x { s with pos := { s.pos with emus := tset {} s.pos.emus e x } }

/-- EMU_OUTPUT_COUNT: the emulator emits its next count towards the spindle position, at most one per 40 ns. A lag that reaches 65,536
counts is cut to 65,535, the greatest that is not that: the excess is discarded without an edge (R82). (DEDUCED, log entry 83) -/
def emuCount (e : Nat) (s : State) : State :=
  let c := emuCfg (posImage s) e
  let x := tget {} s.pos.emus e
  if !c.enable || s.fault.stop then s else
    let want := emuWanted s.pos.sp.pos c.perM
    let lag := want - x.emitted
    if lag = 0 then putEmu e c { x with lag := false } s
    else if 65536 ≤ lag.natAbs then
      let excess : Int := if 0 < lag then lag - 65535 else lag + 65535
      putEmu e c { x with emitted := x.emitted + excess, skip := true, lag := true } (bumpBy 4 (258 + e) excess.natAbs s)
    else if since s x.lastDc < 25 then putEmu e c { x with lag := true } s
    else
      let n := if 0 < lag then x.emitted + 1 else x.emitted - 1
      let ph := (if 0 < lag then x.phase + 1 else x.phase + 3) % 4
      putEmu e c { x with emitted := n, phase := ph, lastDc := dcNow s, lag := x.lag && decide (n ≠ want), zLevel := emuZ c n ph } s

/-- Row EMU_OUTPUT_COUNT. -/
def execEmuOutputCount (e : Nat) (s : State) : Host.Outcome State Fault Refusal := done (emuCount e s)

/-! GP inputs (R83) -/

/-- Whether a GP input is active: its filtered level, inverted by ACTIVE_LOW. -/
def gpActive (s : State) (g : Nat) : Bool := (tget {} s.pos.gps g).level != (gpCfg (posImage s) g).activeLow

/-- A GP input takes a new filtered level at tick `t`. -/
def gpSetLevel (g : Nat) (level : Bool) (t : Nat) (s : State) : State :=
  let act := level != (gpCfg (posImage s) g).activeLow
  let x : GpIn := ⟨level, if act then some t else none, act && (tget {} s.pos.gps g).stuck⟩
  { s with pos := { s.pos with gps := tset {} s.pos.gps g x } }

/-- GP_STUCK: active for longer than hold_us under STUCK_CHECK. -/
def gpStuck (g : Nat) (s : State) : State :=
  let c := gpCfg (posImage s) g
  let x := tget {} s.pos.gps g
  match x.activeSince with
  | some t =>
    if c.stuckCheck && !x.stuck && decide (usTicks c.holdUs < since s t) then
      bump 4 (260 + g) { s with pos := { s.pos with gps := tset {} s.pos.gps g { x with stuck := true } } }
    else s
  | none => s

/-- Row GP_STUCK. -/
def execGpStuck (g : Nat) (s : State) : Host.Outcome State Fault Refusal := done (gpStuck g s)

/-! The spindle read block (Table 3.5) -/

/-- The status bits of offset 0x14. -/
def spinStatus (s : State) : Nat :=
  let sp := s.pos.sp
  let c := match sp.active with | some n => chan s n | none => {}
  b2n sp.altActive + 2 * b2n (noMotion s) + 4 * b2n c.uncertain + 8 * b2n c.stale + 16 * b2n sp.slip
    + 32 * b2n c.backward + 64 * b2n sp.restorePending + 256 * (sp.active.getD 0)

/-- The six words of the block. -/
def spinBlock (s : State) : List Nat :=
  let p := patternOf 64 s.pos.sp.pos
  [p % 2 ^ 32, p / 2 ^ 32, dcNow s % 2 ^ 32, dcNow s / 2 ^ 32 % 2 ^ 32, patternOf 32 (spinSpeed s), spinStatus s]

/-- A read of SPIN_POS_LO latches the block for the reading function (R85, R466); VFs have no access, and before cold
start step 11 and in the safe state the block reads 0 (R467). -/
def spinPosLoRead (f : Fn) (s : State) : State :=
  if fnIsPf f && s.start.blocksUp then setFnRegs f { fnRegs s f with spin := spinBlock s } s else s

/-- Row SPIN_POS_LO_READ. -/
def execSpinPosLoRead (f : Fn) (s : State) : Host.Outcome State Fault Refusal := done (spinPosLoRead f s)

/-! What a commit does to the channels and the spindle (R64, R67, R71, R474) -/

/-- A channel at a commit that carries it: a changed mode or decode makes the raw count 0 and ends what belongs to the old mode; event
flags live on for their 1 ms, and INDEX_DEV until an index is in its window (R84). (DEDUCED, log entry 41) -/
def commitChan (s : State) (a b : ChanCfg) (c : Chan) : Chan :=
  let remode := a.mode != b.mode || a.decode != b.decode
  let place := 4 * b2n c.a + 2 * b2n c.b + b2n c.z
  let zActive := b.mode == 1 && c.z != b.zLow
  let c1 : Chan := if remode
    then { c with count := 0, failed := false, countTimes := [], window := [], ssiSteps := [], method := 0, speed := 0, quietA := 0
                  quietB := 0, quietZ := 0, deadA := false, deadB := false, deadZ := false, deadChannel := false, ssiBad := 0, zSince := none
                  stuckZ := false, stale := false, frameAt := none, staleFrom := dcNow s }
    else { c with countTimes := [] }
  { c1 with
    ssiPrev := none, reference := none, commitCount := c1.count, hall := if b.mode = 2 then place else 0
    hallInvalid := b.mode == 2 && (hallPlace place).isNone, stuckZ := c1.stuckZ && zActive
    zSince := if zActive then some (c1.zSince.getD (dcNow s)) else none }

/-- The SSI clock idles high on the A pair of the divider output with the channel's number; that output's B pair stays low (R60, R66). -/
def ssiIdle (ch : Nat) (a b : ChanCfg) (s : State) : State :=
  if a.mode == 3 || b.mode == 3 then driveQuad (1024 + 2 * ch) (if b.mode = 3 then 1 else 0) (psNow s) s else s

/-- What a commit does to a channel and, where it is the active one, to the spindle: it is rebased where it stands (R64, R67). The slip
window is abandoned and the stall baseline begins anew where the count does. -/
def chanCommit (old new : Image) (ch : Nat) (s : State) : State :=
  let a := chanCfg old ch
  let b := chanCfg new ch
  let remode := a.mode != b.mode || a.decode != b.decode
  let p := standingUnder old s
  let s1 := ssiIdle ch a b (setChan ch (commitChan s a b (chan s ch)) s)
  let cfg := spinCfg new
  let s2 := if remode then modSpin (fun sp => { sp with
      slipWin := if cfg.master == some ch || cfg.alternate == some ch then none else sp.slipWin
      altAtMaster := if cfg.alternate == some ch then 0 else sp.altAtMaster
      masterAtAlt := if cfg.master == some ch then 0 else sp.masterAtAlt }) s1 else s1
  if s.pos.sp.active == some ch && (b.mode == 3 || remode) then
    modSpin (fun sp => { sp with
      basePos := p, target := p, baseCount := (chan s2 ch).count, firstCount := b.mode == 3, corr := 0, absorbStep := 0
      frozen := sp.frozen && (chan s2 ch).failed, held := false, sampleDc := none }) s2
  else s2

/-- A newly set master becomes the active channel, or the alternate in its place; with neither healthy the position freezes (R474). The
first source that a start selects sets base_count by its first count and leaves the position (R74). `p` is the position as it stands. -/
def selectSource (m : Nat) (alternate : Option Nat) (p : Int) (s : State) : State :=
  let use := if (chan s m).failed then alternate.filter (fun a => !(chan s a).failed) else none
  let ch := use.getD m
  let s1 := if s.pos.sp.selected then rebaseAt p ch s
    else modSpin (fun q => { q with
      selected := true, active := some ch, firstCount := true, basePos := 0, target := q.pos, frozen := false, corr := 0, absorbStep := 0
      held := false, sampleDc := none }) s
  freeze (modSpin (fun q => { q with altActive := use.isSome }) s1)

/-- POS.SET_SPINDLE at a commit (R474): `s` is the state under the new configuration. A window that a changed scale would mix is
abandoned. -/
def spinCommit (old new : Image) (s : State) : State :=
  let a := spinCfg old
  let b := spinCfg new
  let sp := s.pos.sp
  if a.master = b.master && a.alternate = b.alternate then
    let s0 := if a.masterScale = b.masterScale && a.alternateScale = b.alternateScale then s
      else modSpin (fun q => { q with slipWin := none }) s
    match sp.active with
    | some ch =>
      let sc (c : SpinCfg) : Nat := if c.master = some ch then c.masterScale else c.alternateScale
      if sc a = sc b || sp.firstCount || sp.frozen then s0 else rebaseAt (standingUnder old s) ch s0
    | none => s0
  else match b.master with
    | none =>
      let p := standingUnder old s
      modSpin (fun q => { q with
        active := none, altActive := false, restorePending := false, slipWin := none, target := p, frozen := false, corr := 0
        held := false, sampleDc := none }) s
    | some m =>
      selectSource m b.alternate (standingUnder old s) (modSpin (fun q => { q with
        restorePending := false, slipWin := none, windowsSince := 0, lastInTol := false, altAtMaster := match b.alternate with | some x => (chan s x).count | none => 0
        masterAtAlt := (chan s m).count }) s)

/-- A divider at a commit that carries it: its accumulator and its phase begin at 0, which R81 does not say. (DESIGN CHOICE, log entry 84) -/
def divCommit (new : Image) (d : Nat) (s : State) : State :=
  let s1 := { s with pos := { s.pos with divs := tset {} s.pos.divs d {} } }
  if (chanCfg new d).mode = 3 then s1 else driveQuad (1024 + 2 * d) 0 (psNow s) s1

/-- An emulator at a commit that carries it: enabling it starts at the present position, and its outputs low. -/
def emuCommit (new : Image) (e : Nat) (s : State) : State :=
  let c := emuCfg new e
  let n := if c.enable then emuWanted s.pos.sp.pos c.perM else 0
  putEmu e c { emitted := n, lastDc := dcNow s } s

/-- A GP input at a commit that carries it: its active state is that of the new setting. -/
def gpCommit (new : Image) (g : Nat) (s : State) : State :=
  let x := tget {} s.pos.gps g
  let act := x.level != (gpCfg new g).activeLow
  let y : GpIn := ⟨x.level, if act then (match x.activeSince with | some t => some t | none => some (dcNow s)) else none, act && x.stuck⟩
  { s with pos := { s.pos with gps := tset {} s.pos.gps g y } }

/-- The position part at P_c: every staged POS setting in order of command and object. -/
def posCommit (old new staged : Image) (s : State) : State :=
  staged.foldl (fun t e =>
    match e.1 / 2 ^ 32 with
    | 0x0400 => chanCommit old new (e.1 % 2 ^ 32) t
    | 0x0401 => spinCommit old new t
    | 0x0402 => divCommit new (e.1 % 2 ^ 32) t
    | 0x0403 => emuCommit new (e.1 % 2 ^ 32) t
    | 0x0404 => gpCommit new (e.1 % 2 ^ 32) t
    | _ => t) s

/-! Commands -/

/-- The object of a request whose first byte names it. -/
def objByte (p : Bytes) : Nat := fld p 0 1

/-- Row POS_SET_CHANNEL. -/
def execPosSetChannel (io : HostIo) (s : State) : Host.Outcome State Fault Refusal :=
  done (serve { code := 0x0400, len := some 48 } io (stage 0x0400 objByte chanCheck) s)

/-- Row POS_SET_SPINDLE. -/
def execPosSetSpindle (io : HostIo) (s : State) : Host.Outcome State Fault Refusal :=
  done (serve { code := 0x0401, len := some 48 } io (stage 0x0401 (fun _ => 0) spinCheck) s)

/-- Row POS_SET_DIV. -/
def execPosSetDiv (io : HostIo) (s : State) : Host.Outcome State Fault Refusal :=
  done (serve { code := 0x0402, len := some 16 } io (stage 0x0402 objByte divCheck) s)

/-- Row POS_SET_EMU. -/
def execPosSetEmu (io : HostIo) (s : State) : Host.Outcome State Fault Refusal :=
  done (serve { code := 0x0403, len := some 32 } io (stage 0x0403 objByte emuCheck) s)

/-- Row POS_SET_GP_INPUT. -/
def execPosSetGpInput (io : HostIo) (s : State) : Host.Outcome State Fault Refusal :=
  done (serve { code := 0x0404, len := some 16 } io (stage 0x0404 objByte gpCheck) s)

/-- POS.GET_STATUS response (Table 3.11). -/
def posStatus (s : State) : Bytes :=
  let sp := s.pos.sp
  let c := spinSet s
  leInt 8 sp.pos ++ leBytes 8 (dcNow s) ++ leInt 4 (spinSpeed s) ++ leBytes 4 (spinStatus s)
    ++ leBytes 1 (sp.active.getD 0xFF) ++ leBytes 1 (c.master.getD 0xFF) ++ leBytes 1 (c.alternate.getD 0xFF) ++ zeros 1
    ++ leInt 4 sp.lastSlip ++ leBytes 4 sp.failovers ++ zeros 4 ++ leInt 8 sp.lostTravel ++ leBytes 8 sp.failoverDc
    ++ leInt 8 sp.unabsorbed

/-- Row POS_GET_STATUS. -/
def execPosGetStatus (io : HostIo) (s : State) : Host.Outcome State Fault Refusal :=
  done (serve { code := 0x0410, len := some 0 } io (query (fun _ _ => none) (fun t _ => posStatus t)) s)

/-- A request of 8 bytes that names a channel. -/
def chanArg (_s : State) (p : Bytes) : Option Nat := orBadArg (decide (fld p 0 1 < 16) && zeroRange p 1 7)

/-- POS.GET_CHANNEL response (Table 3.12). -/
def chanStatus (s : State) (p : Bytes) : Bytes :=
  let ch := fld p 0 1
  let c := chan s ch
  leInt 8 c.count ++ leInt 8 (scaled (c.count - c.commitCount) (scaleOf s ch)) ++ leInt 4 c.speed
    ++ leBytes 4 (liveFlags c) ++ leBytes 4 c.sticky ++ leBytes 1 (b2n c.a + 2 * b2n c.b + 4 * b2n c.z)
    ++ leBytes 1 c.method ++ zeros 2 ++ leBytes 8 c.lastCountDc ++ leInt 8 (c.reference.getD 0) ++ zeros 16

/-- Row POS_GET_CHANNEL. -/
def execPosGetChannel (io : HostIo) (s : State) : Host.Outcome State Fault Refusal :=
  done (serve { code := 0x0411, len := some 8 } io (query chanArg chanStatus) s)

/-- POS.GET_INDEX_HISTORY response (Table 3.13): 264 bytes, oldest entry first. -/
def indexHistory (s : State) (p : Bytes) : Bytes :=
  let h := (chan s (fld p 0 1)).history
  fitTo 264 (leBytes 4 h.length ++ zeros 4 ++ h.flatMap (fun e =>
    leInt 8 e.count ++ leInt 4 e.deviation ++ leBytes 1 e.outcome ++ zeros 1 ++ leBytes 2 e.sequence))

/-- Row POS_GET_INDEX_HISTORY. -/
def execPosGetIndexHistory (io : HostIo) (s : State) : Host.Outcome State Fault Refusal :=
  done (serve { code := 0x0412, len := some 8 } io (query chanArg indexHistory) s)

/-- POS.CLEAR_FLAGS (R84): sticky bits of a channel by mask, or the SLIP bit of the spindle, which the table gives no mask bit: it is bit
4, where SLIP stands in Table 3.5, and the other bits of that mask do nothing (DESIGN CHOICE, log entry 85). Clearing UNCERTAIN ends
it, since it is live until then; every other live bit sets its sticky bit again at once. -/
def clearFlags (s : State) (_q : Req) (p : Bytes) : Reply :=
  let ch := fld p 0 1
  let m := fld p 4 4
  if !(decide (ch < 16) || ch == 0xFF) || !zeroRange p 1 3 then reply stBadArg s
  else if ch = 0xFF then reply stOk (if bitOf m 4 then modSpin (fun sp => { sp with slip := false }) s else s)
  else if 2048 ≤ m then reply stBadArg s
  else reply stOk (modChan ch (fun c => { c with uncertain := c.uncertain && !bitOf m 1
                                                 sticky := c.sticky &&& (2047 ^^^ m) }) s)

/-- Row POS_CLEAR_FLAGS. -/
def execPosClearFlags (io : HostIo) (s : State) : Host.Outcome State Fault Refusal :=
  done (serve { code := 0x0413, len := some 8 } io clearFlags s)

/-- Whether a channel has raised a failure condition within the last second (R77), a commit in between or not. (DEDUCED, log entry 42) -/
def recentlyFailed (s : State) (c : Chan) : Bool :=
  c.failed || (match c.failedAt with | some t => decide (since s t < secTicks 1) | none => false)

/-- POS.RESTORE_MASTER (R77). -/
def restoreMaster (s : State) (_q : Req) (_p : Bytes) : Reply :=
  let sp := s.pos.sp
  match (spinSet s).master with
  | none => reply 0x42 s
  | some m =>
    if !sp.altActive then reply 0x42 s
    else if recentlyFailed s (chan s m) || sp.windowsSince = 0 || !sp.lastInTol then reply 0x41 s
    else reply stOk (modSpin (fun q => { q with restorePending := true }) s)

/-- Row POS_RESTORE_MASTER. -/
def execPosRestoreMaster (io : HostIo) (s : State) : Host.Outcome State Fault Refusal :=
  done (serve { code := 0x0414, len := some 0 } io restoreMaster s)

end Sys2Proof.Machine
end

