-- ==== Sys2Proof/Machine/Trig.lean ====
section
/-! DEFINITION. Compare units, their routes and the TRIG commands (chapter 4). -/

namespace Sys2Proof.Machine

/-- A unit's state. -/
def trigUnit (s : State) (u : Nat) : TrigUnit := tget {} s.trig.units u

/-- Set a unit's state. -/
def setTrigUnit (u : Nat) (x : TrigUnit) (s : State) : State :=
  { s with trig := { s.trig with units := tset {} s.trig.units u x } }

/-- A unit's settings in force; in thermal STOP every unit is disabled (R425). -/
def unitSet (s : State) (u : Nat) : UnitCfg :=
  if s.fault.stop then { unitCfg (posImage s) u with enable := false } else unitCfg (posImage s) u

/-- A TRG output's state. -/
def trgOut (s : State) (o : Nat) : TrgOut := tget {} s.trig.trgs o

/-- Set a TRG output's state. -/
def setTrgOut (o : Nat) (x : TrgOut) (s : State) : State :=
  { s with trig := { s.trig with trgs := tset {} s.trig.trgs o x } }

/-- The high-water mark follows the spindle position (R88): once a source has been selected it never decreases. -/
def raiseHigh (s : State) : State :=
  if s.trig.high < s.pos.sp.pos then { s with trig := { s.trig with high := s.pos.sp.pos } } else s

/-! Matching (R89) -/

/-- How many periodic values lie above `h` and at or below `p`. -/
def periodicCrossed (c : UnitCfg) (h p : Int) : Nat :=
  if c.pitch = 0 then 0 else ((p - c.phase) / c.pitch - (h - c.phase) / c.pitch).toNat

/-- The first periodic value above `h`. -/
def nextPeriodic (c : UnitCfg) (h : Int) : Int := latticeAtOrAfter c.phase c.pitch (h + 1)

/-- Whether a gate is open: the GP input is active, or inactive with the gate's ACTIVE_LOW (R95). -/
def gateOpen (s : State) (c : UnitCfg) : Bool := !c.gateOn || (gpActive s c.gateGp != c.gateLow)

/-- Whether records carry degraded at this tick (R96, R369). -/
def posDegraded (s : State) : Bool := trelDegraded s || s.pos.sp.altActive || (match s.pos.sp.active with
  | some ch => (chan s ch).uncertain
  | none => false)

/-- The pulse a trigger at this tick gives on an output: start and end in ps (R98); `codes` of 10 ps place the crossing (R371).
(DESIGN CHOICE, log entry 47) -/
def pulseTimes (s : State) (c : TrgCfg) (codes : Nat) : Nat × Nat :=
  let a := psNow s + 24000 + c.delay * 1600 + c.fine + codes * 10
  (a, a + c.width * 1600)

/-- The end of the last pulse of an output. -/
def lastPulseEnd (x : TrgOut) : Option Nat := match x.scheduled.getLast? with
  | some e => some e.2
  | none => x.endPs

/-- Schedule one trigger's pulse on an output. A pulse that would start before the previous one has ended is dropped
there (R98). Answers whether it collided. -/
def trgFire (o codes : Nat) (s : State) : Bool × State :=
  let c := trgCfg (posImage s) o
  if !c.enable then (false, s) else
    let x := trgOut s o
    let (a, b) := pulseTimes s c codes
    let hit := match lastPulseEnd x with | some e => decide (a < e) | none => false
    if hit then (true, s) else (false, setTrgOut o { x with scheduled := x.scheduled ++ [(a, b)] } s)

/-- Fire every TRG output of a mask; answers the number of collisions. -/
def trgFireAll (mask codes : Nat) (s : State) : Nat × State :=
  (setBits 64 mask).foldl (fun acc o => let r := trgFire o codes acc.2; (acc.1 + b2n r.1, r.2)) (0, s)

/-- Send the trigger packets of R101: the delay field is 64.0 ns less the packet's measured departure latency. -/
def cxpFire (heads depPs codes : Nat) (s : State) : State :=
  (setBits 48 heads).foldl (fun t h => emit (.cxpTrigger h (64000 + codes * 10 - depPs)) t) s

/-- What the GigE Vision route gives a record: the position to write and whether it is degraded (R102, R103). -/
def gevRecord (s : State) (c : UnitCfg) (x : TrigUnit) (v : Int) : Int × Bool :=
  match (if c.gevHeads = 0 then none else x.gev.find? (fun g => decide (g.value = v) && g.record.isNone)) with
  | some g => (g.achieved.getD (comparePos s), g.degraded)
  | none => (comparePos s, false)

/-- The crossed values whose command has not been sent: the GigE Vision route drops each (R102). -/
def gevMissed (c : UnitCfg) (x : TrigUnit) (values : List Int) : Nat :=
  if c.gevHeads = 0 then 0 else (values.filter (fun v => !x.gev.any (fun g => decide (g.value = v) && g.record.isNone))).length

/-- Fire one trigger of a unit that crosses `values` (R89, R96): the record, the routes, the counters. `depPs` is the departure latency
of its trigger packets. (DEDUCED, log entry 43) -/
def fireTrigger (u : Nat) (c : UnitCfg) (value : Int) (values : List Int) (source : Nat) (late : Bool) (depPs : Nat) (s : State) :
    State :=
  let codes := crossCodes s value
  let (hits, s1) := trgFireAll c.trgMask codes s
  let s2 := cxpFire c.cxpHeads depPs codes (bumpBy 5 (u * 8 + 5) hits s1)
  let x := trigUnit s2 u
  let (pos, deg) := gevRecord s c x value
  let missed := gevMissed c x values
  let flags := b2n late + 2 * b2n (posDegraded s || deg) + 4 * b2n (hits != 0) + 8 * b2n (missed != 0)
  let r : TrigRec := ⟨dcNow s, pos, value, x.sequence, u, source, flags, min 255 values.length⟩
  let noted (g : GevOut) : GevOut := if c.gevHeads ≠ 0 ∧ g.value = value ∧ g.record.isNone then { g with record := some x.sequence } else g
  let s3 := setTrigUnit u { x with
    sequence := (x.sequence + 1) % 2 ^ 32, records := (r :: x.records).take 4096, gev := x.gev.map noted } s2
  let s4 := bump 5 (u * 8) s3
  bumpBy 5 (u * 8 + 6) missed (if late then bump 5 (u * 8 + 1) s4 else s4)

/-- Answer TRIG.QUEUE_ADD for a late value, which the Headstock has held until its due tick (R92). -/
def answerLate (u status : Nat) (payload : Bytes) (s : State) : State := match s.mbx.hold with
  | some k => if k.head = 64 + u then
      let s1 := { s with mbx := { s.mbx with hold := none } }
      complete k.req k.respOk s1 ⟨status, payload, 0, s1⟩ else s
  | none => s

/-- The response of TRIG.QUEUE_ADD (Table 4.11). -/
def queueAnswer (outcome free : Nat) : Bytes := leBytes 1 outcome ++ leBytes 1 free ++ zeros 6

/-- The late value of a unit that is due: the tick after TRIG.QUEUE_ADD was processed has come (R92). -/
def lateDue (s : State) (u : Nat) : Option Int := match s.mbx.hold with
  | some k => if k.head = 64 + u && since s k.since = 0 then none else (trigUnit s u).late
  | none => (trigUnit s u).late

/-- One tick of a unit against the position: at most one trigger, whatever number of values it crosses; a late value
that is due joins it, and its request is answered: UNIT_OFF where the unit has been disabled by then (R89, R92, R95). -/
def unitTick (u depPs : Nat) (s : State) : State :=
  let c := unitSet s u
  let x := trigUnit s u
  let due := lateDue s u
  let still := if due.isSome then none else x.late
  if !c.enable then (if due.isSome then answerLate u 0x43 [] (setTrigUnit u { x with late := none } s) else s)
  else
    let p := comparePos s
    let up := decide (x.h < p)
    let nPer := if up then periodicCrossed c x.h p else 0
    let per := (List.range nPer).map (fun (k : Nat) => nextPeriodic c x.h + (k : Int) * (c.pitch : Int))
    let q := if up then x.queue.filter (fun v => decide (v ≤ p)) else []
    let values := due.toList ++ q ++ per
    let s1 := setTrigUnit u { x with h := if up then p else x.h, late := still
                                     queue := if up then x.queue.filter (fun v => decide (p < v)) else x.queue } s
    let s2 := match values.min? with
      | none => s1
      | some low =>
        let source := if nPer = 0 then 1 else if q.isEmpty && due.isNone then 0 else 2
        let t := if 1 < values.length then bump 5 (u * 8 + 3) s1 else s1
        if gateOpen s c then fireTrigger u c (due.getD low) values source due.isSome depPs t else bump 5 (u * 8 + 4) t
    if due.isSome then answerLate u stOk (queueAnswer 1 (16 - x.queue.length)) s2 else s2

/-- COMPARE_MATCH: a unit's tick in which the spindle position is above the mark of the tick before. -/
def compareMatch (u depPs : Nat) (s : State) : State :=
  if (trigUnit s u).h < comparePos s then unitTick u depPs s else s

/-- Row COMPARE_MATCH. -/
def execCompareMatch (u depPs : Nat) (s : State) : Host.Outcome State Fault Refusal := done (compareMatch u depPs s)

/-- LATE_TRIGGER: the tick after a FIRE_LATE value was taken (R92). -/
def lateTrigger (u depPs : Nat) (s : State) : State :=
  if (lateDue s u).isSome then unitTick u depPs s else s

/-- Row LATE_TRIGGER. -/
def execLateTrigger (u depPs : Nat) (s : State) : Host.Outcome State Fault Refusal := done (lateTrigger u depPs s)

/-! Pulses (R98) -/

/-- Drive a TRG pin: high in a pulse and low between pulses, the other way round with INVERT; a disabled output is low (R100, R454). -/
def driveTrg (o ps : Nat) (s : State) : State :=
  let c := trgCfg (posImage s) o
  drivePin o (c.enable && !s.fault.stop && ((trgOut s o).level != c.invert)) ps s

/-- TRG_PULSE_START: the next scheduled pulse of an output starts once its time has come. -/
def trgPulseStart (o : Nat) (s : State) : State :=
  let x := trgOut s o
  match x.scheduled with
  | [] => s
  | (a, b) :: rest =>
    if a ≤ psNow s + 1599 && !x.level then driveTrg o a (setTrgOut o ⟨true, rest, some b⟩ s) else s

/-- Row TRG_PULSE_START. -/
def execTrgPulseStart (o : Nat) (s : State) : Host.Outcome State Fault Refusal := done (trgPulseStart o s)

/-- TRG_PULSE_END: the pulse in progress ends width_ticks after its start. -/
def trgPulseEnd (o : Nat) (s : State) : State :=
  let x := trgOut s o
  match x.level, x.endPs with
  | true, some b =>
    if b ≤ psNow s + 1599 then driveTrg o b (setTrgOut o { x with level := false } s) else s
  | _, _ => s

/-- Row TRG_PULSE_END. -/
def execTrgPulseEnd (o : Nat) (s : State) : Host.Outcome State Fault Refusal := done (trgPulseEnd o s)

/-! GigE Vision scheduled actions (R102 to R104) -/

/-- The lowest armed value of a unit above H for which no command has been sent. (DEDUCED, log entry 44) -/
def gevNext (s : State) (c : UnitCfg) (x : TrigUnit) : Option Int :=
  let sent (v : Int) : Bool := x.gev.any (fun g => decide (g.value = v))
  let p := s.pos.sp.pos
  let h := if s.trig.high < p then p else s.trig.high
  let firstPer := nextPeriodic c h
  let per := if c.pitch = 0 then [] else
    ((List.range (x.gev.length + 1)).map (fun (k : Nat) => firstPer + (k : Int) * (c.pitch : Int))).filter (fun v => !sent v)
  ((x.queue.filter (fun v => decide (h < v) && !sent v)) ++ per).min?

/-- One scheduled action command to each head of a mask, through the interface that carries the head's control; ACTION frames count at
the head's port (R102, R195, R202). -/
def sendActions (g : GevCfg) (heads timeNs : Nat) (s : State) : State :=
  (setBits 48 heads).foldl (fun t h =>
    let alt := (tget {} t.cam.heads h).onAlt
    let c := headCfg (posImage t) h
    sendFrame (if alt then c.alt.getD c.port else c.port) (.gevAction h alt g.deviceKey g.groupKey g.groupMask timeNs) t) s

/-- GEV_ACTION_SEND: once an armed value lies within lead_us of travel, its action_time is computed and one scheduled
action command goes to each head of the mask (R102). (DEDUCED, log entry 44) -/
def gevActionSend (u : Nat) (s : State) : State :=
  let c := unitSet s u
  let g := gevCfg (posImage s) u
  let x := trigUnit s u
  let sp := spinSpeed s
  let p := s.pos.sp.pos
  if !c.enable || c.gevHeads = 0 || sp < 1000 || p ≤ 0 || noMotion s then s else
  match gevNext s c x with
  | none => s
  | some v =>
    -- v - p ≤ s × lead_us, in nm: s µm/s over lead_us µs is s × lead_us / 1000 nm
    if (v - p) * 1000 ≤ sp * (g.leadUs : Int) then
      let at' := tvSelNs s + (freeDiv ((v - p) * 1000000) sp).toNat
      let tick := ahead s (freeDiv ((v - p) * 625000) sp).toNat
      let beyond (e : GevOut) : Bool := e.achieved.isSome && decide (e.value ≤ x.h)
      let kept := x.gev.filter (fun e => !beyond e)
      sendActions g c.gevHeads at' (setTrigUnit u { x with gev := kept ++ [⟨v, tick, false, none, none⟩] } s)
    else s

/-- Row GEV_ACTION_SEND. -/
def execGevActionSend (u : Nat) (s : State) : Host.Outcome State Fault Refusal := done (gevActionSend u s)

/-- Whether the achieved position misses its value by more than tol_nm. -/
def gevOff (s : State) (g : GevCfg) (v : Int) : Bool := decide (g.tolNm < (s.pos.sp.pos - v).natAbs)

/-- GEV_ACHIEVED_SAMPLE: at a held tick the position is sampled; it goes into the record of the value, if that has been
written, and stands for the record otherwise (R103). (DEDUCED, log entry 44) -/
def gevAchieved (u : Nat) (s : State) : State :=
  let x := trigUnit s u
  let g := gevCfg (posImage s) u
  match x.gev.find? (fun e => e.achieved.isNone && reached s e.tick) with
  | none => s
  | some e =>
    let deg := e.degraded || gevOff s g e.value
    let upd (r : TrigRec) : TrigRec :=
      if e.record = some r.sequence then
        { r with position := s.pos.sp.pos, flags := if deg then r.flags ||| 2 else r.flags } else r
    setTrigUnit u { x with records := x.records.map upd
                           gev := x.gev.map (fun o => if o.value = e.value then
                             { o with achieved := some s.pos.sp.pos, degraded := deg } else o) } s

/-- Row GEV_ACHIEVED_SAMPLE. -/
def execGevAchievedSample (u : Nat) (s : State) : Host.Outcome State Fault Refusal := done (gevAchieved u s)

/-- TV_SEL steps or moves to another view: outstanding commands keep their held tick and their records are degraded
(R104). (DEDUCED, log entry 44) -/
def gevDegradeAll (s : State) : State :=
  let mark (g : GevOut) : GevOut := if g.achieved.isNone then { g with degraded := true } else g
  let us : Tab TrigUnit := s.trig.units.map (fun e => (e.1, { e.2 with gev := e.2.gev.map mark }))
  { s with trig := { s.trig with units := us } }

/-! What a commit does to the trigger part (R92, R94) -/

/-- A unit at a commit that carries it: disabling flushes its queue and raises QUEUE_FLUSHED; enabling resumes above H, and a changed
pitch or phase arms the first value above H (R92, R94), and above what the unit has evaluated already, which in a trellis lies a tick ahead
(R89, R371). An action command whose record is written is still to be sampled at its held tick (R103). (DEDUCED, log entry 43) -/
def unitCommit (old new : Image) (u : Nat) (s : State) : State :=
  let a := unitCfg old u
  let b := unitCfg new u
  let x := trigUnit s u
  if a.enable && !b.enable then
    raise 0x0201 1 u x.queue.length 0 (setTrigUnit u { x with
      queue := [], gev := x.gev.filter (fun g => g.record.isSome && g.achieved.isNone) } s)
  else if b.enable && (!a.enable || a.pitch != b.pitch || a.phase != b.phase) then setTrigUnit u { x with h := max s.trig.high x.h } s
  else s

/-- The trigger part at P_c: units, and the pins of the outputs and banks that it carries. -/
def trigCommit (old new staged : Image) (s : State) : State :=
  staged.foldl (fun t e =>
    let n := e.1 % 2 ^ 32
    match e.1 / 2 ^ 32 with
    | 0x0500 => unitCommit old new n t
    | 0x0501 => driveTrg n (psNow t) t
    | 0x0502 => (List.range 8).foldl (fun u k => driveAct (n * 8 + k) u) t
    | 0x0503 => driveAct n t
    | _ => t) s

/-! Commands -/

/-- Row TRIG_SET_UNIT. -/
def execTrigSetUnit (io : HostIo) (s : State) : Host.Outcome State Fault Refusal :=
  done (serve { code := 0x0500, len := some 64 } io (stage 0x0500 objByte unitCheck) s)

/-- Row TRIG_SET_TRG_OUTPUT. -/
def execTrigSetTrgOutput (io : HostIo) (s : State) : Host.Outcome State Fault Refusal :=
  done (serve { code := 0x0501, len := some 16 } io (stage 0x0501 objByte trgCheck) s)

/-- Row TRIG_SET_ACT_BANK. -/
def execTrigSetActBank (io : HostIo) (s : State) : Host.Outcome State Fault Refusal :=
  done (serve { code := 0x0502, len := some 8 } io (stage 0x0502 objByte bankCheck) s)

/-- Row TRIG_SET_ACT_OUTPUT. -/
def execTrigSetActOutput (io : HostIo) (s : State) : Host.Outcome State Fault Refusal :=
  done (serve { code := 0x0503, len := some 32 } io (stage 0x0503 objByte actCheck) s)

/-- Row TRIG_SET_ACTION_RULE. -/
def execTrigSetActionRule (io : HostIo) (s : State) : Host.Outcome State Fault Refusal :=
  done (serve { code := 0x0504, len := some 64 } io (stage 0x0504 objByte ruleCheck) s)

/-- Row TRIG_SET_GEV_ACTION. -/
def execTrigSetGevAction (io : HostIo) (s : State) : Host.Outcome State Fault Refusal :=
  done (serve { code := 0x0505, needs := some 1, len := some 32 } io (stage 0x0505 objByte gevCheck) s)

/-- A request whose first byte names a unit and whose next seven are reserved. -/
def unitArgOk (p : Bytes) : Bool := decide (fld p 0 1 < 64) && zeroRange p 1 7

/-- Insert a value into an ascending list. -/
def insertAsc (v : Int) : List Int → List Int
  | [] => [v]
  | a :: t => if v < a then v :: a :: t else a :: insertAsc v t

/-- TRIG.QUEUE_ADD (R92, R93). A late value's request is held until its due tick, which decides between OK and UNIT_OFF. -/
def queueAdd (respOk : Bool) (s : State) (q : Req) (p : Bytes) : Reply ⊕ State :=
  let u := fld p 0 1
  let v := sfld p 8 8
  let c := unitSet s u
  let x := trigUnit s u
  if !unitArgOk p then .inl (reply stBadArg s)
  else if !c.enable then .inl (reply 0x43 s)
  else if v ≤ s.trig.high then
    if c.fireLate then
      let s1 := setTrigUnit u { x with late := some v } s
      .inr { s1 with mbx := { s1.mbx with hold := some { req := q, head := 64 + u, since := dcNow s, respOk := respOk } } }
    else .inl (reply stBehind (bump 5 (u * 8 + 2) s))
  else if x.queue.contains v then .inl (reply 0x41 s)
  else if 16 ≤ x.queue.length then .inl (reply 0x40 s)
  else .inl (replyOk (queueAnswer 0 (15 - x.queue.length)) (setTrigUnit u { x with queue := insertAsc v x.queue } s))

/-- Row TRIG_QUEUE_ADD. -/
def execTrigQueueAdd (io : HostIo) (s : State) : Host.Outcome State Fault Refusal :=
  done (serveOrHold { code := 0x0510, len := some 16 } io (queueAdd io.respOk) s)

/-- TRIG.QUEUE_CANCEL (R93). -/
def queueCancel (s : State) (_q : Req) (p : Bytes) : Reply :=
  let u := fld p 0 1
  let v := sfld p 8 8
  let x := trigUnit s u
  if !unitArgOk p then reply stBadArg s
  else if !(unitSet s u).enable then reply 0x43 s
  else if x.queue.contains v then reply stOk (setTrigUnit u { x with queue := x.queue.filter (fun w => w ≠ v) } s)
  else reply 0x42 s

/-- Row TRIG_QUEUE_CANCEL. -/
def execTrigQueueCancel (io : HostIo) (s : State) : Host.Outcome State Fault Refusal :=
  done (serve { code := 0x0511, len := some 16 } io queueCancel s)

/-- TRIG.QUEUE_FLUSH. -/
def queueFlush (s : State) (_q : Req) (p : Bytes) : Reply :=
  let u := fld p 0 1
  let x := trigUnit s u
  if !unitArgOk p then reply stBadArg s
  else if !(unitSet s u).enable then reply 0x43 s
  else replyOk (leBytes 8 x.queue.length) (setTrigUnit u { x with queue := [] } s)

/-- Row TRIG_QUEUE_FLUSH. -/
def execTrigQueueFlush (io : HostIo) (s : State) : Host.Outcome State Fault Refusal :=
  done (serve { code := 0x0512, len := some 8 } io queueFlush s)

/-- A trigger record's 32 bytes (Table 4.2). -/
def trigRecBytes (r : TrigRec) : Bytes :=
  leBytes 8 r.deviceCount ++ leInt 8 r.position ++ leInt 8 r.value ++ leBytes 4 r.sequence ++ leBytes 1 r.unit
    ++ leBytes 1 r.source ++ leBytes 1 r.flags ++ leBytes 1 r.crossed

/-- TRIG.GET_UNIT response (Table 4.12). -/
def unitStatus (s : State) (p : Bytes) : Bytes :=
  let u := fld p 0 1
  let c := unitSet s u
  let x := trigUnit s u
  leBytes 4 x.sequence ++ leBytes 1 x.queue.length
    ++ leBytes 1 (b2n c.enable + 2 * b2n (decide (s.pos.sp.pos < s.trig.high)) + 4 * b2n (!gateOpen s c)) ++ zeros 2
    ++ leInt 8 (if c.pitch = 0 then 0 else nextPeriodic c s.trig.high) ++ leInt 8 s.trig.high
    ++ leInt 8 (x.queue.head?.getD 0) ++ (match x.records with | r :: _ => trigRecBytes r | [] => zeros 32)

/-- Row TRIG_GET_UNIT. -/
def execTrigGetUnit (io : HostIo) (s : State) : Host.Outcome State Fault Refusal :=
  done (serve { code := 0x0513, len := some 8 } io (query (fun _ p => orBadArg (unitArgOk p)) unitStatus) s)

/-- The log of a unit: the newest 256 records (R96). -/
def unitLog (s : State) (u : Nat) : List TrigRec := (trigUnit s u).records.take 256

/-- TRIG.READ_LOG: the newest `count` records, oldest first (Table 4.11). -/
def readLog (s : State) (p : Bytes) : Bytes :=
  ((unitLog s (fld p 0 1)).take (fld p 2 2)).reverse.flatMap trigRecBytes

/-- Row TRIG_READ_LOG. -/
def execTrigReadLog (io : HostIo) (s : State) : Host.Outcome State Fault Refusal :=
  done (serve { code := 0x0514, len := some 8 } io (query (fun _ p =>
    orBadArg (fieldsOk p [⟨0, 1, 0, 63, false⟩, ⟨2, 2, 1, 256, false⟩] [(1, 1), (4, 4)])) readLog) s)

end Sys2Proof.Machine
end

