-- ==== Sys2Proof/Machine/Cam.lean ====
section
/-! DEFINITION. Camera links: received Ethernet frames, modules, the GVCP and CoaXPress control engines, parameter
schedules, and the CAM commands that do not carry pixels (chapter 7). -/

namespace Sys2Proof.Machine

/-! Received frames (R179, Table 7.1) -/

/-- A big-endian field of a frame. -/
def beFld (b : Bytes) (off n : Nat) : Nat := leNat ((b.drop off).take n).reverse

/-- The one's-complement sum of 16-bit big-endian words, folded. -/
def onesSum : Bytes → Nat → Nat
  | [], a => a % 65535
  | [x], a => (a + 256 * x.toNat) % 65535
  | x :: y :: t, a => onesSum t (a + 256 * x.toNat + y.toNat)

/-- Whether a checksummed byte string sums to all ones. -/
def sumOk (b : Bytes) : Bool := decide (onesSum b 0 = 0)

/-- The checksum field that makes a string (with that field 0) sum to all ones. -/
def sumField (b : Bytes) : Nat := 65535 - onesSum b 0

/-- What a frame is to the device: what Table 7.1 does with it, and which port counter counts it. -/
inductive FrameUse where
  | discard (counter : Nat)
  | answer (reply : Bytes)
  | ptp
  | ack
  | event (head : Nat) (body : Bytes)
  | stream
  deriving DecidableEq, Repr

/-- The declared heads of a port whose interface there has an address. -/
def headsAt (s : State) (port : Nat) (ip : Bytes) : List Nat :=
  (portHeads (posImage s) port).filter (fun h =>
    let c := headSet s h
    c.protocol == 1 && (if c.port = port then c.ip else c.altIp) == ip)

/-- An answer to an ARP request for the port's address. -/
def arpReply (mac ip : Bytes) (f : Bytes) : Bytes :=
  fitTo 60 ((f.drop 22).take 6 ++ mac ++ [0x08, 0x06, 0, 1, 8, 0, 6, 4, 0, 2] ++ mac ++ ip ++ (f.drop 22).take 10)

/-- An answer to an ICMP echo request. -/
def echoReply (f : Bytes) : Bytes :=
  let total := beFld f 16 2
  let icmp := (f.drop 34).take (total - 20)
  let body := [0, 0, 0, 0] ++ icmp.drop 4
  let sum := (leBytes 2 (sumField body)).reverse
  (f.drop 6).take 6 ++ f.take 6 ++ (f.drop 12).take 14 ++ (f.drop 30).take 4 ++ (f.drop 26).take 4
    ++ [0, 0] ++ sum ++ icmp.drop 4

/-- Whether a UDP datagram has no checksum, or one that holds. -/
def udpSumOk (f : Bytes) : Bool :=
  beFld f 40 2 == 0 || sumOk ((f.drop 26).take 8 ++ [0, 17] ++ (f.drop 38).take 2 ++ (f.drop 34).take (beFld f 38 2))

/-- Whether an IPv4 frame is UDP to one of PTP's ports. -/
def udpIsPtp (f : Bytes) : Bool := beFld f 23 1 == 17 && (beFld f 36 2 == 319 || beFld f 36 2 == 320)

/-- UDP of an IPv4 frame for the port's own address, its checksum good and not PTP's (R179). -/
def udpUse (s : State) (port : Nat) (f : Bytes) : FrameUse :=
  let dport := beFld f 36 2
  let ulen := beFld f 38 2
  let heads := headsAt s port ((f.drop 26).take 4)
  match heads with
    | [] => .discard 4
    | h :: _ =>
      if dport = 3956 then .ack
      else if dport = 3957 then .event h ((f.drop 42).take (min 540 (ulen - 8)))
      else if heads.any (fun k => (headStreams (posImage s) k).any (fun n =>
        match streamCfg (posImage s) n with | some c => c.channel == dport | none => false)) then .stream
      else .discard 4

/-- Table 7.1 for a frame from header to FCS. -/
def frameUse (s : State) (port : Nat) (f : Bytes) : FrameUse :=
  let n := f.length
  let kind := beFld f 12 2
  if n < 18 || fld f (n - 4) 4 != crc32 (f.take (n - 4)) then .discard 1
  else if 16000 < n then .discard 2
  else if kind = 0x8808 || kind = 0x8100 || kind = 0x88A8 then .discard 3
  else if kind = 0x88F7 then .ptp
  else if kind = 0x0800 && (beFld f 14 1 != 0x45 || !sumOk ((f.drop 14).take 20) || beFld f 20 2 % 16384 != 0
      || (beFld f 23 1 == 17 && !udpSumOk f)) then .discard 4
  else if kind = 0x0800 && udpIsPtp f then .ptp
  else match portCfg (posImage s) port with
    | none => .discard 4
    | some c =>
      if kind = 0x0806 then
        if beFld f 20 2 = 1 && (f.drop 38).take 4 == c.ipv4 then .answer (arpReply c.mac c.ipv4 f) else .discard 4
      else if kind != 0x0800 || (f.drop 30).take 4 != c.ipv4 then .discard 4
      else if beFld f 23 1 = 1 then
        if c.icmp && beFld f 34 2 = 0x0800 && decide (beFld f 16 2 ≤ 1500) then .answer (echoReply f) else .discard 4
      else if beFld f 23 1 = 17 then udpUse s port f
      else .discard 4

/-- Row ETH_FRAME_RX. What goes to the PTP engine, the GVCP engine or GVSP reception is taken up by those rows. -/
def execEthFrameRx (port : Nat) (data : Bytes) (s : State) : Host.Outcome State Fault Refusal :=
  done (
    if !(isPort (posImage s) modeEth port && portUp s port) then s else
      let s1 := portCount port 0 s
      match frameUse s port data with
      | .discard k => portCount port k s1
      | .answer r => sendFrame port (.frame port r) (portCount port 5 s1)
      | .event h body => raiseWith 0x0503 0 h 0 0 body none s1
      | .ptp => s1
      | .ack => s1
      | .stream => s1)

/-! Optical modules (R180, R181) -/

/-- A module bus. -/
def moduleOf (s : State) (b : Nat) : Module := tget {} s.cam.modules b

/-- Set a module bus. -/
def setModule (b : Nat) (x : Module) (s : State) : State :=
  { s with cam := { s.cam with modules := tset {} s.cam.modules b x } }

/-- The lanes a bus serves: bus q field quad q, buses 12 to 15 the graft quads. -/
def busLanes (b : Nat) : List Nat := (List.range 4).map (· + 4 * b)

/-- Row MODULE_POLL: every 100 ms (R180), not during a W1 (R401). -/
def execModulePoll (bus : Nat) (seen : ModuleSeen) (s : State) : Host.Outcome State Fault Refusal :=
  done (
    let x := moduleOf s bus
    if !(decide (bus < 16) && !s.start.w1Running && decide (msTicks 100 ≤ since s x.lastPoll)) then s
    else if !seen.present then setModule bus { ({} : Module) with lastPoll := dcNow s } s
    else if !(seen.cmis && decide (0x40 ≤ seen.revision)) then
      let s1 := (busLanes bus).foldl (fun t l => modLane l (fun y => { y.flag flNoSignal (y.st != lsOff) with energy := false }) t)
        (setModule bus { ({} : Module) with kind := 2, identifier := seen.identifier, lastPoll := dcNow s } s)
      if x.kind = 2 && x.identifier = seen.identifier then s1 else raise 0x0405 2 bus seen.identifier 0 s1
    else
      let lanes := (busLanes bus).filter (fun l => (laneOf s l).set.mode != 0)
      let y : Module := { kind := 1, identifier := seen.identifier, revision := seen.revision, ready := true
                          application := (match lanes with | l :: _ => (laneOf s l).set.mode | [] => 0)
                          enabledLanes := lanes.foldl (fun m l => m + 2 ^ (l % 4)) 0, flags := seen.flags, lastPoll := dcNow s }
      let s1 := setModule bus y s
      if seen.flags != 0 && seen.flags != x.flags then raise 0x0406 2 bus seen.flags 0 s1 else s1)

/-- The statuses of a module access (R181). -/
def moduleBad (s : State) (p : Bytes) : Option Nat :=
  if !(decide (fld p 0 1 < 16) && inRangeIf true (fld p 4 1) 1 128 && decide (fld p 3 1 + fld p 4 1 ≤ 256) && zeroRange p 5 3)
  then some stBadArg
  else match (moduleOf s (fld p 0 1)).kind with
    | 0 => some 0x47
    | 1 => none
    | _ => some 0x48

/-- Row CAM_MODULE_READ; `data` is what the module answers. -/
def execCamModuleRead (io : HostIo) (data : Bytes) (s : State) : Host.Outcome State Fault Refusal :=
  done (serve { code := 0x0316, len := some 8 } io (fun s _ p => match moduleBad s p with
    | some st => reply st s
    | none => replyOk (p.take 8 ++ fitTo (fld p 4 1) data) s) s)

/-- Row CAM_MODULE_WRITE: page 10h belongs to the device. -/
def execCamModuleWrite (io : HostIo) (s : State) : Host.Outcome State Fault Refusal :=
  done (serve { code := 0x0317 } io (fun s _ p =>
    if p.length != 8 + fld p 4 1 then reply stBadArg s
    else match moduleBad s p with
      | some st => reply st s
      | none => if fld p 2 1 = 0x10 then reply 0x49 s
        else reply stOk (emit (.moduleBus (fld p 0 1) (p.drop 1)) s)) s)

/-- CAM.GET_MODULE response: kind, identifier, revision, ready, application, enabled lanes, flags. (DESIGN CHOICE, log entry 51) -/
def moduleBytes (x : Module) : Bytes :=
  leBytes 1 x.kind ++ leBytes 1 x.identifier ++ leBytes 1 x.revision ++ leBytes 1 (b2n x.ready) ++ leBytes 1 x.application
    ++ leBytes 1 x.enabledLanes ++ zeros 2 ++ leBytes 8 x.flags

/-- Row CAM_GET_MODULE: request u8 bus and 7 reserved bytes. -/
def execCamGetModule (io : HostIo) (s : State) : Host.Outcome State Fault Refusal :=
  done (serve { code := 0x0318, len := some 8 } io (query (fun _ p => orBadArg (decide (fld p 0 1 < 16) && zeroRange p 1 7))
    (fun s p => moduleBytes (moduleOf s (fld p 0 1)))) s)

/-! Control: acknowledges and timeouts (R185 to R187, R192, R200) -/

/-- The first boundary of a schedule that has not fired yet, as a number of boundaries past t - d (R199). -/
def lateBy (s : State) (h : Nat) (c : Sched) : Nat :=
  let now := (trigUnit s (headSet s h).unit).h
  if now < c.ackBy || c.step = 0 then 0 else ((now - c.ackBy) / (c.step : Int)).toNat + 1

/-- Change one schedule of a head. -/
def modSched (h id : Nat) (f : Sched → Sched) (s : State) : State :=
  modHead h (fun x => { x with schedules := x.schedules.map (fun c => if c.id = id then f c else c) }) s

/-- The last write of a schedule is acknowledged: without CONFIRM an acknowledge k boundaries late moves the switch by k and
raises PARAM_SHIFTED (R199). -/
def schedAcked (h id : Nat) (s : State) : State :=
  match (headOf s h).schedules.find? (fun c => c.id == id) with
  | none => s
  | some c =>
    if 1 < c.left then modSched h id (fun d => { d with left := d.left - 1 }) s
    else
      let k := if (headSet s h).confirm then 0 else lateBy s h c
      let dest := c.target + (k * c.step : Nat)
      let s1 := modSched h id (fun d => { d with acked := true, left := 0, switchAt := dest }) s
      if k = 0 then s1 else headCount h 15 (raise 0x0506 1 h id dest s1)

/-- A connection step is acknowledged; after the last one the head is READY (R185). -/
def connectAcked (h : Nat) (s : State) : State :=
  let x := headOf s h
  if x.st = hsConnecting && !(x.jobs.any (fun j => j.tag == 0)) then headTo h hsReady 1 (setHead h { x with tries := 0 } s)
  else s

/-- The newest block that any stream of a head has seen, 0 before the first. -/
def newestBlock (s : State) (h : Nat) : Nat :=
  (headStreams (posImage s) h).foldl (fun m n => max m ((tget ({} : Chan7) s.cam.chans n).lastBlock.getD 0)) 0

/-- The interface a head answered on lives: a DEGRADED head whose ports are both UP streams again, and GVCP returns to a
primary that has answered for 1 s (R196). Alignment is set anew at the head's next block (R204). -/
def interfaceHeard (h iface : Nat) (s : State) : State :=
  let x := headOf s h
  let c := headSet s h
  let up := portUp s (if iface = 0 then c.port else c.alt.getD c.port)
  let silent := if up then x.silent.filter (fun k => k != iface) else x.silent
  let since0 := if iface = 0 && x.onAlt && up then (match x.primarySince with | some t => some t | none => some (dcNow s)) else x.primarySince
  let home := match since0 with | some t => x.onAlt && decide (secTicks 1 ≤ since s t) | none => false
  let s1 := setHead h { x with
    silent := silent, primarySince := if home then none else since0, onAlt := x.onAlt && !home } s
  if x.st = hsDegraded && silent.isEmpty && (headPorts c).all (portUp s) then
    headTo h hsStreaming 10 (modHead h (fun y => { y with realign := some (newestBlock s h) }) s1)
  else s1

/-- A response payload of CAM.GVCP (Table 7.10). -/
def gvcpAnswer (status ack : Nat) (payload : Bytes) : Bytes :=
  leBytes 2 status ++ leBytes 2 ack ++ leBytes 2 (min 540 payload.length) ++ zeros 2 ++ payload.take 540

/-- Row GVCP_ACK_RX: an acknowledge of the head's outstanding command, from interface 0 (primary) or 1. A head that refuses a connection
step, or shows no extended IDs, is LOST (R185). (PRESUMED, log entry 50) -/
def execGvcpAckRx (head reqId status ackCommand : Nat) (payload : Bytes) (iface : Nat) (respOk : Bool) (s : State) :
    Host.Outcome State Fault Refusal :=
  done (
    let s0 := interfaceHeard head iface s
    match (headOf s head).out with
    | none => s0
    | some o =>
      if o.reqId != reqId || (headSet s head).protocol != 1 then s0 else
        let beat := o.job.tag == 1 && o.job.ref == 0
        let s1 := modHead head (fun x => { x with out := none, missed := if beat then 0 else x.missed }) s0
        let ok := decide (status = 0)
        -- a read of a connection step asks whether the head has extended IDs
        let lacks := o.job.command == gvcpReadReg && beFld payload 0 4 % 2 == 0
        nextControl head (
          if o.job.tag = 0 then (if ok && !lacks then connectAcked head s1 else headLost head 2 s1)
          else if o.job.tag = 2 then (if ok then schedAcked head o.job.ref s1 else failSched head o.job.ref s1)
          else if o.job.tag = 3 then proxyEnd head o.job.ref (if ok then stOk else 0x42) (gvcpAnswer status ackCommand payload) respOk s1
          else s1))

/-- A connection attempt has failed: after three the head is LOST (Table 7.3). -/
def connectFailed (h : Nat) (s : State) : State :=
  let x := headOf s h
  if 2 ≤ x.tries then headLost h 3 (setHead h { x with tries := 0 } s)
  else beginConnect h (setHead h { x with tries := x.tries + 1 } s)

/-- A heartbeat read has gone unanswered: the third loses the head, or moves GVCP to the other interface (R186, R195). -/
def heartbeatMissed (h : Nat) (s : State) : State :=
  let x := headOf s h
  let s1 := headCount h 12 (setHead h { x with missed := x.missed + 1 } s)
  if x.missed < 2 then s1
  else match (headSet s h).alt with
    | some a =>
      if !x.onAlt && portUp s a && !x.silent.contains 1 then modHead h (fun y => { y with onAlt := true, missed := 0 }) s1
      else headLost h 4 s1
    | none => headLost h 4 s1

/-- Whether a job reads the interface that does not carry the control: it is sent once, and says nothing when it stays unanswered. -/
def probe (j : CtlJob) : Bool := j.tag == 1 && j.ref == 1

/-- A command that stays unanswered on the primary interface ends the time that the interface has answered for (R196). -/
def primarySilent (h : Nat) (o : CtlOut) (s : State) : State :=
  if o.job.via.getD (headOf s h).onAlt then s else modHead h (fun x => { x with primarySince := none }) s

/-- Row GVCP_TIMEOUT: 50 ms without an acknowledge; the command is sent at most three times (R186). -/
def execGvcpTimeout (head : Nat) (respOk : Bool) (s0 : State) : Host.Outcome State Fault Refusal :=
  done (match (headOf s0 head).out with
    | none => s0
    | some o =>
      let s := primarySilent head o s0
      if since s0 o.sentAt < msTicks 50 then s0
      else if o.sends < 3 && !probe o.job then
        let o' := { o with sends := o.sends + 1, sentAt := dcNow s }
        headCount head 11 (sendControl head o' (modHead head (fun x => { x with out := some o' }) s))
      else
        let s1 := modHead head (fun x => { x with out := none }) s
        nextControl head (
          if o.job.tag = 0 then connectFailed head s1
          else if probe o.job then s1
          else if o.job.tag = 1 then heartbeatMissed head s1
          else if o.job.tag = 2 then failSched head o.job.ref s1
          else proxyEnd head o.job.ref stTimeout [] respOk s1))

/-- Row HEARTBEAT_READ: every heartbeat_ms ÷ 3 the engine reads the control-privilege register (R186); a head with an
interface to win back is read there too, once that port is up (R196). (DEDUCED, log entry 95) -/
def execHeartbeatRead (head : Nat) (s : State) : Host.Outcome State Fault Refusal :=
  done (
    let x := headOf s head
    let c := headSet s head
    if !(headReady s head && c.protocol == 1 && decide (msTicks c.heartbeatMs ≤ 3 * since s x.lastRead)) then s else
      let s1 := modHead head (fun y => { y with lastRead := dcNow s }) s
      let read (ref : Nat) (via : Option Bool) (t : State) : State :=
        if (headJobs x).any (fun j => j.tag == 1 && j.ref == ref) then t
        else addJob head ⟨1, ref, gvcpReadReg, beWord regControl, via⟩ t
      let lost := (x.onAlt || !x.silent.isEmpty) && c.alt.isSome && portUp s (ifacePort s head (!x.onAlt))
      let s2 := read 0 none s1
      if lost then read 1 (some (!x.onAlt)) s2 else s2)

/-- Row HEAD_RETRY: 1 s after entering LOST (R184). -/
def execHeadRetry (head : Nat) (s : State) : Host.Outcome State Fault Refusal :=
  done (
    let x := headOf s head
    if x.st = hsLost && headOn (posImage s) head && decide (secTicks 1 ≤ since s x.since) then headConnect head 6 s else s)

/-- Row STREAM_IDLE: block_timeout_us without an accepted stream packet (R475). -/
def execStreamIdle (head : Nat) (s : State) : Host.Outcome State Fault Refusal :=
  done (
    let x := headOf s head
    if x.st = hsStreaming && decide (usTicks (headSet s head).blockTimeoutUs ≤ since s x.lastPacket) then headTo head hsReady 8 s
    else s)

/-! CoaXPress-over-Fiber control (R192, R193) -/

/-- Row CXP_HEARTBEAT_SEND: every 100 ms, carrying TV_SEL (R193). -/
def execCxpHeartbeatSend (head : Nat) (s : State) : Host.Outcome State Fault Refusal :=
  done (
    let x := headOf s head
    if (headSet s head).protocol = 2 && x.st != hsOff && portUp s (headSet s head).port && decide (msTicks 100 ≤ since s x.beatSent) then
      emit (.cxpHeartbeat head (tvSelNs s)) (setHead head { x with beatSent := dcNow s } s)
    else s)

/-- Row CXP_HEARTBEAT_TIMEOUT (R193): of a head that is connecting too. -/
def execCxpHeartbeatTimeout (head : Nat) (s : State) : Host.Outcome State Fault Refusal :=
  done (
    let x := headOf s head
    let c := headSet s head
    if c.protocol = 2 && (headReady s head || x.st == hsConnecting) && decide (msTicks c.heartbeatMs ≤ since s x.heard) then
      headLost head 4 (headCount head 12 s)
    else s)

/-- Row CXP_CONTROL_PACKET_RX. `kind`: 0 acknowledge of request `reqId` with a status, 1 event, 2 heartbeat, 3 trigger
acknowledge, 4 an untagged control packet (Table 7.5). A connecting head is READY with its first heartbeat. -/
def execCxpControlPacketRx (head kind reqId status : Nat) (payload : Bytes) (respOk : Bool) (s : State) :
    Host.Outcome State Fault Refusal :=
  done (
    let x := headOf s head
    if (headSet s head).protocol != 2 || x.st = hsOff then s
    else if kind = 1 then raiseWith 0x0503 0 head 0 0 (payload.take 540) none s
    else if kind = 2 then
      let s1 := setHead head { x with heard := dcNow s } s
      if x.st = hsConnecting then headTo head hsReady 1 s1 else s1
    else if kind = 4 then headCount head 1 s
    else if kind = 3 then setHead head { x with trigAcks := x.trigAcks + 1 } s
    else if kind != 0 then s
    else match x.out with
      | none => s
      | some o =>
        if o.reqId != reqId then s else
          let s1 := setHead head { x with out := none } s
          let ok := decide (status = 0)
          nextControl head (
            if o.job.tag = 2 then (if ok then schedAcked head o.job.ref s1 else failSched head o.job.ref s1)
            else proxyEnd head o.job.ref (if ok then stOk else 0x42) (if ok then payload else leBytes 2 status) respOk s1))

/-! Parameter schedules (R197 to R200) -/

/-- The distance between two boundaries of a head, and the lattice they lie on (R197). -/
def boundaryGrid (s : State) (h : Nat) : Option (Int × Nat) :=
  let c := headSet s h
  let u := unitCfg (posImage s) c.unit
  let lines := match headStreams (posImage s) h with
    | n :: _ => (match streamCfg (posImage s) n with | some d => d.frameLines | none => 1)
    | [] => 1
  if u.pitch = 0 then none
  else if c.frames then (headOf s h).lastFrame.map (fun f => (f, lines * u.pitch))
  else some (u.phase, u.pitch)

/-- CAM.SCHEDULE_PARAM (R198). -/
def scheduleParam (s : State) (_q : Req) (p : Bytes) : Reply :=
  let h := fld p 0 1
  let n := fld p 1 1
  let x := headOf s h
  let c := headSet s h
  if !(fieldsOk p [⟨0, 1, 0, 47, false⟩, ⟨1, 1, 1, 16, false⟩, ⟨2, 2, 1, 65535, false⟩] [(5, 3), (16 + 8 * n, 128 - 8 * n)]
    && (decide (fld p 4 1 < 16) || fld p 4 1 == 0xFF)) then reply stBadArg s
  else if !headReady s h then reply 0x41 s
  else match boundaryGrid s h with
    | none => reply 0x43 s
    | some (origin, step) =>
      let t := latticeAtOrAfter origin step (sfld p 8 8)
      let at0 := t - (((c.delay + 1) * step : Nat) : Int)
      if at0 ≤ s.trig.high then reply stBehind s
      else if x.schedules.any (fun d => d.target == t) then reply 0x44 s
      else if 8 ≤ x.schedules.length then reply 0x45 s
      else
        let id := s.cam.nextSchedule
        let d : Sched := { id := id, target := t, step := step, sendAt := at0, ackBy := at0 + (step : Int), paramSet := fld p 2 2
                           corrSet := fld p 4 1, writes := (List.range n).map (fun w => (fld p (16 + 8 * w) 4, fld p (20 + 8 * w) 4))
                           sent := false, acked := false, left := if c.protocol = 2 then n else 1, switchAt := t }
        let s1 := setHead h { x with schedules := x.schedules ++ [d] } s
        replyOk (leBytes 4 id ++ zeros 4 ++ leInt 8 t)
          { s1 with cam := { s1.cam with nextSchedule := if id = 2 ^ 32 - 1 then 1 else id + 1 } }

/-- Row CAM_SCHEDULE_PARAM. -/
def execCamScheduleParam (io : HostIo) (s : State) : Host.Outcome State Fault Refusal :=
  done (serve { code := 0x0314, len := some 144 } io scheduleParam s)

/-- The jobs that a schedule's writes make: one WRITEREG, or one CoaXPress packet after another. -/
def schedJobs (proto : Nat) (d : Sched) : List CtlJob :=
  if proto = 2 then d.writes.map (fun w => ⟨2, d.id, 1, leBytes 4 w.1 ++ leBytes 4 w.2, none⟩)
  else [⟨2, d.id, gvcpWriteReg, d.writes.flatMap (fun w => beWord w.1 ++ beWord w.2), none⟩]

/-- Row PARAM_WRITE_SEND: the schedules whose boundary t - d - 1 has matched leave (R197). -/
def execParamWriteSend (head : Nat) (s : State) : Host.Outcome State Fault Refusal :=
  done (
    let x := headOf s head
    let now := (trigUnit s (headSet s head).unit).h
    let due := x.schedules.filter (fun d => !d.sent && decide (d.sendAt ≤ now))
    due.foldl (fun t d =>
      nextControl head (modHead head (fun y => { y with jobs := y.jobs ++ schedJobs (headSet s head).protocol d })
        (modSched head d.id (fun e => { e with sent := true }) t))) s)

/-- CAM.CANCEL_PARAM (R200): a schedule that is not known counts as one that cannot be removed any more. -/
def cancelParam (s : State) (_q : Req) (p : Bytes) : Reply :=
  let id := fld p 0 4
  if id = 0 || !zeroRange p 4 4 then reply stBadArg s
  else match (List.range 48).find? (fun h => (headOf s h).schedules.any (fun d => d.id == id && !d.sent)) with
    | some h => reply stOk (raise 0x050A 1 h id 0 (dropSched h id s))
    | none => reply 0x4A s

/-- Row CAM_CANCEL_PARAM. -/
def execCamCancelParam (io : HostIo) (s : State) : Host.Outcome State Fault Refusal :=
  done (serve { code := 0x0315, len := some 8 } io cancelParam s)

/-- The parameter set that a head has at a position. -/
def paramAt (x : Head) (pos : Int) : Nat × Nat := match x.params.find? (fun e => decide (e.start ≤ pos)) with
  | some e => (e.paramSet, e.corrSet)
  | none => (0, 0)

/-- Whether a line's boundary carries degraded because the head may have switched at either side (R199): of a switch that has been, or,
without confirmation, of one whose writes have gone out. (DEDUCED, log entry 92) -/
def paramUnsure (x : Head) (confirm : Bool) (pos : Int) : Bool :=
  x.params.any (fun e => match e.unsure with
    | some step => decide (e.start - step ≤ pos) && decide (pos < e.start + step)
    | none => false)
  || (!confirm && x.schedules.any (fun d => d.sent && decide (d.switchAt - (d.step : Int) ≤ pos)
    && decide (pos < d.switchAt + (d.step : Int))))

/-- The device switches a head at a position: PARAM_APPLIED ends the schedule (R199, R200). -/
def switchParams (h : Nat) (c : Sched) (pos : Int) (s : State) : State :=
  let x := headOf s h
  let corr := if c.corrSet = 0xFF then (paramAt x pos).2 else c.corrSet
  let span : ParamSpan := ⟨pos, c.paramSet, corr, if (headSet s h).confirm then none else some c.step⟩
  let s1 := modHead h (fun y => { y with params := (span :: y.params).take 16, lastSwitch := pos }) s
  raise 0x0505 0 h c.id pos (dropSched h c.id s1)

/-- The u16 at confirm_offset of a line as the head sent it, none where a byte of it has not arrived. -/
def confirmField (c : HeadCfg) (sent : List (Option Byte)) : Option Nat :=
  match sent[c.confirmOffset]?, sent[c.confirmOffset + 1]? with
  | some (some a), some (some b) => some (a.toNat + 256 * b.toNat)
  | _, _ => none

/-- A paired line of a head reaches ingest, its record's compare value and position given: an unconfirmed schedule whose
boundary has come switches; with CONFIRM the first boundary from t - 1 on that shows the new set switches, and t + 16 without
it gives the schedule up (R199). `first` says that the line is a boundary's first, the only one at which a head switches. -/
def paramLine (h : Nat) (value pos : Int) (first : Bool) (line : List (Option Byte)) (s : State) : State :=
  let c := headSet s h
  let reach := max pos value
  if !first then s
  else if !c.confirm then
    ((headOf s h).schedules.filter (fun d => d.acked && decide (d.switchAt ≤ reach))).foldl
      (fun t d => switchParams h d (if c.frames then pos else min d.switchAt pos) t) s
  else
    ((headOf s h).schedules.filter (fun d => d.sent && decide (d.target - (d.step : Int) ≤ reach))).foldl (fun t d =>
      if confirmField c line = some d.paramSet && decide (value < d.target + 17 * (d.step : Int)) then
        let t1 := switchParams h d pos t
        if value ≤ d.target && d.target ≤ reach then t1 else headCount h 15 (raise 0x0507 1 h d.id pos t1)
      else if d.target + 16 * (d.step : Int) ≤ reach then headCount h 14 (raise 0x0508 2 h d.id 0 (dropSched h d.id t))
      else t) s

/-! Commands -/

/-- Row CAM_SET_PORT. -/
def execCamSetPort (io : HostIo) (s : State) : Host.Outcome State Fault Refusal :=
  done (serve { code := 0x0300, len := some 16 } io (stage 0x0300 (fun p => fld p 0 1) portCheck) s)

/-- Row CAM_SET_HEAD. -/
def execCamSetHead (io : HostIo) (s : State) : Host.Outcome State Fault Refusal :=
  done (serve { code := 0x0301, len := some 64 } io (stage 0x0301 (fun p => fld p 0 1) headCheck) s)

/-- Row CAM_SET_STREAM. -/
def execCamSetStream (io : HostIo) (s : State) : Host.Outcome State Fault Refusal :=
  done (serve { code := 0x0302, len := some 32 } io (stage 0x0302 (fun p => fld p 0 1) streamCheck) s)

/-- CAM.GET_HEAD response (Table 7.11). -/
def headStatus (s : State) (p : Bytes) : Bytes :=
  let h := fld p 0 1
  let x := headOf s h
  leBytes 1 x.st ++ leBytes 1 (activePort s h) ++ leBytes 1 x.schedules.length ++ zeros 1
    ++ leBytes 2 (match x.params with | e :: _ => e.paramSet | [] => 0) ++ zeros 2 ++ leInt 8 x.lastSwitch
    ++ leInt 8 (x.lastFrame.getD 0) ++ leBytes 8 x.since

/-- Row CAM_GET_HEAD. -/
def execCamGetHead (io : HostIo) (s : State) : Host.Outcome State Fault Refusal :=
  done (serve { code := 0x0310, len := some 8 } io
    (query (fun _ p => orBadArg (decide (fld p 0 1 < 48) && zeroRange p 1 7)) headStatus) s)

/-- Whether a register belongs to the device: control privilege, and a stream channel's destination, port and packet size
(R187). -/
def reservedReg (a : Nat) : Bool :=
  a == regControl || (decide (0x0D00 ≤ a) && decide (a < 0x0D00 + 0x40 * 512)
    && (a % 0x40 == 0 || a % 0x40 == 4 || a % 0x40 == 0x18))

/-- The registers a GVCP command writes: WRITEREG names each, WRITEMEM a run of them. -/
def writtenRegs (command : Nat) (payload : Bytes) : List Nat :=
  if command = gvcpWriteReg then (List.range (payload.length / 8)).map (fun i => beFld payload (8 * i) 4)
  else if command = 0x0086 then (List.range (payload.length / 4 - 1)).map (fun i => beFld payload 0 4 / 4 * 4 + 4 * i)
  else []

/-- CAM.GVCP (R187): the command waits for its turn at the head. -/
def gvcpCmd (s : State) (q : Req) (p : Bytes) : Reply ⊕ State :=
  let h := fld p 0 1
  let cmd := fld p 2 2
  let body := p.drop 8
  let alt := bitOf (fld p 1 1) 0
  if !(p.length == 8 + fld p 4 2 && decide (h < 48) && decide (fld p 1 1 < 2) && decide (fld p 4 2 ≤ 540) && fld p 4 2 % 4 == 0
    && zeroRange p 6 2 && (headSet s h).protocol != 2 && (!alt || (headSet s h).alt.isSome)) then .inl (reply stBadArg s)
  else if !headReady s h then .inl (reply 0x41 s)
  else if cmd = gvcpPacketResend || (writtenRegs cmd body).any reservedReg then .inl (reply 0x49 s)
  else
    let s1 := { s with mbx := { s.mbx with hold := some { req := q, head := h, since := dcNow s } } }
    .inr (addJob h ⟨3, 0, cmd, body, if alt then some true else none⟩ s1)

/-- Row CAM_GVCP. -/
def execCamGvcp (io : HostIo) (s : State) : Host.Outcome State Fault Refusal :=
  done (serveOrHold { code := 0x0311, needs := some 1 } io gvcpCmd s)

/-- CAM.CXP_CONTROL: one tagged control packet (Table 7.5). (DESIGN CHOICE, log entry 51) -/
def cxpCmd (s : State) (q : Req) (p : Bytes) : Reply ⊕ State :=
  let h := fld p 0 1
  let op := fld p 1 1
  let n := fld p 2 2
  if !(decide (h < 48) && decide (op < 2) && inRangeIf true n 4 1024 && n % 4 == 0
    && p.length == 8 + (if op = 1 then n else 0) && (headSet s h).protocol != 1) then .inl (reply stBadArg s)
  else if !headReady s h then .inl (reply 0x41 s)
  else
    let s1 := { s with mbx := { s.mbx with hold := some { req := q, head := h, since := dcNow s } } }
    .inr (addJob h ⟨4, 0, op, (p.drop 4).take 4 ++ (if op = 1 then p.drop 8 else leBytes 2 n), none⟩ s1)

/-- Row CAM_CXP_CONTROL. -/
def execCamCxpControl (io : HostIo) (s : State) : Host.Outcome State Fault Refusal :=
  done (serveOrHold { code := 0x0312, needs := some 2 } io cxpCmd s)

/-- The proxied job that the Headstock holds becomes a ticket's. -/
def retag (n : Nat) (j : CtlJob) : CtlJob := if 3 ≤ j.tag && j.ref = 0 then { j with ref := n } else j

/-- Row GVCP_PROXY_DEADLINE: 1.5 ms after its start the held command is answered with a ticket (R187, R30). A function at
its ticket limit gets BUSY and the command is not carried on (R31). -/
def execGvcpProxyDeadline (respOk : Bool) (s : State) : Host.Outcome State Fault Refusal :=
  done (match s.mbx.hold with
    | none => s
    | some k =>
      if 48 ≤ k.head || since s k.since < usTicks 1500 || !s.mbx.answering then s else
        let s1 := { s with mbx := { s.mbx with hold := none } }
        let r := issueTicket k.req [] (fun n t => modHead k.head (fun x => { x with
          jobs := x.jobs.map (retag n), out := x.out.map (fun o => { o with job := retag n o.job }) }) t) s1
        let dropped := modHead k.head (fun x => { x with
          jobs := x.jobs.filter (fun j => !(3 ≤ j.tag && j.ref = 0))
          out := match x.out with | some o => (if 3 ≤ o.job.tag && o.job.ref = 0 then none else some o) | none => none }) s1
        if r.status = stBusy then complete k.req respOk dropped (reply stBusy dropped) else complete k.req respOk s1 r)

/-- CAM.DISCOVER: request u8 port and 7 reserved bytes; the acknowledges of 100 ms come with the ticket. -/
def discoverCmd (s : State) (q : Req) (p : Bytes) : Reply :=
  let port := fld p 0 1
  if !(zeroRange p 1 7 && isPort (posImage s) modeEth port) then reply stBadArg s
  else issueTicket q p (fun _ t => sendFrame port (.discovery port) t) s

/-- Row CAM_DISCOVER. -/
def execCamDiscover (io : HostIo) (s : State) : Host.Outcome State Fault Refusal :=
  done (serve { code := 0x0313, len := some 8 } io discoverCmd s)

end Sys2Proof.Machine
end

