-- ==== Sys2Proof/Machine/IngCfg.lean ====
section
/-! DEFINITION. The settings of the ING and COR families: request layouts, reset values, bed placement, grids, geometry,
column tables and stitches, and what CFG.COMMIT checks of them (R214, R216, R217, R232, R238 to R245). -/

namespace Sys2Proof.Machine

/-! ING.SET_BUFFER, ING.SET_STREAM, ING.SET_GROUP (Table 8.10) -/

/-- Reset value: 64 GiB (R214). -/
def bufferReset : Bytes := leBytes 16 64

/-- The look-back size in granules of 1,024 bytes. -/
def lookbackGranules (img : Image) : Nat := fld (settingIn img 0x0700 0 bufferReset) 0 2 * 2 ^ 20

/-- The checks of ING.SET_BUFFER. -/
def bufferCheck (_s : State) (p : Bytes) : Option Nat := orBadArg (inRangeIf true (fld p 0 2) 4 64 && zeroRange p 2 14)

/-- Reset value: AUTO, in no group. -/
def ingStreamReset (n : Nat) : Bytes := leBytes 16 (n + 0xFFFF00)

/-- The bed a stream names, none for AUTO. -/
def namedBed (img : Image) (n : Nat) : Option Nat :=
  let b := fld (settingIn img 0x0701 n (ingStreamReset n)) 1 1
  if b = 0xFF then none else some b

/-- The lock-step group of a stream. -/
def streamGroup (img : Image) (n : Nat) : Option Nat :=
  let g := fld (settingIn img 0x0701 n (ingStreamReset n)) 2 1
  if g = 0xFF then none else some g

/-- max_pair_age_us in force. -/
def pairAgeUs (img : Image) (n : Nat) : Nat :=
  let v := fld (settingIn img 0x0701 n (ingStreamReset n)) 4 4
  if v = 0 then 1000 else v

/-- The checks of ING.SET_STREAM. -/
def ingStreamCheck (_s : State) (p : Bytes) : Option Nat :=
  orBadArg (fieldsOk p [⟨0, 1, 0, 127, false⟩] [(3, 1), (8, 8)] && (fld p 1 1 == 0xFF || decide (fld p 1 1 < 8))
    && (fld p 2 1 == 0xFF || decide (fld p 2 1 < 64)) && zeroOrIn (fld p 4 4) 10 1000000)

/-- Reset value: NEAREST, the default wait. -/
def groupReset (g : Nat) : Bytes := leBytes 16 g

/-- Whether a group fills instead of taking the nearest line. -/
def groupFills (img : Image) (g : Nat) : Bool := fld (settingIn img 0x0702 g (groupReset g)) 1 1 == 1

/-- member_wait_us in force. -/
def memberWaitUs (img : Image) (g : Nat) : Nat :=
  let v := fld (settingIn img 0x0702 g (groupReset g)) 2 2
  if v = 0 then 20 else v

/-- The checks of ING.SET_GROUP. -/
def groupCheck (_s : State) (p : Bytes) : Option Nat :=
  orBadArg (fieldsOk p [⟨0, 1, 0, 63, false⟩, ⟨1, 1, 0, 1, false⟩] [(4, 12)] && zeroOrIn (fld p 2 2) 1 1000)

/-! Bed placement (R216, Table 8.5) -/

/-- A stream's declared rate, pixels a second. -/
def streamRate (img : Image) (n : Nat) : Nat := match streamCfg img n with | some c => c.columns * c.lineRate | none => 0

/-- The limits of a bed. -/
def bedStreamLimit : Nat := 16
def bedRateLimit : Nat := 72000000000

/-- A placement: stream and bed. -/
abbrev Placement := List (Nat × Nat)

/-- The streams that a placement puts on a bed. -/
def placedOn (pl : Placement) (b : Nat) : List Nat := (pl.filter (fun e => e.2 == b)).map (·.1)

/-- Whether a bed takes one more stream within Table 8.5. -/
def bedTakes (img : Image) (pl : Placement) (n b : Nat) : Bool :=
  decide ((placedOn pl b).length + 1 ≤ bedStreamLimit)
    && decide (sumBy (streamRate img) (placedOn pl b) + streamRate img n ≤ bedRateLimit)

/-- The bed of the lowest-numbered placed member of a stream's group. -/
def groupBed (img : Image) (pl : Placement) (n : Nat) : Option Nat := match streamGroup img n with
  | none => none
  | some g => ((List.range 128).findSome? (fun m =>
      if streamGroup img m = some g then (pl.find? (fun e => e.1 == m)).map (·.2) else none))

/-- Place one AUTO stream. (DEDUCED, log entry 55) -/
def placeAuto (img : Image) (pl : Placement) (n : Nat) : Placement :=
  let pick := match groupBed img pl n with
    | some b => if bedTakes img pl n b then some b else (List.range 8).find? (bedTakes img pl n)
    | none => (List.range 8).find? (bedTakes img pl n)
  match pick with
  | some b => pl ++ [(n, b)]
  | none => pl

/-- The placement of every declared stream: named beds first, then AUTO in ascending stream number. -/
def placement (img : Image) : Placement :=
  let all := declaredStreams img
  let named : Placement := all.filterMap (fun n => (namedBed img n).map (fun b => (n, b)))
  (all.filter (fun n => (namedBed img n).isNone)).foldl (placeAuto img) named

/-- The bed of a stream. -/
def bedOf (img : Image) (n : Nat) : Option Nat := ((placement img).find? (fun e => e.1 == n)).map (·.2)

/-- The streams of a bed, ascending. -/
def bedStreams (img : Image) (b : Nat) : List Nat := (List.range 128).filter (fun n => bedOf img n == some b)

/-! COR.SET_GRID and grids (R232) -/

/-- The grid of a stream: its group's, or its own. -/
def gridOf (img : Image) (n : Nat) : Nat := match streamGroup img n with | some g => g | none => 64 + n

/-- The member streams of a grid, ascending. -/
def gridMembers (img : Image) (k : Nat) : List Nat := (declaredStreams img).filter (fun n => gridOf img n == k)

/-- The trigger unit of a stream's head. -/
def streamUnit (img : Image) (n : Nat) : Nat := match streamCfg img n with | some c => (headCfg img c.head).unit | none => 0

/-- Phase and pitch of a grid: its setting, or the periodic generator of its members' unit. -/
def gridSet (img : Image) (k : Nat) : Option (Int × Nat) := match tfind img (settingKey 0x0802 k) with
  | some p => some (sfld p 8 8, fld p 4 4)
  | none => match gridMembers img k with
    | [] => none
    | n :: _ =>
      let u := unitCfg img (streamUnit img n)
      if u.pitch = 0 then none else some (u.phase, u.pitch)

/-- The checks of COR.SET_GRID. -/
def gridCheck (_s : State) (p : Bytes) : Option Nat :=
  orBadArg (fieldsOk p [⟨0, 1, 0, 191, false⟩, ⟨4, 4, 1000, 4000000000, false⟩] [(1, 3)])

/-! COR.SET_STREAM, COR.SET_HEAD_GEOM, COR.SET_CORR_SET (Table 9.7) -/

/-- A stream's correction settings. -/
structure CorCfg where
  correct : Bool
  replace : Bool
  nearest : Bool
  span : Nat
  deriving DecidableEq, Repr

/-- Reset value: no correction, three pitches. -/
def corReset (n : Nat) : Bytes := leBytes 16 n

/-- A stream's correction settings in an image; a span of 0 stands for three grid pitches. -/
def corCfg (img : Image) (n : Nat) : CorCfg :=
  let p := settingIn img 0x0800 n (corReset n)
  ⟨bitOf (fld p 1 1) 0, bitOf (fld p 1 1) 1, bitOf (fld p 1 1) 2,
    if fld p 4 4 = 0 then 3 * (match gridSet img (gridOf img n) with | some g => g.2 | none => 0) else fld p 4 4⟩

/-- The checks of COR.SET_STREAM. -/
def corCheck (_s : State) (p : Bytes) : Option Nat :=
  orBadArg (fieldsOk p [⟨0, 1, 0, 127, false⟩, ⟨1, 1, 0, 7, false⟩] [(2, 2), (8, 8)] && zeroOrIn (fld p 4 4) 1000 4000000000)

/-- A head's place on the strip: origin in nm, pitch in pm, offset along the strip in nm (R244). -/
structure GeomCfg where
  pitch : Int
  origin : Int
  down : Int
  deriving DecidableEq, Repr

/-- Reset value: origin 0, pitch 40,000,000 pm, offset 0 (R244). -/
def geomReset (h : Nat) : Bytes := leBytes 32 (h + 40000000 * 2 ^ 32)

/-- A head's geometry in an image. -/
def geomCfg (img : Image) (h : Nat) : GeomCfg :=
  let p := settingIn img 0x0801 h (geomReset h)
  ⟨sfld p 4 4, sfld p 8 8, sfld p 16 4⟩

/-- The checks of COR.SET_HEAD_GEOM. -/
def geomCheck (_s : State) (p : Bytes) : Option Nat :=
  let m := (sfld p 4 4).natAbs
  orBadArg (fieldsOk p [⟨0, 1, 0, 47, false⟩, ⟨8, 8, -10000000000, 10000000000, true⟩, ⟨16, 4, -100000000, 100000000, true⟩]
    [(1, 3), (20, 12)] && inRangeIf true m 1000000 1000000000)

/-- A correction set's values. -/
structure CorrSet where
  gain : Nat
  offset : Int
  dark : Nat
  deriving DecidableEq, Repr

/-- Reset value: gain and dark_scale 0x4000, offset 0 (R238). -/
def corrSetReset (obj : Nat) : Bytes :=
  leBytes 1 (obj / 16) ++ leBytes 1 (obj % 16) ++ leBytes 2 0x4000 ++ leBytes 2 0 ++ leBytes 2 0x4000 ++ zeros 8

/-- A correction set of a stream. -/
def corrSet (img : Image) (n k : Nat) : CorrSet :=
  let p := settingIn img 0x0803 (n * 16 + k) (corrSetReset (n * 16 + k))
  ⟨fld p 2 2, sfld p 4 2, fld p 6 2⟩

/-- The object of COR.SET_CORR_SET (Table 9.5). -/
def corrSetObj (p : Bytes) : Nat := fld p 0 1 * 16 + fld p 1 1

/-- The checks of COR.SET_CORR_SET. -/
def corrSetCheck (_s : State) (p : Bytes) : Option Nat :=
  orBadArg (fieldsOk p [⟨0, 1, 0, 127, false⟩, ⟨1, 1, 0, 15, false⟩] [(8, 8)])

/-! COR.LOAD_TABLE (R239 to R241) -/

/-- One column entry as a 64-bit word (Table 9.1). -/
def entryWord (table : Bytes) (c : Nat) : Nat := if table.length < 8 * (c + 1) then 0x4000 else fld table (8 * c) 8

/-- The fields of a column entry. -/
structure ColEntry where
  gain : Nat
  dark : Nat
  offset : Int
  mode : Nat
  dl : Nat
  dr : Nat
  deriving DecidableEq, Repr

/-- Read a column entry. -/
def colEntry (w : Nat) : ColEntry :=
  ⟨bitsOf w 0 16, bitsOf w 16 16, signedOf 16 (bitsOf w 32 16), bitsOf w 48 3, bitsOf w 51 6, bitsOf w 57 6⟩

/-- The granules of a stream of some columns. -/
def tableGranules (columns : Nat) : Nat := ceilDiv columns 512

/-- The reset table of a number of columns. -/
def tableReset (columns : Nat) : Bytes := (List.replicate (512 * tableGranules columns) (leBytes 8 0x4000)).flatten

/-- The entries of a stream in an image; none loaded reads as the reset entries. -/
def streamTable (img : Image) (n : Nat) : Bytes := settingIn img 0x0804 n []

/-- Whether an entry meets Table 9.1 and R239 in a table of some columns. -/
def entryOk (table : Bytes) (columns c : Nat) : Bool :=
  let w := entryWord table c
  let e := colEntry w
  let left := e.mode == 1 || e.mode == 3
  let right := e.mode == 2 || e.mode == 3
  let good (k : Nat) : Bool := (colEntry (entryWord table k)).mode == 0
  if columns ≤ c then w == 0x4000
  else decide (e.mode ≤ 4) && decide (w < 2 ^ 63)
    && (if left then decide (1 ≤ e.dl) && decide (e.dl ≤ c) && good (c - e.dl) else e.dl == 0)
    && (if right then decide (1 ≤ e.dr) && decide (c + e.dr < columns) && good (c + e.dr) else e.dr == 0)

/-- The lowest offending column of a table. -/
def badColumn (table : Bytes) (columns : Nat) : Option Nat :=
  (List.range (512 * tableGranules columns)).find? (fun c => !entryOk table columns c)

/-- First granule and number of granules of each declared stream's table (R240). -/
def tableSpan (img : Image) (n : Nat) : Nat × Nat :=
  let size (m : Nat) : Nat := match streamCfg img m with | some c => tableGranules c.columns | none => 0
  (sumBy size (List.range n), size n)

/-! COR.SET_STITCH (R245) -/

/-- A stitch's settings. -/
structure StitchCfg where
  enable : Bool
  seam : Bool
  members : List Nat
  originUm : Int
  pitchNm : Nat
  columns : Nat
  fill : Nat
  deriving DecidableEq, Repr

/-- Reset value: not enabled. -/
def stitchReset (t : Nat) : Bytes := leBytes 32 t

/-- A stitch's settings in an image. -/
def stitchCfg (img : Image) (t : Nat) : StitchCfg :=
  let p := settingIn img 0x0805 t (stitchReset t)
  ⟨fld p 1 1 == 1, fld p 2 1 == 1, (List.range (min 8 (fld p 3 1))).map (fun i => fld p (4 + i) 1), sfld p 12 4, fld p 16 4,
    fld p 20 4, fld p 24 2⟩

/-- The checks of COR.SET_STITCH. -/
def stitchCheck (_s : State) (p : Bytes) : Option Nat :=
  let n := fld p 3 1
  orBadArg (fieldsOk p [⟨0, 1, 0, 15, false⟩, ⟨1, 1, 0, 1, false⟩, ⟨2, 1, 0, 1, false⟩, ⟨3, 1, 2, 8, false⟩,
      ⟨16, 4, 1000, 1000000, false⟩, ⟨20, 4, 1, 65536, false⟩] [(26, 6)]
    && (List.range 8).all (fun i => if i < n then decide (fld p (4 + i) 1 < 128) else fld p (4 + i) 1 == 0xFF))

/-- The cross-strip position of a column of a stream, in pm. -/
def columnPm (img : Image) (n c : Nat) : Int := match streamCfg img n with
  | some d => (geomCfg img d.head).origin * 1000 + (c : Int) * (geomCfg img d.head).pitch
  | none => 0

/-- The covered span of a stream, in pm: the positions of its outermost columns (R245). -/
def coveredSpan (img : Image) (n : Nat) : Int × Int :=
  let last := match streamCfg img n with | some d => d.columns - 1 | none => 0
  let a := columnPm img n 0
  let b := columnPm img n last
  (min a b, max a b)

/-- A list without repeats. -/
def distinct (l : List Nat) : Bool := match l with
  | [] => true
  | x :: t => !t.contains x && distinct t

/-- Whether the spans of successive members rise at both ends. -/
def spansRise : List (Int × Int) → Bool
  | [] => true
  | [_] => true
  | a :: b :: t => decide (a.1 < b.1) && decide (a.2 < b.2) && spansRise (b :: t)

/-- Rows a second of a stream's grid: the line rate, by trigger pitch over grid pitch (R245). -/
def gridRowRate (img : Image) (n : Nat) : Rat :=
  match streamCfg img n, gridSet img (gridOf img n) with
  | some c, some g =>
    let tp := (unitCfg img (streamUnit img n)).pitch
    if tp = 0 then (c.lineRate : Rat) else (c.lineRate * tp : Rat) / (g.2 : Rat)
  | _, _ => 0

/-- The largest of some rates. -/
def maxRate (l : List Rat) : Rat := l.foldl (fun a b => if a < b then b else a) 0

/-- The bed of a stitch: its members'. -/
def stitchBed (img : Image) (t : Nat) : Option Nat := match (stitchCfg img t).members with
  | n :: _ => bedOf img n
  | [] => none

/-- The stitched output of a bed, pixels a second. -/
def stitchLoad (img : Image) (b : Nat) : Rat :=
  ((List.range 16).filter (fun t => (stitchCfg img t).enable && stitchBed img t == some b)).foldl
    (fun a t => a + ((stitchCfg img t).columns : Rat) * maxRate ((stitchCfg img t).members.map (gridRowRate img))) 0

/-- R245 for a stitch. -/
def stitchValid (img : Image) (t : Nat) : Option Nat :=
  let c := stitchCfg img t
  let head (n : Nat) : Nat := match streamCfg img n with | some d => d.head | none => 0xFFFF
  if !c.enable then none
  else if !c.members.all (fun n => (streamCfg img n).isSome) then some stBadArg
  else match c.members with
    | [] => some stBadArg
    | m :: _ =>
      if (streamGroup img m).isNone || !c.members.all (fun n => streamGroup img n == streamGroup img m && bedOf img n == bedOf img m)
      then some 0x43
      else if !distinct (c.members.map head) || !spansRise (c.members.map (coveredSpan img))
        || (List.range 16).any (fun u => u != t && (stitchCfg img u).enable
            && (stitchCfg img u).members.any (fun n => c.members.contains n)) then some 0x44
      else match stitchBed img t with
        | some b => if (bedRateLimit : Rat) < stitchLoad img b then some 0x46 else none
        | none => none

/-! What CFG.COMMIT checks -/

/-- Table 8.5 and R232 for a declared stream. -/
def ingestValid (img : Image) (n : Nat) : Option Nat :=
  if (streamCfg img n).isNone then none else
  match bedOf img n with
  | none => some 0x43
  | some b =>
    let on := bedStreams img b
    let k := gridOf img n
    if bedRateLimit < sumBy (streamRate img) on then some 0x40
    else if bedStreamLimit < on.length then some 0x41
    else if (gridMembers img k).any (fun m => streamUnit img m != streamUnit img n) then some 0x42
    else none

/-- R232 for a declared stream. -/
def gridValid (img : Image) (n : Nat) : Option Nat :=
  if (streamCfg img n).isNone then none else
  match gridSet img (gridOf img n) with
  | none => some 0x40
  | some g => if g.2 < (unitCfg img (streamUnit img n)).pitch then some 0x41 else none

/-- What CFG.COMMIT checks of the ING and COR settings, of those of the image and of every declared stream's. -/
def ingValidate (old img : Image) (code obj : Nat) : Option Nat :=
  if code = 0x0700 then
    if lookbackGranules old != lookbackGranules img && !(declaredStreams old).isEmpty then some 0x46 else none
  else if code = 0x0701 then ingestValid img obj
  else if code = 0x0802 then (gridMembers img obj).findSome? (gridValid img)
  else if code = 0x0804 then
    match streamCfg img obj with
    | none => none
    | some c => if (streamTable img obj).length ≤ 8 * 512 * tableGranules c.columns then none else some 0x45
  else if code = 0x0805 then stitchValid img obj
  else none

end Sys2Proof.Machine
end

