-- ==== Sys2Proof/Machine/Ingest.lean ====
section
/-! DEFINITION. Ingest: stream packets, gaps and resends, lines, pairing, the look-back buffer, slots and catch-up, and the
ING commands (R189 to R191, R194, R203 to R222, R227 to R229). -/

namespace Sys2Proof.Machine

/-! Accessors -/

/-- A stream channel's reassembly. -/
def chan7 (s : State) (n : Nat) : Chan7 := tget {} s.cam.chans n

/-- Set it. -/
def setChan7 (n : Nat) (x : Chan7) (s : State) : State := { s with cam := { s.cam with chans := tset {} s.cam.chans n x } }

/-- A stream's ingest state. -/
def streamSt (s : State) (n : Nat) : StreamSt := tget {} s.ing.streams n

/-- Set it. -/
def setStreamSt (n : Nat) (x : StreamSt) (s : State) : State :=
  { s with ing := { s.ing with streams := tset {} s.ing.streams n x } }

/-- A bed. -/
def bedSt (s : State) (b : Nat) : Bed := tget {} s.ing.beds b

/-- Set it. -/
def setBed (b : Nat) (x : Bed) (s : State) : State := { s with ing := { s.ing with beds := tset {} s.ing.beds b x } }

/-- A stream counter (Table 8.15). (DESIGN CHOICE, log entry 34) -/
def ingCount (n k : Nat) (s : State) : State := bump 7 (n * 16 + k) s

/-- Add to a stream counter. -/
def ingCountBy (n k v : Nat) (s : State) : State := bumpBy 7 (n * 16 + k) v s

/-- The declaration of a stream that ingest follows. -/
def streamSet (s : State) (n : Nat) : Option StreamCfg := streamCfg (posImage s) n

/-- Change the look-back buffer. -/
def setLb (x : LookBack) (s : State) : State := { s with ing := { s.ing with lb := x } }

/-- A line of the look-back buffer by its line_seq. -/
def lbLine (s : State) (seq : Nat) : Option LbLine := s.ing.lb.lines.find? (fun l => l.seq == seq)

/-- Change a line of the look-back buffer. -/
def modLine (seq : Nat) (f : LbLine → LbLine) (s : State) : State :=
  setLb { s.ing.lb with lines := s.ing.lb.lines.map (fun l => if l.seq = seq then f l else l) } s

/-- Whether stack parity is in force. -/
def parityOn (s : State) : Bool := feature s 6

/-- The granules of the ring that hold lines: three quarters once a stack is lost without parity (R213). -/
def ringOf (parity : Bool) (lost n : Nat) : Nat := if parity || lost = 0 then n else n * 3 / 4

/-- The size of the ring in granules. -/
def ringGranules (s : State) : Nat := ringOf (parityOn s) s.ing.lb.lostStacks (lookbackGranules (posImage s))

/-! Look-back writes (R209 to R213) -/

/-- The stack of data granule `k` (0 to 2) of a stripe: the parity granule rotates over the stacks. -/
def stripeStack (stripe k : Nat) : Nat := (stripe + 1 + k) % 4

/-- The stacks that granules are written to: those that are not lost. -/
def liveStacks (b : LookBack) : List Nat := (List.range 4).filter (fun k => !bitOf b.lostStacks k)

/-- Write one granule: its stack, and the buffer after it. With parity a stripe goes to the four stacks, or to the three survivors
without a parity granule (R422); without parity granules rotate over the stacks that live. -/
def writeGranule (parity : Bool) (now : Nat) (b : LookBack) : Nat × LookBack :=
  if parity then
    let st := if b.lostStacks = 0 then stripeStack b.stripe b.stripeFill else nthD 0 (liveStacks b) b.stripeFill
    let full := decide (b.stripeFill = 2)
    (st, { b with
      wp := b.wp + 1, stripe := if full then b.stripe + 1 else b.stripe, stripeFill := if full then 0 else b.stripeFill + 1
      stripeAt := if b.stripeFill = 0 then now else b.stripeAt })
  else
    (nthD 0 (liveStacks b) (b.wp % (liveStacks b).length), { b with wp := b.wp + 1 })

/-- Write some granules; the stacks they went to, in order. -/
def writeGranules (parity : Bool) (now : Nat) : Nat → LookBack → List Nat × LookBack
  | 0, b => ([], b)
  | n + 1, b =>
    let r := writeGranule parity now b
    let q := writeGranules parity now n r.2
    (r.1 :: q.1, q.2)

/-- The granules of a line that lie on marked channels of a stack: all of them on a stack that is failed whole, else those that the
device put on the marked channels (`Config.granuleChannels`). Lines written after the mark have none on the stack.
(DESIGN CHOICE, log entry 39) -/
def granulesLost (s : State) (k : Nat) (l : LbLine) : Nat :=
  ((List.range l.granules).filter (fun i => l.onStacks[i]? == some k
    && (bitOf s.fault.failedStacks k || decide (Config.granuleChannels (l.granule + i) &&& tget 0 s.fault.marked k ≠ 0)))).length

/-- The granules of a line on the marked channels of the stacks that are lost. (DESIGN CHOICE, log entry 39) -/
def granulesRebuilt (s : State) (l : LbLine) : Nat := sumBy (fun k => granulesLost s k l) (setBits 4 s.ing.lb.lostStacks)

/-- Whether a read of a line is rebuilt from parity (R213, R422). -/
def readsRebuilt (s : State) (l : LbLine) : Bool := parityOn s && granulesRebuilt s l != 0

/-- A line is read through rebuild: its granules are counted, for the device and for the stack (Table 8.15, R433). -/
def countRebuilt (l : LbLine) (s : State) : State :=
  (setBits 4 s.ing.lb.lostStacks).foldl (fun t k => bumpBy 14 (16 + k * 4 + 2) (granulesLost s k l) t) (bumpBy 7 2114 (granulesRebuilt s l) s)

/-- Lines are read: those that are read through rebuild are counted. -/
def countReads (ls : List LbLine) (s : State) : State := ls.foldl (fun t l => if readsRebuilt s l then countRebuilt l t else t) s

/-- Whether a line's granules have been overwritten or lost (R212, R213). -/
def overwritten (s : State) (l : LbLine) : Bool := l.lost || decide (l.granule + ringGranules s < s.ing.lb.wp)

/-- Forget the lines whose index entries have been overwritten too; where they lay is kept, so that a tile cut still knows that it lacks
them (R322). -/
def trimRing (cap : Nat) (b : LookBack) : LookBack :=
  let held (l : LbLine) : Bool := match l.idxGranule with | some g => decide (b.wp ≤ g + cap) | none => true
  { b with
    lines := b.lines.filter held
    forgotten := (b.lines.filter (fun l => !held l)).reverse.foldl (fun t l => match l.pos with
      | some p => tput t l.stream (match tfind t l.stream with | some q => max p q | none => p)
      | none => t) b.forgotten }

/-- The granules of a line slot: 64 bytes of record, then the pixels (R209). -/
def lineGranules (l : LbLine) : Nat := ceilDiv (64 + lineBytes l.format l.px.length) 1024

/-- The offset along the strip of a stream's head (R244). -/
def downOffset (img : Image) (n : Nat) : Int := match streamCfg img n with | some c => (geomCfg img c.head).down | none => 0

/-- A line's position on the strip: its record's and its head's down_offset (R233). -/
def stripPos (img : Image) (l : LbLine) : Int := l.pos.getD 0 + downOffset img l.stream

/-- Write a line into the look-back buffer: its slot, its index entry, and the index granule that it fills (R209). -/
def writeLine (l : LbLine) (s : State) : State :=
  let b := s.ing.lb
  let n := lineGranules l
  let r := writeGranules (parityOn s) (dcNow s) n b
  let l' := { l with seq := b.nextSeq, granule := b.wp, granules := n, onStacks := r.1 }
  let x := streamSt s l.stream
  let b1 := { r.2 with nextSeq := b.nextSeq + 1, lines := l' :: b.lines }
  let s1 := bumpBy 7 2112 n (setStreamSt l.stream { x with idxFill := if x.idxFill = 63 then 0 else x.idxFill + 1 } s)
  if x.idxFill = 63 then
    let q := writeGranule (parityOn s) (dcNow s) b1
    bump 7 2112 (setLb (trimRing (ringGranules s) { q.2 with
      lines := q.2.lines.map (fun m => if m.stream = l.stream && m.idxGranule.isNone then { m with idxGranule := some b1.wp } else m) }) s1)
  else setLb (trimRing (ringGranules s) b1) s1

/-- Row STRIPE_FLUSH: a stripe open for 1 µs is written with its missing granules as zero, unused (R210). -/
def execStripeFlush (s : State) : Host.Outcome State Fault Refusal :=
  done (
    let b := s.ing.lb
    if b.stripeFill = 0 || decide (since s b.stripeAt < usTicks 1) then s
    else bump 7 2113 (setLb { b with wp := b.wp + (3 - b.stripeFill), stripe := b.stripe + 1, stripeFill := 0 } s))

/-! Pixels (R203, R208) -/

/-- The pixel values that packed bytes hold, where every byte a pixel touches has arrived. -/
def unpackPixels (format count : Nat) (b : List (Option Byte)) : List (Option Nat) :=
  let w := containerBits format
  (List.range count).map (fun i =>
    let lo := i * w
    let first := lo / 8
    let last := (lo + w - 1) / 8
    let part := (b.drop first).take (last + 1 - first)
    if part.length = last + 1 - first && part.all (·.isSome) then
      some (leNat (part.map (·.getD 0)) / 2 ^ (lo % 8) % 2 ^ formatDepth format)
    else none)

/-- Pixels packed into their containers, least significant bit first. -/
def packPixels (format : Nat) (px : List Nat) : Bytes :=
  let w := containerBits format
  let r := px.foldl (fun (a : Nat × Nat) v => (a.1 + v * 2 ^ a.2, a.2 + w)) (0, 0)
  leBytes (ceilDiv r.2 8) r.1

/-- A line's pixels, missing ones at its fill_value. -/
def linePixels (l : LbLine) : List Nat := l.px.map (·.getD l.fill)

/-- A line's packed bytes. -/
def linePacked (l : LbLine) : Bytes := packPixels l.format (linePixels l)

/-- The arrival record of a line (Table 8.3). -/
def arrivalRecord (l : LbLine) : Bytes :=
  let n := lineBytes l.format l.px.length
  let body := leBytes 8 l.seq ++ leInt 8 (l.pos.getD 0) ++ leBytes 8 l.trigDc ++ leBytes 8 l.arrDc ++ leBytes 8 l.block
    ++ leBytes 4 l.trigSeq ++ leBytes 2 l.index ++ leBytes 1 l.stream ++ leBytes 1 l.flags ++ leBytes 2 l.paramSet
    ++ leBytes 2 (min 65535 l.valid) ++ leBytes 4 n ++ zeros 4
  body ++ leBytes 4 (crc32c body)

/-- The index entry of a line (R209). -/
def indexEntry (l : LbLine) : Bytes := leInt 8 (l.pos.getD 0) ++ leBytes 4 l.granule ++ leBytes 4 (l.seq % 2 ^ 32)

/-- The first 64 bytes that the place of an overwritten line's record holds now: of the slot written over it, or of an index granule; what
no line or entry tells of reads zero. (DESIGN CHOICE, log entry 34) -/
def overwrittenBy (s : State) (l : LbLine) : Bytes :=
  let ring := max 1 (ringGranules s)
  let a := l.granule + ring * ((s.ing.lb.wp - 1 - l.granule) / ring)
  fitTo 64 (match s.ing.lb.lines.find? (fun m => decide (m.granule ≤ a) && decide (a < m.granule + m.granules)) with
    | some m => ((arrivalRecord m ++ linePacked m).drop (1024 * (a - m.granule))).take 64
    | none => ((s.ing.lb.lines.reverse.filter (fun m => m.idxGranule == some a)).take 4).flatMap indexEntry)

/-- Whether the record that is read where an overwritten line lay passes its record_crc. -/
def recordGood (s : State) (l : LbLine) : Bool :=
  let b := overwrittenBy s l
  crc32c (b.take 60) == leNat (b.drop 60)

/-- Reads of lines of a stream that find them overwritten: LB_OVERWRITTEN counts them, and of those whose record fails its record_crc the
device keeps a count of its own (R212, Table 8.15). -/
def countOverwritten (n : Nat) (ls : List LbLine) (s : State) : State :=
  bumpBy 7 2116 ((ls.filter (fun l => !l.lost && !recordGood s l)).length) (ingCountBy n 15 ls.length s)

/-! Reassembly (R188 to R191, R203, R208) -/

/-- The payload of a full GVSP packet (R183). (PRESUMED, log entry 50) -/
def packetPayload : Nat := 15934

/-- Payload bytes of a declared block. -/
def blockBytes (c : StreamCfg) : Nat := c.frameLines * lineBytes c.format c.columns

/-- The packet ID of a declared image's trailer: the leader is 0, payload packets count from 1. -/
def trailerPid (c : StreamCfg) : Nat := ceilDiv (blockBytes c) packetPayload + 1

/-- The bytes of a range of a block's payload that have arrived. -/
def blockRange (b : Block) (off len : Nat) : List (Option Byte) :=
  (List.range len).map (fun i =>
    let a := off + i
    match b.segs.reverse.find? (fun e => decide (e.1 ≤ a) && decide (a < e.1 + e.2.length)) with
    | some e => e.2[a - e.1]?
    | none => none)

/-- Whether two byte ranges touch. -/
def rangesMeet (o1 l1 o2 l2 : Nat) : Bool := decide (o1 < o2 + l2) && decide (o2 < o1 + l1)

/-- The bytes of one line of a block as received: its own width decides (R208). -/
def rxLineBytes (c : StreamCfg) (b : Block) : Nat := lineBytes c.format b.width

/-- A block's payload ends here: what has arrived, or what was given up. -/
def blockEnd (b : Block) : Nat := b.givenUp.foldl (fun m e => max m (e.1 + e.2)) b.top

/-- Lines of a block whose last byte's place has been reached. -/
def linesReady (c : StreamCfg) (b : Block) : Nat := if b.width = 0 then 0 else blockEnd b / rxLineBytes c b

/-- The stream of a head that a packet belongs to. -/
def packetStream (s : State) (p : StreamPacket) : Option Nat :=
  (headStreams (posImage s) p.head).find? (fun n => match streamSet s n with | some c => c.channel == p.channel | none => false)

/-- A new block. -/
def newBlock (id dc width : Nat) : Block :=
  { id := id, firstDc := dc, width := width, segs := [], resent := [], givenUp := [], gaps := [], nextPid := 0, top := 0
    lines := 0, closed := false, short := false, imageEnd := none, parts := [] }

/-- Whether bytes that were given up may yet come by resend (R191): CoaXPress has no resend. -/
def mayCome (c : StreamCfg) (b : Block) : Bool := decide (1024 ≤ c.channel) && !b.givenUp.isEmpty

/-- The blocks after a change of one of them; a block that has given all its lines and waits for nothing is gone, but for one that
closed short or gave packets up: those may yet come. -/
def putBlock (b : Block) (c : StreamCfg) (l : List Block) : List Block :=
  let beyond := b.closed && !b.short && !mayCome c b && b.gaps.isEmpty && decide (linesReady c b ≤ b.lines)
  if beyond then l.filter (fun x => x.id != b.id)
  else if l.any (fun x => x.id == b.id) then l.map (fun x => if x.id = b.id then b else x)
  else l ++ [b]

/-- The blocks of a stream that a new block leaves: those with lines still to take or packets still to come, the latter while the
look-back buffer holds a line of theirs. -/
def keepBlocks (s : State) (n : Nat) (c : StreamCfg) (l : List Block) : List Block :=
  l.filter (fun b => !(b.closed && b.gaps.isEmpty && decide (linesReady c b ≤ b.lines))
    || (mayCome c b && s.ing.lb.lines.any (fun k => k.stream == n && k.block == b.id && !overwritten s k)))

/-- Whether a trigger sequence comes after another, in the circle of 2^32. -/
def seqAfter (a b : Nat) : Bool := let d := (a + 2 ^ 32 - b) % 2 ^ 32; decide (0 < d) && decide (d < 2 ^ 31)

/-- Take the packets of a range out of the gaps. -/
def cutGaps (lo hi : Nat) (gaps : List Gap) : List Gap :=
  gaps.flatMap (fun g =>
    if hi < g.lo || g.hi < lo then [g]
    else (if g.lo < lo then [{ g with hi := lo - 1 }] else []) ++ (if hi < g.hi then [{ g with lo := hi + 1 }] else []))

/-- The pixels of line `i` of a block that have been received, before padding or truncation (Table 8.3). -/
def receivedPixels (c : StreamCfg) (b : Block) (i : Nat) : Nat :=
  ((unpackPixels c.format b.width (blockRange b (i * rxLineBytes c b) (rxLineBytes c b))).filter (·.isSome)).length

/-- Whether a line comes after its gate has opened (R226): a grid position that it would have served is released, or has the stream's row
made at an expiry that is past. `prev` is the position of the stream's line before it. -/
def lateForGate (s : State) (n : Nat) (prev pos : Int) : Bool :=
  let img := posImage s
  match tget none s.ing.gates (gridOf img n), gridSet img (gridOf img n), streamSet s n with
  | some g, some k, some c =>
    let d := (geomCfg img c.head).down
    let first := latticeAtOrAfter k.1 k.2 (prev + d)
    let opened := g.made.contains n && (match g.expired with | some t => t != dcNow s | none => false)
    (decide (first < g.g) || (opened && decide (first ≤ g.g))) && decide (first < pos + d)
  | _, _, _ => false

/-- A paired line has come whole, or goes on as it is: it counts LATE_MEMBER if its gate has opened before (R226). -/
def arrivedLate (n : Nat) (l : LbLine) (s : State) : State :=
  match l.pos, (s.ing.lb.lines.find? (fun m => m.stream == n && m.pos.isSome && decide (m.seq < l.seq))).bind (·.pos) with
  | some q, some prev => if lateForGate s n prev q then ingCount n 14 s else s
  | _, _ => s

/-- The part of a line's pixels that a late packet brings (R191, R207): the look-back line takes it, padded clears once every
pixel is there, and a resent packet sets resent. -/
def patchLines (n : Nat) (c : StreamCfg) (b : Block) (off len : Nat) (resent : Bool) (s : State) : State :=
  let lb := rxLineBytes c b
  let width := min b.width c.columns
  let hit := s.ing.lb.lines.filter (fun l => l.stream == n && l.block == b.id && rangesMeet off len (l.index * lb) lb)
  hit.foldl (fun t l =>
    let px := unpackPixels c.format width (blockRange b (l.index * lb) lb) ++ l.px.drop width
    let whole := px.all (·.isSome)
    let fl := (if whole && b.width ≥ c.columns then l.flags - 2 * (l.flags / 2 % 2) else l.flags) ||| 32 * b2n resent
    let t1 := modLine l.seq (fun m => { m with
      px := px, flags := fl, valid := receivedPixels c b l.index, waiting := m.waiting && !whole
      freeDc := if m.waiting && whole then dcNow s else m.freeDc }) t
    if l.waiting && whole then arrivedLate n l t1 else t1) s

/-- Flags are set on a line, in the look-back buffer and in the copies that its bed holds. -/
def flagLine (n : Nat) (l : LbLine) (bits : Nat) (s : State) : State :=
  let mark (k : LbLine) : LbLine := { k with flags := k.flags ||| bits }
  let held (b : BedLine) : BedLine := if b.line.seq = l.seq then { b with line := mark b.line } else b
  let x := streamSt s n
  modLine l.seq mark (setStreamSt n { x with lineA := x.lineA.map held, lineB := x.lineB.map held } s)

/-- The records of a block's lines that stand in the unit's log and that no line has claimed. (DEDUCED, log entry 54) -/
def unclaimedOf (s : State) (c : StreamCfg) (b : Block) : List Nat :=
  let x := headOf s c.head
  match x.align with
  | none => []
  | some (bb, sb) =>
    (((trigUnit s (headSet s c.head).unit).records.take 4096).map (·.sequence)).filter (fun q =>
      seqAfter (sb + (b.id + 1 - bb) * c.frameLines) q && (match x.claimed with | some k => seqAfter q k | none => true))

/-- Close a block: with fewer than frame_lines lines it is short (R208): its last line carries degraded, and the records that
its lines have left unclaimed are counted. A block whose last packets are still to be resent is not short. (DEDUCED, log entry 54) -/
def closeBlock (n : Nat) (c : StreamCfg) (b : Block) (s : State) : Block × State :=
  if b.closed then (b, s) else
    let got := linesReady c b
    let gapped := b.gaps.any (fun g => decide (b.nextPid ≤ g.hi + 2))
    if c.frameLines ≤ got || gapped then ({ b with closed := true }, s)
    else
      let gone := unclaimedOf s c b
      let s1 := bumpBy 7 (n * 16 + 1) gone.length (ingCount n 7 s)
      let s2 := match s1.ing.lb.lines.find? (fun l => l.stream == n && l.block == b.id && l.index + 1 == got) with
        | some l => flagLine n l 8 s1
        | none => s1
      let s3 := match gone with
        | q :: _ => modHead c.head (fun x => { x with claimed := some q }) s2
        | [] => s2
      ({ b with closed := true, short := true }, s3)

/-- A packet of a head is discarded. -/
def discardPacket (h : Nat) (s : State) : State := headCount h 1 s

/-- The lines wholly or partly in a byte range of a block that no range given up before touches. -/
def newlyLost (c : StreamCfg) (b : Block) (off len : Nat) : Nat :=
  let lb := max 1 (rxLineBytes c b)
  if len = 0 then 0
  else ((List.range ((off + len - 1) / lb + 1 - off / lb)).filter (fun k =>
    !b.givenUp.any (fun e => rangesMeet e.1 e.2 ((off / lb + k) * lb) lb))).length

/-- Bytes of a block are given up: they will be filled, and the lines they touch are counted (R190, R194). -/
def loseBytes (c : StreamCfg) (b : Block) (off len : Nat) (s : State) : Block × State :=
  let b1 := { b with width := if b.width = 0 then c.columns else b.width }
  if len = 0 then (b1, s)
  else ({ b1 with givenUp := b.givenUp ++ [(off, len)] }, bumpBy 3 (c.head * 16 + 6) (newlyLost c b1 off len) s)

/-- The bytes of a block's payload that a range of packets may hold. A full packet's place follows from its ID; in a multi-part block it
follows from the packets around the range, the parts coming one after another in ascending order. (PRESUMED, log entry 50) -/
def packetSpan (c : StreamCfg) (b : Block) (lo hi : Nat) : Nat × Nat :=
  let count := packetPayload * (hi + 1 - max 1 lo)
  match c.part with
  | none => (packetPayload * (max 1 lo - 1), count)
  | some mine =>
    let before := (b.parts.filter (fun e => decide (e.pid < lo))).foldl (fun m e => match m with
      | some k => if k.pid < e.pid then some e else m
      | none => some e) (none : Option PartPacket)
    let after := (b.parts.filter (fun e => decide (hi < e.pid))).foldl (fun m e => match m with
      | some k => if e.pid < k.pid then some e else m
      | none => some e) (none : Option PartPacket)
    let held := (match before with | some e => decide (e.part ≤ mine) | none => true)
      && (match after with | some e => decide (mine ≤ e.part) | none => true)
    let stop := match after with | some e => if e.part = mine then e.offset else blockBytes c | none => blockBytes c
    let start := match before with
      | some e => if e.part = mine then e.offset + e.length else 0
      | none => 0
    if !held || stop ≤ start then (start, 0)
    else match before.map (fun e => e.part == mine), after.map (fun e => e.part == mine) with
      | some true, _ => (start, min count (stop - start))
      | _, some true => (stop - min count stop, min count stop)
      | _, _ => (start, min count (stop - start))

/-- Give up a range of packets: their bytes will be filled (R190), as far as the lines that the block has. -/
def giveUp (c : StreamCfg) (b : Block) (lo hi : Nat) (s : State) : Block × State :=
  let span := packetSpan c b lo hi
  let stop := if b.short then ceilDiv b.top (max 1 (rxLineBytes c b)) * rxLineBytes c b else blockBytes c
  loseBytes c { b with gaps := cutGaps lo hi b.gaps } span.1 (min span.2 (stop - span.1)) s

/-- Whether a line of a block still waits for packets that are missing from it. -/
def lineWaits (c : StreamCfg) (b : Block) (i : Nat) : Bool :=
  b.gaps.any (fun g => rangesMeet (packetSpan c b g.lo g.hi).1 (packetSpan c b g.lo g.hi).2 (i * rxLineBytes c b) (rxLineBytes c b))

/-- A withheld line goes on with fill_value in what is missing, padded; a line that was padded before is counted already (R207, R208). -/
def passPadded (n : Nat) (l : LbLine) (s : State) : State :=
  let t := arrivedLate n l (modLine l.seq (fun m => { m with waiting := false, freeDc := dcNow s, flags := m.flags ||| 2 }) s)
  if bitOf l.flags 1 then t else ingCount n 4 t

/-- Lines that wait for nothing any more go on padded (R207). -/
def releaseLines (n : Nat) (c : StreamCfg) (b : Block) (s : State) : State :=
  (s.ing.lb.lines.filter (fun l => l.stream == n && l.block == b.id && l.waiting && !lineWaits c b l.index)).foldl
    (fun t l => passPadded n l t) s

/-- The missing packets of a range are given up: after the last request, or at once when the head says that they are unavailable
(R190). -/
def abandon (n : Nat) (c : StreamCfg) (b : Block) (lo hi : Nat) (s : State) : State :=
  let r := (b.gaps.filter (fun g => decide (g.lo ≤ hi) && decide (lo ≤ g.hi))).foldl
    (fun (a : Block × State) g => giveUp c a.1 (max lo g.lo) (min hi g.hi) a.2) (b, s)
  let s1 := releaseLines n c r.1 r.2
  setChan7 n { chan7 s1 n with blocks := putBlock r.1 c (chan7 s1 n).blocks } s1

/-- Blocks between the last one seen and a new leader: the last two are to be requested whole, earlier ones are lost (R189). -/
def missingBlocks (h : Nat) (c : StreamCfg) (lastSeen : Option Nat) (id : Nat) (s : State) : List Block × State :=
  match lastSeen with
  | none => ([], s)
  | some l =>
    if id ≤ l + 1 || c.channel < 1024 then ([], s)
    else
      let gap := id - l - 1
      let ask := min 2 gap
      let blocks := (List.range ask).map (fun i =>
        { newBlock (id - ask + i) (dcNow s) 0 with gaps := [⟨0, trailerPid c, 0, 0⟩], closed := true })
      (blocks, bumpBy 3 (h * 16 + 10) (gap - ask) (headCount h 2 s))

/-- A stream packet of a head is accepted (R475): it is counted, and a READY head is STREAMING, to be aligned anew (R204). -/
def accepted (h : Nat) (s : State) : State :=
  let x := headOf s h
  let s1 := headCount h 0 (setHead h { x with lastPacket := dcNow s } s)
  if x.st = hsReady then headTo h hsStreaming 7 (modHead h (fun y => { y with align := none, alignFrom := 0, realign := none }) s1)
  else s1

/-- Whether a packet is of a part that the stream does not take (Table 7.4). -/
def otherPart (c : StreamCfg) (p : StreamPacket) : Bool :=
  c.part.isSome && p.kind == 1 && p.payloadType == 2 && c.part != some p.part

/-- The bytes of a packet that are the stream's: none of a leader, a trailer or another part, and of an extended-chunk block those of
the image (Table 7.4). -/
def packetBytes (c : StreamCfg) (b : Block) (p : StreamPacket) : Bytes :=
  if p.kind != 1 || otherPart c p then []
  else if p.payloadType = 1 then p.data.take (b.imageEnd.getD (blockBytes c) - p.offset)
  else p.data

/-- Whether bytes that a packet carries have not come yet: its range may have been given up (R191). -/
def stillLost (b : Block) (off len : Nat) : Bool := (blockRange b off len).any (·.isNone)

/-- The first packet of a new block: the blocks before it close, and those that were passed over are missing (R189, R208). -/
def openBlock (n : Nat) (c : StreamCfg) (id : Nat) (s : State) : List Block × State :=
  let x := chan7 s n
  let mb := if decide (1024 ≤ c.channel) then missingBlocks c.head c x.lastBlock id s else ([], s)
  let r := x.blocks.foldl (fun (a : List Block × State) b =>
    let k := closeBlock n c b a.2
    (keepBlocks k.2 n c (putBlock k.1 c a.1), k.2)) (x.blocks, mb.2)
  (r.1 ++ mb.1, r.2)

/-- Whether a block is new to a stream: later than the last one seen. -/
def freshBlock (x : Chan7) (id : Nat) : Bool :=
  !x.blocks.any (fun b => b.id == id) && (match x.lastBlock with | some l => decide (l < id) | none => true)

/-- A stream packet goes to its block: leader, payload or trailer (R188 to R191, R194, R208). One received already is a duplicate. A
CoaXPress packet with a CRC error brings nothing but the knowledge of what is lost. -/
def takePacket (n : Nat) (c : StreamCfg) (p : StreamPacket) (s : State) : State :=
  let h := c.head
  let x := chan7 s n
  let gige := decide (1024 ≤ c.channel)
  let bad := !gige && !p.crcOk
  let known := x.blocks.find? (fun b => b.id == p.block)
  let fresh := freshBlock x p.block
  if !fresh && known.isNone then headCount h 7 s
  else
    let b0 := known.getD (newBlock p.block (dcNow s) (if p.kind = 0 then p.width else 0))
    let inGap := b0.gaps.any (fun g => decide (g.lo ≤ p.pid) && decide (p.pid ≤ g.hi))
    let data := packetBytes c b0 p
    if !fresh && p.pid < b0.nextPid && !inGap && !stillLost b0 p.offset data.length then headCount h 7 s
    else
      let old := if fresh then openBlock n c p.block s else (x.blocks, s)
      let skipped := gige && decide (b0.nextPid < p.pid) && !inGap
      let gaps := cutGaps p.pid p.pid b0.gaps ++ (if skipped then [⟨b0.nextPid, p.pid - 1, 0, 0⟩] else [])
      let s1 := if skipped then headCount h 2 old.2 else old.2
      let s2 := if bad || otherPart c p then s1 else accepted h s1
      -- a block that the timeout closed short goes on
      let anew := b0.short && p.kind == 1 && !p.resent
      let b1 := { b0 with
        width := if p.kind = 0 then p.width else if b0.width = 0 then c.columns else b0.width
        gaps := gaps, nextPid := max b0.nextPid (p.pid + 1)
        imageEnd := if p.kind = 0 && p.payloadType = 1 then some (p.height * lineBytes c.format p.width) else b0.imageEnd
        parts := if c.part.isSome && p.kind = 1 then b0.parts ++ [⟨p.pid, p.part, p.offset, p.data.length⟩] else b0.parts
        closed := b0.closed && !anew, short := b0.short && !anew, firstDc := if anew then dcNow s else b0.firstDc }
      let taken : Block × State :=
        if bad then loseBytes c b1 p.offset data.length s2
        else if data.isEmpty then (b1, s2)
        else
          let segs := b0.segs ++ [(p.offset, data)]
          ({ b1 with
            segs := segs, top := max b0.top (p.offset + data.length)
            resent := if p.resent then b0.resent ++ [(p.offset, data.length)] else b0.resent
            givenUp := b0.givenUp.filter (fun e => (blockRange { b1 with segs := segs } e.1 e.2).any (·.isNone)) }, s2)
      let b2 := taken.1
      let s3 := if p.resent then headCount h 4 taken.2 else taken.2
      let late := s3.ing.lb.lines.any (fun l => l.stream == n && l.block == p.block && !l.waiting
        && rangesMeet p.offset data.length (l.index * rxLineBytes c b2) (rxLineBytes c b2))
      let s4 := releaseLines n c b2 (if bad || data.isEmpty then s3 else patchLines n c b2 p.offset data.length p.resent s3)
      let s5 := if p.resent && late then headCount h 5 s4 else s4
      let r := if p.kind = 2 then closeBlock n c b2 s5 else (b2, s5)
      setChan7 n { chan7 r.2 n with
        blocks := putBlock r.1 c old.1, lastPacket := dcNow s
        lastBlock := some (max p.block (x.lastBlock.getD 0)) } r.2

/-- A leader or image header that the device does not take: the block is discarded (R188, Table 7.5). -/
def leaderBad (c : StreamCfg) (p : StreamPacket) : Option Nat :=
  if p.kind != 0 then none
  else if 2 < p.payloadType || (p.payloadType = 2 && c.part.isNone) then some 8
  else if p.format != pfncCode c.format then some 9
  else none

/-- A block is discarded at its leader: counted, and an unsupported one raises its event once a period (R188). What came before the leader
is gone with it, but for lines that ingest has taken: those that wait go on. It is a new block to what was before it, like any other
(R189, R208). -/
def dropBlock (n : Nat) (c : StreamCfg) (k block : Nat) (s : State) : State :=
  let h := c.head
  let x := chan7 s n
  let old := if freshBlock x block then openBlock n c block s else (x.blocks, s)
  let s0 := match old.1.find? (fun b => b.id == block) with
    | some b => releaseLines n c { b with gaps := [] } old.2
    | none => old.2
  let s1 := headCount h k (setChan7 n { chan7 s0 n with
    blocks := old.1.filter (fun b => b.id != block), dropping := some block, lastBlock := some (max block (x.lastBlock.getD 0)) } s0)
  if k = 8 && !(headOf s1 h).unsupRaised then
    raise 0x0504 2 h n 0 (modHead h (fun y => { y with unsupRaised := true }) s1) else s1

/-- Row BLOCK_TIMEOUT: block_timeout_us after the last packet of an open block the frame closes short (R208); of a GigE Vision head the
packets up to the trailer of the declared image, or beyond it the next one expected, are a gap that is requested (R189).
(DEDUCED, log entry 54) -/
def execBlockTimeout (stream : Nat) (s : State) : Host.Outcome State Fault Refusal :=
  done (match streamSet s stream with
    | none => s
    | some c =>
      let x := chan7 s stream
      match x.blocks.find? (fun b => !b.closed) with
      | none => s
      | some b =>
        if since s x.lastPacket < usTicks (headSet s c.head).blockTimeoutUs then s
        else
          let ask := decide (1024 ≤ c.channel)
          let last := max b.nextPid (trailerPid c)
          let r := closeBlock stream c b (if ask then headCount c.head 2 s else s)
          let b1 := if ask then { r.1 with gaps := r.1.gaps ++ [⟨b.nextPid, last, 0, 0⟩], nextPid := last + 1 } else r.1
          setChan7 stream { chan7 r.2 stream with blocks := putBlock b1 c x.blocks } r.2)

/-- A resend request, through the interface of the head that answers (R189, R196). -/
def sendResend (h n block lo hi : Nat) (s : State) : State :=
  headCount h 3 (sendFrame (activePort s h) (.resend h n block lo hi (headOf s h).onAlt) s)

/-- Row PACKETRESEND_CMD: one request per missing range not yet requested (R189). -/
def execPacketresendCmd (stream : Nat) (s : State) : Host.Outcome State Fault Refusal :=
  done (match streamSet s stream with
    | none => s
    | some c =>
      let h := c.head
      let x := chan7 s stream
      let due := x.blocks.flatMap (fun b => (b.gaps.filter (fun g => g.requests == 0)).map (fun g => (b.id, g)))
      let s1 := due.foldl (fun t e => sendResend h stream e.1 e.2.lo e.2.hi t) s
      setChan7 stream { x with
        blocks := x.blocks.map (fun b => { b with
          gaps := b.gaps.map (fun g => if g.requests = 0 then { g with requests := 1, askedAt := dcNow s } else g) }) } s1)

/-! Pairing (R204, R205) -/

/-- A trigger record of a unit by its sequence, among the 4,096 that are kept. -/
def trigRecord (s : State) (u seq : Nat) : Option TrigRec := ((trigUnit s u).records.take 4096).find? (fun r => r.sequence == seq)

/-- The record a head aligns on: the oldest that no line has claimed, at or before the block's first packet and no older than
max_pair_age_us (R204). (DEDUCED, log entry 54) -/
def alignRecord (s : State) (h u ageUs firstDc : Nat) : Option TrigRec :=
  let taken := (headOf s h).claimed
  (((trigUnit s u).records.take 4096).reverse).find? (fun r =>
    (match taken with | some q => seqAfter r.sequence q | none => true)
      && decide (ticksFrom r.deviceCount firstDc ≤ usTicks ageUs))

/-- A line of a block has no pair (R205): it is counted, and the head aligns again at the next block. -/
def unpaired (n h : Nat) (b : Block) (s : State) : State :=
  ingCount n 3 (modHead h (fun x => { x with align := none, alignFrom := max x.alignFrom (b.id + 1) }) s)

/-- The trigger records that a claim of `seq` passes over: those after the last one claimed, or with none claimed yet those kept. -/
def passedOver (s : State) (u seq : Nat) (claimed : Option Nat) : Nat := match claimed with
  | some q => if seqAfter seq q then (seq + 2 ^ 32 - q) % 2 ^ 32 - 1 else 0
  | none => (((trigUnit s u).records.take 4096).filter (fun r => seqAfter seq r.sequence)).length

/-- The record of a line, with the head's alignment brought up to it. An alignment that begins within a block gives its record to the
line that has arrived, and the block's base to the line of index 0. (DEDUCED, log entry 54) -/
def pairLine (n : Nat) (c : StreamCfg) (b : Block) (i : Nat) (s : State) : Option TrigRec × State :=
  let h := c.head
  let u := (headSet s h).unit
  let age := pairAgeUs (posImage s) n
  let x0 := headOf s h
  -- a head that streams again after its other link was down is aligned anew at its next block
  let again := match x0.realign with | some k => decide (k < b.id) | none => false
  let x := if again then { x0 with align := none, realign := none } else x0
  let aligned := match x.align with
    | some a => some a
    | none =>
      if b.id < x.alignFrom then none
      else (alignRecord s h u age b.firstDc).map (fun r => (b.id, r.sequence + 2 ^ 32 - i))
  let s1 := setHead h x s
  match aligned with
  | none => (none, unpaired n h b s1)
  | some (bb, sb) =>
    let seq := (sb + (b.id - bb) * c.frameLines + i) % 2 ^ 32
    match (if bb ≤ b.id then trigRecord s u seq else none) with
    | none => (none, unpaired n h b s1)
    | some r =>
      if usTicks age < since s r.deviceCount then (none, unpaired n h b s1)
      else
        (some r, bumpBy 7 (n * 16 + 1) (passedOver s u seq x.claimed) (setHead h { x with
          align := some (bb, sb), claimed := match x.claimed with | some q => some (if seqAfter seq q then seq else q) | none => some seq
          lastFrame := if i = 0 then some r.position else x.lastFrame } s))

/-! Slots and the guard (R219, R220) -/

/-- The lines a slot holds. -/
def slotCapacity (c : StreamCfg) : Nat := 524288 / max 1 (lineBytes c.format c.columns)

/-- The oldest line that any bed still has to read. -/
def oldestUnread (s : State) : Option LbLine :=
  let all := (declaredStreams (posImage s)).flatMap (fun n => (streamSt s n).unread.take 1)
  match all with
  | [] => none
  | x :: t => lbLine s (t.foldl min x)

/-- The distance from the write pointer to the oldest unread line, in granules. -/
def freeGranules (s : State) : Nat := match oldestUnread s with
  | some l => ringGranules s - (s.ing.lb.wp - l.granule)
  | none => ringGranules s

/-- A stream with no line pending is IDLE when its head does not stream (Table 8.6). -/
def restIdle (n : Nat) (s : State) : State :=
  let x := streamSt s n
  match streamSet s n with
  | some c => if x.unread.isEmpty && !streaming s c.head then setStreamSt n { x with st := 0 } s else s
  | none => s

/-- Drop the unread lines of a stream up to the next frame that has been written (R220). Truncated is set on the last line read from the
dropped frame, in the look-back buffer too. -/
def dropRemainder (n : Nat) (s : State) : State :=
  let x := streamSt s n
  let lines := x.unread.filterMap (lbLine s)
  match lines with
  | [] => s
  | f :: _ =>
    let keep := lines.dropWhile (fun l => l.block == f.block || l.index != 0)
    let gone := lines.length - keep.length
    let readSame := match x.lineB with | some b => decide (b.line.block = f.block) | none => false
    let y := { x with
      unread := keep.map (·.seq), inSlot := x.inSlot - min x.inSlot gone
      truncNext := x.truncNext || !readSame
      dropped := (lines.take gone).getLast?.bind (·.pos) }
    let s1 := ingCount n 9 (bumpBy 7 (n * 16 + 8) gone (setStreamSt n y s))
    let s2 := match x.lineB with
      | some b => if readSame then flagLine n b.line 1 s1 else s1
      | none =>
        -- with nothing read, a stream of its own begins anew at what is left
        if (streamGroup (posImage s) n).isNone then { s1 with ing := { s1.ing with gates := tset none s1.ing.gates (gridOf (posImage s) n) none } }
        else s1
    restIdle n s2

/-- Keep the guard clear: drop remainders of the bed that holds the oldest unread line, a frame at a time (R220). -/
def keepGuard : Nat → State → State
  | 0, s => s
  | k + 1, s =>
    match oldestUnread s with
    | none => s
    | some l =>
      if ringGranules s / 64 ≤ freeGranules s then s
      else
        let bed := (bedOf (posImage s) l.stream).getD 0
        let inGuard (n : Nat) : Bool := match ((streamSt s n).unread.head?).bind (lbLine s) with
          | some m => decide (ringGranules s < (s.ing.lb.wp - m.granule) + ringGranules s / 64)
          | none => false
        let victims := (bedStreams (posImage s) bed).filter (fun n => (streamSt s n).st == 2 && inGuard n)
        if victims.isEmpty then s
        else
          let s1 := victims.foldl (fun t n => dropRemainder n t) s
          let b := bedSt s1 bed
          let lost := victims.foldl (fun a n => a + ((streamSt s n).unread.length - (streamSt s1 n).unread.length)) 0
          let s2 := if b.overrunRaised then s1
            else raise 0x0601 2 bed lost 0 (bump 7 (2048 + bed * 8 + 4) (setBed bed { b with overrunRaised := true } s1))
          keepGuard k s2

/-- Note the smallest distance of the period (Table 8.13). -/
def noteFree (s : State) : State :=
  if (oldestUnread s).isNone then s
  else
    let f := freeGranules s
    let m := match s.ing.lb.minFree with | some g => min g f | none => f
    setLb { s.ing.lb with minFree := some m } s

/-- A paired line waits for its bed: in the slot while the stream is DIRECT and there is room, else the stream is in
CATCH_UP (R219). A stream in CATCH_UP whose bed has read its newest line is DIRECT again with the next one. -/
def queueLine (n : Nat) (c : StreamCfg) (seq : Nat) (pos : Int) (s : State) : State :=
  let x := streamSt s n
  let room := decide (x.inSlot < slotCapacity c)
  let caught := x.st != 2 || x.unread.isEmpty
  let direct := caught && room
  let enters := caught && !room
  let y := { x with
    st := if direct then 1 else 2, unread := x.unread ++ [seq], inSlot := if direct then x.inSlot + 1 else x.inSlot
    newest := some pos, catchUpSince := if enters then dcNow s else x.catchUpSince }
  let s1 := setStreamSt n y s
  noteFree (keepGuard 128 (if enters then ingCount n 10 s1 else s1))

/-! LINE_COMPLETE (R206, R208) -/

/-- Take line `i` of a block into the device: assemble, pair, store, and give it to its bed. -/
def takeLine (n : Nat) (c : StreamCfg) (b : Block) (i : Nat) (s : State) : State :=
  let h := c.head
  let lb := rxLineBytes c b
  let got := min b.width c.columns
  let bytes := blockRange b (i * lb) lb
  let raw := unpackPixels c.format got bytes
  let px := raw ++ List.replicate (c.columns - got) (some c.fill)
  let given := b.givenUp.any (fun e => rangesMeet e.1 e.2 (i * lb) lb)
  let holes := px.any (·.isNone)
  let open1 := holes && lineWaits c b i
  let padded := (decide (b.width < c.columns)) || (holes && !open1) || (given && holes)
  let resent := b.resent.any (fun e => rangesMeet e.1 e.2 (i * lb) lb)
  let beyond := b.width - c.columns
  let degraded := b.short && decide (i + 1 = linesReady c b)
  let s0 := bumpBy 7 (n * 16 + 5) beyond (ingCount n 0 s)
  let r := pairLine n c b i s0
  let late := match r.1 with | some t => bitOf t.flags 0 | none => false
  let pos := r.1.map (·.position)
  let trigDegraded := match r.1 with | some t => bitOf t.flags 1 | none => false
  let held := match (headOf r.2 h).params with | e :: _ => (e.paramSet, e.corrSet) | [] => (0, 0)
  let fl := 2 * b2n padded + 4 * b2n late + 8 * b2n (degraded || trigDegraded) + 32 * b2n resent + 64 * b2n pos.isNone
  let line : LbLine := { seq := 0, stream := n, pos := pos, trigDc := (match r.1 with | some t => t.deviceCount | none => 0)
                         arrDc := dcNow s, block := b.id, trigSeq := (match r.1 with | some t => t.sequence | none => 0)
                         index := i, flags := fl, paramSet := held.1, corrSet := held.2, valid := receivedPixels c b i, format := c.format
                         fill := c.fill, px := px, waiting := open1, freeDc := dcNow s, granule := 0, granules := 0, onStacks := []
                         idxGranule := none, lost := false }
  let s1 := if padded then ingCount n 4 r.2 else r.2
  match pos with
  | none => noteFree (keepGuard 128 (writeLine line (ingCount n 2 s1)))
  | some q =>
    let s2 := paramLine h (match r.1 with | some t => t.value | none => q) q (!(headSet s h).frames || i == 0) bytes s1
    let ps := paramAt (headOf s2 h) q
    let unsure := paramUnsure (headOf s2 h) (headSet s h).confirm q
    let seq := s2.ing.lb.nextSeq
    let s3 := writeLine { line with paramSet := ps.1, corrSet := ps.2, flags := if unsure then fl ||| 8 else fl } s2
    let s4 := match lbLine s3 seq with
      | some l => if open1 then s3 else arrivedLate n l s3
      | none => s3
    queueLine n c seq q s4

/-- A frame of the FRAME_COUNT source completes with the last line of a block (R56). -/
def lineEndsFrame (c : StreamCfg) (i : Nat) : Bool := decide (i + 1 = c.frameLines)

/-- The next line that a stream has ready: its oldest block with a line not yet taken whose place has been reached. -/
def nextReady (s : State) (n : Nat) (c : StreamCfg) : Option Block :=
  (chan7 s n).blocks.find? (fun b => decide (b.lines < linesReady c b))

/-- The work of LINE_COMPLETE: the next line of a stream enters ingest; one past frame_lines is dropped (R208). In thermal STOP ingest
accepts no line (R425). -/
def lineComplete (n : Nat) (s : State) : State := if s.fault.stop then s else match streamSet s n with
  | none => s
  | some c => match nextReady s n c with
    | none => s
    | some b =>
      let i := b.lines
      let b1 := { b with lines := i + 1 }
      let s1 := if c.frameLines ≤ i then ingCount n 6 (ingCount n 0 s) else takeLine n c b i s
      setChan7 n { chan7 s1 n with blocks := putBlock b1 c (chan7 s1 n).blocks } s1

/-- The wait of a stream's group for a line with missing packets, in µs (R207). -/
def lineWaitUs (s : State) (n : Nat) : Nat := match streamGroup (posImage s) n with
  | some g => memberWaitUs (posImage s) g
  | none => 20

/-! Commands -/

/-- Row ING_SET_BUFFER. -/
def execIngSetBuffer (io : HostIo) (s : State) : Host.Outcome State Fault Refusal :=
  done (serve { code := 0x0700, len := some 16 } io (stage 0x0700 (fun _ => 0) bufferCheck) s)

/-- Row ING_SET_STREAM. -/
def execIngSetStream (io : HostIo) (s : State) : Host.Outcome State Fault Refusal :=
  done (serve { code := 0x0701, len := some 16 } io (stage 0x0701 (fun p => fld p 0 1) ingStreamCheck) s)

/-- Row ING_SET_GROUP. -/
def execIngSetGroup (io : HostIo) (s : State) : Host.Outcome State Fault Refusal :=
  done (serve { code := 0x0702, len := some 16 } io (stage 0x0702 (fun p => fld p 0 1) groupCheck) s)

/-- The lines of a stream that are still held and paired, oldest first. -/
def heldLines (s : State) (n : Nat) : List LbLine :=
  s.ing.lb.lines.reverse.filter (fun l => l.stream == n && l.pos.isSome && !overwritten s l)

/-- ING.GET_STREAM response (Table 8.11). -/
def ingStream (s : State) (p : Bytes) : Bytes :=
  let n := fld p 0 1
  let x := streamSt s n
  let held := heldLines s n
  let all := s.ing.lb.lines.reverse.filter (fun l => l.stream == n && !overwritten s l)
  let posOf (l : Option LbLine) : Int := (l.bind (·.pos)).getD 0
  leBytes 1 x.st ++ leBytes 1 ((bedOf s.cfg.active n).getD 0) ++ leBytes 1 ((streamGroup s.cfg.active n).getD 0xFF) ++ zeros 1
    ++ leBytes 2 x.inSlot ++ leBytes 2 (match streamCfg s.cfg.active n with | some c => slotCapacity c | none => 0)
    ++ leBytes 4 x.unread.length ++ zeros 4 ++ leInt 8 (x.newest.getD 0) ++ leInt 8 (posOf held.head?)
    ++ leInt 8 (posOf ((x.unread.head?).bind (lbLine s)))
    ++ leBytes 8 (match all.getLast? with | some l => l.seq | none => 0)
    ++ leBytes 8 (match all.head? with | some l => l.seq | none => 0) ++ leBytes 8 (if x.st = 2 then x.catchUpSince else 0)

/-- Row ING_GET_STREAM. -/
def execIngGetStream (io : HostIo) (s : State) : Host.Outcome State Fault Refusal :=
  done (serve { code := 0x0710, len := some 8 } io
    (query (fun _ p => orBadArg (decide (fld p 0 1 < 128) && zeroRange p 1 7)) ingStream) s)

/-- ING.GET_BED response (Table 8.12); rates are rounded down. -/
def ingBed (s : State) (p : Bytes) : Bytes :=
  let b := fld p 0 1
  let x := bedSt s b
  let on := bedStreams s.cfg.active b
  let mpix := if x.lastTicks = 0 then 0 else x.lastServed * 625 / x.lastTicks
  leBytes 1 on.length ++ leBytes 1 (on.filter (fun n => (streamSt s n).st == 2)).length
    ++ leBytes 2 (if x.lastTicks = 0 then 0 else min 1000 (x.lastBusy * 1000 / (2 * x.lastTicks)))
    ++ leBytes 4 (sumBy (streamRate s.cfg.active) on / 1000000) ++ leBytes 4 mpix ++ zeros 4
    ++ leBytes 16 (on.foldl (fun m n => m + 2 ^ n) 0)

/-- Row ING_GET_BED. -/
def execIngGetBed (io : HostIo) (s : State) : Host.Outcome State Fault Refusal :=
  done (serve { code := 0x0711, len := some 8 } io (query (fun _ p => orBadArg (decide (fld p 0 1 < 8) && zeroRange p 1 7)) ingBed) s)

/-- ING.GET_BUFFER response (Table 8.13). -/
def ingBuffer (s : State) (_p : Bytes) : Bytes :=
  let b := s.ing.lb
  let size := 1024 * lookbackGranules s.cfg.active
  let r := b.lastRate
  leBytes 8 size ++ leBytes 4 (size / 1024) ++ leBytes 4 (b2n (parityOn s) + 4 * b.lostStacks) ++ leBytes 8 b.nextSeq
    ++ leBytes 8 (size / 64) ++ leBytes 8 (match b.minFree with | some g => 1024 * g | none => size)
    ++ leBytes 4 (if r.1 = 0 then 0xFFFFFFFF
      else min 0xFFFFFFFF (ringOf (parityOn s) b.lostStacks (size / 1024) * r.2 / (r.1 * 625))) ++ zeros 4

/-- Row ING_GET_BUFFER. -/
def execIngGetBuffer (io : HostIo) (s : State) : Host.Outcome State Fault Refusal :=
  done (serve { code := 0x0712, len := some 0 } io (query (fun _ _ => none) ingBuffer) s)

/-- Lines in ascending position. -/
def insertByPos (l : LbLine) : List LbLine → List LbLine
  | [] => [l]
  | h :: t => if l.pos.getD 0 < h.pos.getD 0 then l :: h :: t else h :: insertByPos l t

/-- The stream's lines, overwritten ones too, whose index position lies in a range, in ascending position. -/
def linesIn (s : State) (n : Nat) (a b : Int) : List LbLine :=
  ((s.ing.lb.lines.filter (fun l => l.stream == n && (match l.pos with
    | some p => decide (a ≤ p) && decide (p < b)
    | none => false))).foldl (fun acc l => insertByPos l acc) [])

/-- What ING.READ_LINES copies: the response, the lines copied and the lines found overwritten (R228, Table 8.14). The range is of the
positions that the index holds (R209). (DEDUCED, log entry 94) -/
def readLinesWork (s : State) (p : Bytes) : Bytes × List LbLine × List LbLine :=
  let all := linesIn s (fld p 0 1) (sfld p 8 8) (sfld p 16 8)
  let good := (all.filter (fun l => !overwritten s l)).take (fld p 4 4)
  let bad := all.filter (overwritten s)
  let one (l : LbLine) : Bytes := padTo 8 ((if bitOf (fld p 1 1) 0 then arrivalRecord l else []) ++ linePacked l)
  (leBytes 4 good.length ++ leBytes 4 bad.length ++ zeros 8 ++ good.flatMap one, good, bad)

/-- The checks of ING.READ_LINES. -/
def readLinesBad (q : Req) (p : Bytes) : Bool :=
  !(respIndirect q.flags && fieldsOk p [⟨0, 1, 0, 127, false⟩, ⟨1, 1, 0, 1, false⟩, ⟨4, 4, 1, 65536, false⟩] [(2, 2), (24, 8)]
    && decide (sfld p 8 8 < sfld p 16 8))

/-- The final response of a copy; lines found overwritten are counted, and granules read through rebuild (R212, R213). -/
def readLinesEnd (s : State) (p : Bytes) : Nat × Bytes × State :=
  let w := readLinesWork s p
  let s1 := countReads w.2.1 (countOverwritten (fld p 0 1) w.2.2 s)
  if w.2.1.isEmpty then (0x45, [], s1) else (stOk, w.1, s1)

/-- Row ING_READ_LINES; `slow` says that the copy exceeds 2 ms, which a ticket then carries. -/
def execIngReadLines (io : HostIo) (slow : Bool) (s : State) : Host.Outcome State Fault Refusal :=
  done (serve { code := 0x0713, len := some 32 } io (fun s q p =>
    if readLinesBad q p then reply stBadArg s
    else if slow then issueTicket q p (fun _ t => t) s
    else
      let r := readLinesEnd s p
      ⟨r.1, r.2.1, 0, r.2.2⟩) s)

/-- What a commit does to ingest: a changed look-back size clears the buffer (R214); a stream that is no longer declared
leaves nothing. -/
def ingCommit (old new _staged : Image) (s : State) : State :=
  if lookbackGranules old != lookbackGranules new then setLb { lostStacks := s.ing.lb.lostStacks } s else s

/-- Count the cycles that a bed's tiles have held it since they were last counted (Table 8.15): two of 0.8 ns a tick. (DESIGN CHOICE, log
entry 34) -/
def countHeld (bed : Nat) (s : State) : State :=
  let b := bedSt s bed
  if b.heldAt.isNone then s
  else bumpBy 7 (2048 + bed * 8 + 3) (2 * since s b.heldCounted) (setBed bed { b with heldCounted := dcNow s } s)

/-- A period boundary in ingest. -/
def ingPeriod (ticks : Nat) (s : State) : State :=
  let b := s.ing.lb
  let s1 := noteFree (setLb { b with minFree := none, lastRate := (b.wp - b.wpAtPeriod, ticks), wpAtPeriod := b.wp } s)
  (List.range 8).foldl (fun t k => setBed k { bedSt t k with
    overrunRaised := false, lastServed := (bedSt t k).served, lastBusy := (bedSt t k).busy, lastTicks := ticks, served := 0, busy := 0 } t) s1

end Sys2Proof.Machine
end

