-- ==== Sys2Proof/Machine/Correct.lean ====
section
/-! DEFINITION. Correction, resampling and stitching as arithmetic on lines and rows, and the COR commands (R230 to R253). -/

namespace Sys2Proof.Machine

/-! One row of one stream (R231 to R239) -/

/-- Promotion of a pixel of a format (R231). -/
def promote (format v : Nat) : Int := ((v * 2 ^ (16 - formatDepth format) : Nat) : Int)

/-- A line's promoted pixels. -/
def promoted (l : LbLine) : List Int := (linePixels l).map (promote l.format)

/-- The weight of line b at a grid position (R233), half up, within 0 to 1,023. (DEDUCED, log entry 56) -/
def rowWeight (pa pb g : Int) : Nat :=
  if pb ≤ pa then 0 else min 1023 ((2 * (g - pa) * 1024 + (pb - pa)) / (2 * (pb - pa))).toNat

/-- Blend two promoted pixels. (DEDUCED, log entry 56) -/
def blend (w : Nat) (a b : Int) : Int := ((1024 - (w : Int)) * a + (w : Int) * b + 512) / 1024

/-- One corrected pixel, with the low clips and high saturations it counts (R237). -/
def correctPixel (e : ColEntry) (k : CorrSet) (x : Int) : Int × Nat × Nat :=
  let d0 := x - ((e.dark * k.dark + 0x2000 : Nat) : Int) / 2 ^ 14
  let low0 := b2n (decide (d0 < 0))
  let d := if d0 < 0 then 0 else d0
  let y := (d * (e.gain : Int) * (k.gain : Int) + 2 ^ 27) / 2 ^ 28 + e.offset + k.offset
  if 65535 < y then (65535, low0, 1)
  else if y < 0 then (0, low0 + 1, 0)
  else (y, low0, 0)

/-- The value of a defective column from its corrected sources (Table 9.1). -/
def replaced (e : ColEntry) (y : List Int) (c : Nat) (fill : Int) : Int :=
  let l := nthD 0 y (c - e.dl)
  let r := nthD 0 y (c + e.dr)
  if e.mode = 1 then l
  else if e.mode = 2 then r
  else if e.mode = 3 then (l * (e.dr : Int) + r * (e.dl : Int) + (((e.dl + e.dr) / 2 : Nat) : Int)) / ((e.dl + e.dr : Nat) : Int)
  else fill

/-- What a row's correction gives: pixels, low clips, high saturations, replaced pixels. -/
structure Corrected where
  px : List Int
  low : Nat
  high : Nat
  repl : Nat
  deriving DecidableEq, Repr

/-- Correct a resampled row: dark, gain and offset with the row's set, then defective columns (R237 to R239). -/
def correctRow (c : CorCfg) (table : Bytes) (k : CorrSet) (fill : Int) (x : List Int) : Corrected :=
  let ents := (List.range x.length).map (fun i => colEntry (entryWord table i))
  let r := if c.correct then List.zipWith (fun e v => correctPixel e k v) ents x else x.map (fun v => (v, 0, 0))
  let y := r.map (·.1)
  let out := if c.replace then
      (List.range y.length).map (fun i => let e := nthD (colEntry 0x4000) ents i; if e.mode = 0 then nthD 0 y i else replaced e y i fill)
    else y
  ⟨out, sumBy (·.2.1) r, sumBy (·.2.2) r, if c.replace then (ents.filter (fun e => e.mode != 0)).length else 0⟩

/-! Stitching (R245 to R249) -/

/-- The cross-strip position of an output column, in pm. -/
def outPm (t : StitchCfg) (j : Nat) : Int := t.originUm * 1000000 + (j : Int) * (t.pitchNm : Int) * 1000

/-- The members whose covered span contains a position. -/
def covering (img : Image) (t : StitchCfg) (x : Int) : List Nat :=
  (List.range t.members.length).filter (fun i =>
    let sp := coveredSpan img (nthD 0 t.members i)
    decide (sp.1 ≤ x) && decide (x ≤ sp.2))

/-- The adjacent pair, by its lower member, that a position under several members is blended from (R247). (DEDUCED, log entry 56) -/
def blendedPair (img : Image) (t : StitchCfg) (x : Int) : List Nat → Nat
  | i :: j :: rest => match rest with
    | [] => i
    | _ =>
      let mid (k : Nat) : Int :=
        let a := coveredSpan img (nthD 0 t.members k)
        let b := coveredSpan img (nthD 0 t.members (k + 1))
        (2 * x - (b.1 + a.2)).natAbs
      let best := blendedPair img t x (j :: rest)
      if mid i ≤ mid best then i else best
  | _ => 0

/-- A member's value at a position: its row read between two columns (R246). -/
def memberValue (img : Image) (n : Nat) (y : List Int) (x : Int) : Int :=
  match streamCfg img n with
  | none => 0
  | some d =>
    let g := geomCfg img d.head
    let num := x - g.origin * 1000
    let p := g.pitch
    let c0 := if p < 0 then (-num) / (-p) else num / p
    let rem := num - c0 * p
    let f := ((2 * (rem.natAbs * 256) + p.natAbs) / (2 * p.natAbs) : Nat)
    let i := c0.toNat
    if i + 1 < d.columns then ((256 - (f : Int)) * nthD 0 y i + (f : Int) * nthD 0 y (i + 1) + 128) / 256 else nthD 0 y i

/-- One output column: its value, none where no member covers it (R247). -/
def stitchPixel (img : Image) (t : StitchCfg) (rows : List (List Int)) (j : Nat) : Option Int :=
  let x := outPm t j
  let v (i : Nat) : Int := memberValue img (nthD 0 t.members i) (nthD [] rows i) x
  match covering img t x with
  | [] => none
  | [i] => some (v i)
  | many =>
    let i := blendedPair img t x many
    let lo := (coveredSpan img (nthD 0 t.members (i + 1))).1
    let hi := (coveredSpan img (nthD 0 t.members i)).2
    if t.seam then some (if 2 * x < lo + hi then v i else v (i + 1))
    else
      let w := hi - lo
      let a := if w ≤ 0 then 0 else (2 * (x - lo) * 256 + w) / (2 * w)
      some (((256 - a) * v i + a * v (i + 1) + 128) / 256)

/-- The kind and member of an output column: 0 MEMBER, 1 OVERLAP of a pair, 2 UNCOVERED (R249). -/
def columnKind (img : Image) (t : StitchCfg) (j : Nat) : Nat × Nat :=
  match covering img t (outPm t j) with
  | [] => (2, 0)
  | [i] => (0, i)
  | many => (1, blendedPair img t (outPm t j) many)

/-- Join equal neighbours into ranges: first, last, kind and member. -/
def joinRanges : List (Nat × Nat × Nat) → List (Nat × Nat × Nat × Nat) → List (Nat × Nat × Nat × Nat)
  | [], acc => acc.reverse
  | (j, k, m) :: t, acc => match acc with
    | (a, b, k', m') :: rest => if k = k' && m = m' then joinRanges t ((a, j, k, m) :: rest) else joinRanges t ((j, j, k, m) :: (a, b, k', m') :: rest)
    | [] => joinRanges t [(j, j, k, m)]

/-- The ranges of a stitch that is enabled, none otherwise (R249). -/
def stitchRanges (img : Image) (k : Nat) : List (Nat × Nat × Nat × Nat) :=
  let t := stitchCfg img k
  if t.enable then joinRanges ((List.range t.columns).map (fun j => (j, columnKind img t j))) [] else []

/-! Commands (Tables 9.5 to 9.8) -/

/-- Row COR_SET_STREAM. -/
def execCorSetStream (io : HostIo) (s : State) : Host.Outcome State Fault Refusal :=
  done (serve { code := 0x0800, len := some 16 } io (stage 0x0800 (fun p => fld p 0 1) corCheck) s)

/-- Row COR_SET_HEAD_GEOM. -/
def execCorSetHeadGeom (io : HostIo) (s : State) : Host.Outcome State Fault Refusal :=
  done (serve { code := 0x0801, len := some 32 } io (stage 0x0801 (fun p => fld p 0 1) geomCheck) s)

/-- Row COR_SET_GRID. -/
def execCorSetGrid (io : HostIo) (s : State) : Host.Outcome State Fault Refusal :=
  done (serve { code := 0x0802, len := some 16 } io (stage 0x0802 (fun p => fld p 0 1) gridCheck) s)

/-- Row COR_SET_CORR_SET. -/
def execCorSetCorrSet (io : HostIo) (s : State) : Host.Outcome State Fault Refusal :=
  done (serve { code := 0x0803, len := some 16 } io (stage 0x0803 corrSetObj corrSetCheck) s)

/-- The declaration of a stream as staged, or as active where none is staged (R241). -/
def stagedStream (s : State) (n : Nat) : Option StreamCfg := streamCfg (nextImage s) n

/-- COR.LOAD_TABLE (R239, R241): what is staged is the entries. -/
def loadTable (s : State) (q : Req) (p : Bytes) : Reply :=
  let n := fld p 0 1
  let table := p.drop 8
  if clocheBusy s then reply stBusy s
  else if !(reqIndirect q.flags && decide (8 ≤ p.length) && decide (n < 128) && zeroRange p 1 7) then reply stBadArg s
  else match stagedStream s n with
    | none => reply stBadArg s
    | some c =>
      if table.length != 8 * 512 * tableGranules c.columns then reply 0x45 s
      else match badColumn table c.columns with
        | some k => ⟨0x42, leBytes 4 k, 0, s⟩
        | none => reply stOk { s with cfg := { s.cfg with staged := tput s.cfg.staged (settingKey 0x0804 n) table } }

/-- Row COR_LOAD_TABLE. -/
def execCorLoadTable (io : HostIo) (s : State) : Host.Outcome State Fault Refusal :=
  done (serve { code := 0x0804 } io loadTable s)

/-- Row COR_SET_STITCH. -/
def execCorSetStitch (io : HostIo) (s : State) : Host.Outcome State Fault Refusal :=
  done (serve { code := 0x0805, len := some 32 } io (stage 0x0805 (fun p => fld p 0 1) stitchCheck) s)

/-- A stream's entries in full: what is loaded, with the reset entry after it. -/
def fullTable (img : Image) (n : Nat) : Bytes := match streamCfg img n with
  | none => []
  | some c => (List.range (512 * tableGranules c.columns)).flatMap (fun i => leBytes 8 (entryWord (streamTable img n) i))

/-- COR.GET_STREAM response (Table 9.8). -/
def corStream (s : State) (p : Bytes) : Bytes :=
  let n := fld p 0 1
  let x := streamSt s n
  let img := s.cfg.active
  let g := tableSpan img n
  let c := corCfg img n
  leBytes 2 x.rowParam ++ leBytes 1 x.rowCorr ++ leBytes 1 (b2n c.correct + 2 * b2n c.replace + 4 * b2n c.nearest)
    ++ leBytes 2 g.1 ++ leBytes 2 g.2 ++ leInt 8 x.rowPos ++ (sha256 (fullTable img n)).take 4 ++ zeros 12

/-- Row COR_GET_STREAM. -/
def execCorGetStream (io : HostIo) (s : State) : Host.Outcome State Fault Refusal :=
  done (serve { code := 0x0810, len := some 8 } io
    (query (fun _ p => orBadArg (decide (fld p 0 1 < 128) && zeroRange p 1 7)) corStream) s)

/-- COR.READ_TABLE: the active entries, or those of the staged table. -/
def readTable (s : State) (q : Req) (p : Bytes) : Reply :=
  let n := fld p 0 1
  let img := if fld p 1 1 = 1 then nextImage s else s.cfg.active
  if !(respIndirect q.flags && fieldsOk p [⟨0, 1, 0, 127, false⟩, ⟨1, 1, 0, 1, false⟩] [(2, 6)] && (streamCfg img n).isSome)
  then reply stBadArg s
  else replyOk (fullTable img n) s

/-- Row COR_READ_TABLE. -/
def execCorReadTable (io : HostIo) (s : State) : Host.Outcome State Fault Refusal :=
  done (serve { code := 0x0811, len := some 8 } io readTable s)

/-- COR.GET_STITCH response (Table 9.8). -/
def corStitch (s : State) (p : Bytes) : Bytes :=
  let r := (stitchRanges s.cfg.active (fld p 0 1)).take 24
  leBytes 4 r.length ++ r.flatMap (fun e => leBytes 4 e.1 ++ leBytes 4 e.2.1 ++ leBytes 1 e.2.2.1 ++ leBytes 1 e.2.2.2 ++ zeros 2)

/-- Row COR_GET_STITCH. -/
def execCorGetStitch (io : HostIo) (s : State) : Host.Outcome State Fault Refusal :=
  done (serve { code := 0x0812, len := some 8 } io
    (query (fun _ p => orBadArg (decide (fld p 0 1 < 16) && zeroRange p 1 7)) corStitch) s)

/-- The sums per column of some promoted lines. (DEDUCED, log entry 56) -/
def columnSums (ls : List LbLine) : List Int := match ls with
  | [] => []
  | [l] => promoted l
  | l :: t => List.zipWith (· + ·) (promoted l) (columnSums t)

/-- What COR.AVERAGE_LINES finds: status, response and state; the range is of positions on the strip (R233), and the rounding of the
means × 256 is free. -/
def averageEnd (s : State) (p : Bytes) : Nat × Bytes × State :=
  let n := fld p 0 1
  let down := downOffset (posImage s) n
  let all := linesIn s n (sfld p 8 8 - down) (sfld p 16 8 - down)
  let bad := all.filter (overwritten s)
  let cols := match all.getLast? with | some l => l.px.length | none => 0
  let good := (all.filter (fun l => !overwritten s l && !bitOf l.flags 1 && l.px.length == cols)).take (fld p 4 4)
  let s1 := countReads good (countOverwritten n bad s)
  if good.isEmpty then (0x47, [], s1)
  else (stOk, leBytes 4 good.length ++ zeros 4
    ++ (columnSums good).flatMap (fun v => leInt 4 (freeDiv (v * 256) (good.length : Int))), s1)

/-- Row COR_AVERAGE_LINES; `slow` says that the work exceeds 2 ms. -/
def execCorAverageLines (io : HostIo) (slow : Bool) (s : State) : Host.Outcome State Fault Refusal :=
  done (serve { code := 0x0813, len := some 24 } io (fun s q p =>
    if !(respIndirect q.flags && fieldsOk p [⟨0, 1, 0, 127, false⟩, ⟨4, 4, 1, 65536, false⟩] [(1, 3)]
      && decide (sfld p 8 8 < sfld p 16 8)) then reply stBadArg s
    else if slow then issueTicket q p (fun _ t => t) s
    else
      let r := averageEnd s p
      ⟨r.1, r.2.1, 0, r.2.2⟩) s)

end Sys2Proof.Machine
end

