-- ==== Sys2Proof/Machine/BedRows.lean ====
section
/-! DEFINITION. Beds: serving lines by deficit round-robin, the member gate, and the rows of one grid position, corrected and
stitched (R218, R219, R221, R223 to R226, R230 to R248). -/

namespace Sys2Proof.Machine

/-! Reading lines (R218, R219) -/

/-- The gate of a grid. -/
def gateOf (s : State) (k : Nat) : Option Gate := tget none s.ing.gates k

/-- Set the gate of a grid. -/
def setGate (k : Nat) (g : Option Gate) (s : State) : State :=
  { s with ing := { s.ing with gates := tset none s.ing.gates k g } }

/-- The bed that a stream is on: under a commit that moves it, the old one until that has switched (R222). (DEDUCED, log entry 55) -/
def ownerBed (s : State) (n : Nat) : Nat :=
  let new := (bedOf (posImage s) n).getD 0
  match s.cfg.commit with
  | some c => if c.applying then (match bedOf s.cfg.active n with | some b => if c.bedsLeft.contains b then b else new | none => new) else new
  | none => new

/-- The next line a bed reads of a stream, when the lines it holds have served every grid position they straddle. -/
def readyLine (s : State) (img : Image) (n : Nat) : Option LbLine :=
  match ((streamSt s n).unread.head?).bind (lbLine s) with
  | none => none
  | some l =>
    if l.waiting then none
    else match (streamSt s n).lineB, gateOf s (gridOf img n) with
      | some b, some g => if b.pos ≤ g.g then some l else none
      | _, _ => some l

/-- A stream's weight w_s (R218). -/
def drrWeight (img : Image) (n : Nat) : Nat := streamRate img n

/-- The credit that a round adds to a stream. -/
def drrQuantum (img : Image) (bed n : Nat) : Rat :=
  let top := (bedStreams img bed).foldl (fun m k => max m (drrWeight img k)) 0
  if top = 0 then 0 else (16384 * drrWeight img n : Rat) / (top : Rat)

/-- The credit cap of a stream: two of its lines. -/
def drrCap (img : Image) (n : Nat) : Rat := match streamCfg img n with | some c => ((2 * c.columns : Nat) : Rat) | none => 0

/-- Rounds until a stream's credit is positive. -/
def roundsToPositive (credit quantum : Rat) : Nat :=
  if 0 < credit then 0 else if quantum ≤ 0 then 2 ^ 64 else ((-credit / quantum).floor.toNat + 1)

/-- The stream a bed serves next and the credits before it is served: the first in turn with a line and credit, after as many
rounds as that takes. (DEDUCED, log entry 55) -/
def drrPick (img : Image) (bed : Nat) (b : Bed) (ready : List Nat) : Option (Nat × Tab Rat) :=
  let turn := ready.filter (fun n => decide (b.cursor ≤ n)) ++ ready.filter (fun n => decide (n < b.cursor))
  let credit (n : Nat) : Rat := tget 0 b.credits n
  match turn.find? (fun n => decide (0 < credit n)) with
  | some n => some (n, b.credits)
  | none => match ready with
    | [] => none
    | r :: rest =>
      let k := rest.foldl (fun m n => min m (roundsToPositive (credit n) (drrQuantum img bed n)))
        (roundsToPositive (credit r) (drrQuantum img bed r))
      let add (n : Nat) : Rat :=
        let v := credit n + (k : Rat) * drrQuantum img bed n
        if drrCap img n < v then drrCap img n else v
      let c1 := ready.foldl (fun t n => tset 0 t n (add n)) b.credits
      match ready.find? (fun n => decide (0 < tget 0 c1 n)) with
      | some n => some (n, c1)
      | none => none

/-- The images that the members of a grid follow: each its own bed's. -/
def memberImage (s : State) (n : Nat) : Image := bedImage s (ownerBed s n)

/-- The members of a grid. -/
def membersOf (s : State) (k : Nat) : List Nat :=
  (List.range 128).filter (fun n =>
    let img := memberImage s n
    (streamCfg img n).isSome && gridOf img n == k)

/-- The earlier of two ticks. -/
def earlier (s : State) (a b : Option Nat) : Option Nat := match a, b with
  | some x, some y => if since s x < since s y then some y else some x
  | some x, none => some x
  | none, y => y

/-- The tick at which the lines that a stream's bed holds came to straddle a grid position, none where they do not. -/
def straddledAt (x : StreamSt) (g : Int) : Option Nat := match x.lineA, x.lineB with
  | some a, some b => if a.pos ≤ g && g < b.pos then some b.readAt else none
  | _, _ => none

/-- The clock of a grid position: it has run since the first member had, in its bed, the lines that its row needs (R223). -/
def clockOf (s : State) (k : Nat) (g : Int) : Option Nat :=
  (membersOf s k).foldl (fun c n => earlier s c (straddledAt (streamSt s n) g)) none

/-- A gate at a grid position. -/
def gateAt (s : State) (k : Nat) (g : Int) (first : Bool) : Gate := ⟨g, clockOf s k g, [], none, [], first⟩

/-- The first grid position that a member's received lines can serve: the one at or after the earliest of them. -/
def firstServed (s : State) (gs : Int × Nat) (n : Nat) : Option Int :=
  let x := streamSt s n
  let held := (x.lineA.toList ++ x.lineB.toList).map (·.pos) ++ ((x.unread.filterMap (lbLine s)).take 1).map (stripPos (memberImage s n))
  (held.min?).map (latticeAtOrAfter gs.1 gs.2)

/-- A grid's gate begins at the first position that any member's lines can serve, and goes back to an earlier one while none of its rows
has been released; its clock starts when a member's lines straddle the position (R223). -/
def gateAfterRead (img : Image) (n : Nat) (s : State) : State :=
  let k := gridOf img n
  match gridSet img k with
  | none => s
  | some gs => match ((membersOf s k).filterMap (firstServed s gs)).min?, gateOf s k with
    | some g0, none => setGate k (some (gateAt s k g0 true)) s
    | some g0, some g =>
      if g.first && g.beds.isEmpty && g.expired.isNone && decide (g0 < g.g) then setGate k (some (gateAt s k g0 true)) s
      else if g.clock.isNone then setGate k (some { g with clock := clockOf s k g.g }) s
      else s
    | none, _ => s

/-- A bed takes one line of a stream: from the slot while that holds any, else from the look-back buffer (R219). A line whose
position does not rise is not used (R234). A bed is busy for a clock for each 64 pixels (DEDUCED from the scope file's 64 pixels per clock). -/
def takeBedLine (img : Image) (bed n : Nat) (l : LbLine) (s : State) : State :=
  let x := streamSt s n
  let fromSlot := decide (0 < x.inSlot)
  let beyond := !fromSlot && overwritten s l
  let rebuilt := !fromSlot && readsRebuilt s l
  let p := stripPos img l
  let rising := match x.lineB with | some b => decide (b.pos < p) | none => true
  let line := if x.truncNext then { l with flags := l.flags ||| 1 } else l
  let left := x.unread.drop 1
  let y := { x with
    unread := left, inSlot := x.inSlot - 1
    truncNext := if beyond then x.truncNext else false
    lineA := if rising && !beyond then x.lineB else x.lineA
    lineB := if rising && !beyond then some ⟨line, p, rebuilt, dcNow s⟩ else x.lineB }
  let b := bedSt s bed
  let mark (t : State) : State := if x.truncNext && !beyond then modLine l.seq (fun m => { m with flags := m.flags ||| 1 }) t else t
  let s1 := setBed bed { b with served := b.served + l.px.length, busy := b.busy + ceilDiv l.px.length 64 } (restIdle n (mark (setStreamSt n y s)))
  let s2 := bumpBy 7 (2048 + bed * 8 + 2) (ceilDiv l.px.length 64) (bump 7 (2048 + bed * 8 + 1) s1)
  let s3 := if fromSlot then s2 else ingCount n 11 s2
  let s4 := if rebuilt then countRebuilt l s3 else s3
  let s5 := if beyond then countOverwritten n [l] s4 else s4
  let s6 := if rising || beyond then s5 else bump 8 (n * 8 + 4) s5
  gateAfterRead img n s6

/-- Row BED_SERVE_LINE: one whole line, by deficit round-robin over the bed's streams with a line ready (R218).
(DESIGN CHOICE, log entry 34) -/
def execBedServeLine (bed : Nat) (s : State) : Host.Outcome State Fault Refusal :=
  done (
    let img := bedImage s bed
    let ready := (bedStreams img bed).filter (fun n => ownerBed s n == bed && (readyLine s img n).isSome)
    match drrPick img bed (bedSt s bed) ready with
    | none => s
    | some (n, credits) => match readyLine s img n with
      | none => s
      | some l =>
        let cols := match streamCfg img n with | some c => c.columns | none => 0
        let left := tget 0 credits n - (cols : Rat)
        let s1 := setBed bed { bedSt s bed with
          credits := tset 0 credits n left, cursor := if 0 < left then n else n + 1 } s
        takeBedLine img bed n l s1)

/-! The member gate (R223 to R226) -/

/-- Whether a member's lines for a grid position have been received (R223). -/
def memberPresent (s : State) (n : Nat) (g : Int) : Bool :=
  let img := memberImage s n
  let x := streamSt s n
  let held := (x.lineA.toList ++ x.lineB.toList).map (·.pos)
  let waiting := ((x.unread.filterMap (lbLine s)).takeWhile (fun l => !l.waiting)).map (stripPos img)
  (held ++ waiting).any (fun p => decide (p ≤ g)) && (held ++ waiting).any (fun p => decide (g < p))

/-- Whether a group member's lines for a grid position were dropped from its backlog (R225): the lines it has on either side of the
position lie on either side of the dropped ones. A stream in no group has no gate to expire: its lines go on from what is left, and its rows
there are bridged or a gap (R235). -/
def memberDropped (s : State) (n : Nat) (g : Int) : Bool :=
  let img := memberImage s n
  let x := streamSt s n
  match (streamGroup img n).bind (fun _ => x.dropped) with
  | none => false
  | some q =>
    let p := q + downOffset img n
    let have' := (x.lineA.toList ++ x.lineB.toList).map (·.pos) ++ (x.unread.filterMap (lbLine s)).map (stripPos img)
    (match (have'.filter (fun v => decide (v ≤ g))).max? with | some a => decide (a < p) | none => true)
      && (match (have'.filter (fun v => decide (g < v))).min? with | some b => decide (p < b) | none => decide (g ≤ p))

/-- Whether a gate is open: its wait has expired, or every member is present or was dropped. (DEDUCED, log entry 55) -/
def gateOpenNow (s : State) (k : Nat) (g : Gate) : Bool :=
  g.expired.isSome || (membersOf s k).all (fun n => memberPresent s n g.g || memberDropped s n g.g)

/-- Row MEMBER_WAIT_EXPIRY: the gate opens on expiry; the members missing by then are made (R223, R225). -/
def execMemberWaitExpiry (grid : Nat) (s : State) : Host.Outcome State Fault Refusal :=
  done (match gateOf s grid with
    | none => s
    | some g => match g.clock with
      | none => s
      | some t =>
        if 64 ≤ grid || g.expired.isSome || decide (since s t < usTicks (memberWaitUs (posImage s) grid)) then s
        else
          let missing := (membersOf s grid).filter (fun n => !memberPresent s n g.g)
          if missing.isEmpty then s else setGate grid (some { g with expired := some (dcNow s), made := missing }) s)

/-- A line that completes in the tick of its gate's expiry is used (R226): its stream's row is not made. -/
def admitSameTick (n : Nat) (s : State) : State :=
  let k := gridOf (memberImage s n) n
  match gateOf s k with
  | some g => if g.expired = some (dcNow s) && g.made.contains n && memberPresent s n g.g then
      setGate k (some { g with made := g.made.filter (· != n) }) s else s
  | none => s

/-- The work of STREAM_PACKET_RX (R188 to R191, R475): a packet of a head that is on but neither READY nor STREAMING is discarded, and one
that its protocol does not allow; a line that a packet makes whole in the tick of its gate's expiry is used (R226). -/
def streamPacketRx (p : StreamPacket) (s : State) : State :=
  let h := p.head
  let gige := (headSet s h).protocol == 1
  if !headReady s h then (if headOn (posImage s) h then discardPacket h s else s)
  else match packetStream s p with
    | none => if gige then s else discardPacket h s
    | some n => match streamSet s n with
      | none => s
      | some c =>
        if gige && (!p.extended || p.allIn) then discardPacket h s
        else if p.kind = 3 then
          match (chan7 s n).blocks.find? (fun b => b.id == p.block) with
          | some b => admitSameTick n (abandon n c b p.pid p.lastPid s)
          | none => s
        else if (chan7 s n).dropping = some p.block || (!gige && !p.crcOk && p.kind != 1) then s
        else match leaderBad c p with
          | some k => admitSameTick n (dropBlock n c k p.block s)
          | none => admitSameTick n (takePacket n c p s)

/-- Row STREAM_PACKET_RX. -/
def execStreamPacketRx (p : StreamPacket) (s : State) : Host.Outcome State Fault Refusal := done (streamPacketRx p s)

/-- Row RESEND_TIMEOUT: a range requested resend_wait_us ago is requested again, or after resend_attempts requests given up
(R190). -/
def execResendTimeout (stream : Nat) (s : State) : Host.Outcome State Fault Refusal :=
  done (match streamSet s stream with
    | none => s
    | some c =>
      let h := c.head
      let hc := headSet s h
      let x := chan7 s stream
      let late (g : Gap) : Bool := g.requests != 0 && decide (usTicks hc.resendWaitUs ≤ since s g.askedAt)
      match x.blocks.findSome? (fun b => (b.gaps.find? late).map (fun g => (b, g))) with
      | none => s
      | some (b, g) =>
        if g.requests < hc.resendAttempts then
          let b1 := { b with gaps := b.gaps.map (fun k => if k = g then { g with requests := g.requests + 1, askedAt := dcNow s } else k) }
          sendResend h stream b.id g.lo g.hi (setChan7 stream { x with blocks := putBlock b1 c x.blocks } s)
        else admitSameTick stream (abandon stream c b g.lo g.hi s))

/-- Row LINE_WAIT_EXPIRY: the stream's oldest waiting line goes on with fill_value and padded (R207). -/
def execLineWaitExpiry (stream : Nat) (s : State) : Host.Outcome State Fault Refusal :=
  done (match (s.ing.lb.lines.reverse).find? (fun l => l.stream == stream && l.waiting) with
    | none => s
    | some l =>
      if since s l.arrDc < usTicks (lineWaitUs s stream) then s
      else admitSameTick stream (passPadded stream l s))

/-! Rows (R230 to R238) -/

/-- A row in the making: the row, and whether the gate made it. -/
structure Made where
  row : Row
  made : Bool
  deriving DecidableEq, Repr

/-- The tag flags of a line that a row uses (R221). (DEDUCED, log entry 55) -/
def usedFlags (b : BedLine) : Nat := (b.line.flags &&& 0x2F) ||| 64 * b2n b.rebuilt

/-- Correct and count one row of a stream. -/
def finishRow (img : Image) (n corr : Nat) (x : List Int) (s : State) : List Int × State :=
  match streamCfg img n with
  | none => (x, s)
  | some c =>
    let r := correctRow (corCfg img n) (streamTable img n) (corrSet img n corr) (promote c.format c.fill) x
    (r.px, bumpBy 8 (n * 8 + 3) r.repl (bumpBy 8 (n * 8 + 2) r.high (bumpBy 8 (n * 8 + 1) r.low (bump 8 (n * 8) s))))

/-- The head of a stream. -/
def streamHead (img : Image) (n : Nat) : Nat := match streamCfg img n with | some c => c.head | none => 0xFFFF

/-- A row filled with the stream's promoted fill_value. -/
def fillPixels (img : Image) (n : Nat) : List Int := match streamCfg img n with
  | some c => List.replicate c.columns (promote c.format c.fill)
  | none => []

/-- The row of a member whose lines straddle the position (R233, R235, R236). -/
def straddleRow (img : Image) (n : Nat) (a b : BedLine) (g : Int) (s : State) : Made × State :=
  let c := corCfg img n
  let oneSided := a.line.paramSet != b.line.paramSet
  let gap := decide ((c.span : Int) < b.pos - a.pos)
  let bridged := decide ((a.line.trigSeq + 1) % 2 ^ 32 ≠ b.line.trigSeq)
  let w0 := rowWeight a.pos b.pos g
  let w := if oneSided then 1024 else if c.nearest then (if w0 < 512 then 0 else 1024) else w0
  let x := if gap then fillPixels img n else List.zipWith (blend w) (promoted a.line) (promoted b.line)
  let used := (if w < 1024 then usedFlags a else 0) ||| (if 0 < w then usedFlags b else 0)
  let flags := if gap then 2 else used ||| (if bridged then 8 else 0)
  let s1 := if gap then bump 8 (n * 8 + 6) s else if bridged then bump 8 (n * 8 + 5) s else s
  let s2 := if oneSided && !gap then bump 8 (n * 8 + 7) s1 else s1
  let r := finishRow img n b.line.corrSet x s2
  (⟨{ stream := n, head := streamHead img n, g := g, dc := a.line.trigDc, flags := flags, paramSet := b.line.paramSet
      generation := 0, params := [b.line.paramSet], px := r.1 }, false⟩, r.2)

/-- The line of a member, received by the time its gate opened, nearest a grid position and no more than two pitches away (R225, R226).
(DEDUCED, log entry 55) -/
def nearestLine (s : State) (img : Image) (n : Nat) (g : Int) (pitch : Nat) (opened : Option Nat) : Option LbLine :=
  let near := (heldLines s n).filter (fun l => !l.waiting && decide ((stripPos img l - g).natAbs ≤ 2 * pitch)
    && (match opened with | some t => decide (since s t ≤ since s l.freeDc) | none => true))
  near.foldl (fun best l => match best with
    | none => some l
    | some m => if (stripPos img l - g).natAbs < (stripPos img m - g).natAbs then some l else best) none

/-- The row of a member that the gate makes (R225): the nearest line, degraded, or fill_value, padded. -/
def madeRow (img : Image) (n : Nat) (g : Int) (opened : Option Nat) (s : State) : Made × State :=
  let k := gridOf img n
  let pitch := match gridSet img k with | some p => p.2 | none => 0
  let fills := match streamGroup img n with | some j => groupFills img j | none => true
  let last := (streamSt s n).lineB
  match (if fills then none else nearestLine s img n g pitch opened) with
  | some l =>
    let r := finishRow img n l.corrSet (promoted l) (countReads [l] (ingCount n 12 s))
    let used : BedLine := ⟨l, stripPos img l, readsRebuilt s l, dcNow s⟩
    (⟨{ stream := n, head := streamHead img n, g := g, dc := l.trigDc, flags := usedFlags used ||| 8, paramSet := l.paramSet
        generation := 0, params := [l.paramSet], px := r.1 }, true⟩, r.2)
  | none =>
    let ps := match last with | some b => (b.line.paramSet, b.line.corrSet) | none => (0, 0)
    let r := finishRow img n ps.2 (fillPixels img n) (ingCount n 13 s)
    (⟨{ stream := n, head := streamHead img n, g := g, dc := dcNow s, flags := 2, paramSet := ps.1
        generation := 0, params := [ps.1], px := r.1 }, true⟩, r.2)

/-- Whether a bed has read what a member's row needs. -/
def memberRead (s : State) (n : Nat) (g : Int) : Bool :=
  match (streamSt s n).lineA, (streamSt s n).lineB with
  | some a, some b => decide (a.pos ≤ g) && decide (g < b.pos)
  | _, _ => false

/-- The row of one member. -/
def memberRow (img : Image) (gate : Gate) (n : Nat) (s : State) : Made × State :=
  let make := gate.made.contains n || memberDropped s n gate.g || !(memberPresent s n gate.g)
  let r := if make then madeRow img n gate.g gate.expired s
    else match (streamSt s n).lineA, (streamSt s n).lineB with
      | some a, some b => straddleRow img n a b gate.g s
      | _, _ => madeRow img n gate.g gate.expired s
  let x := streamSt r.2 n
  let corr := match x.lineB with | some b => b.line.corrSet | none => x.rowCorr
  (r.1, setStreamSt n { x with rowParam := r.1.row.paramSet, rowCorr := corr, rowPos := gate.g } r.2)

/-- The stitched row of a stitch from its members' rows (R246 to R248). -/
def stitchRow (img : Image) (t : Nat) (ms : List Made) (s : State) : Option Row × State :=
  let c := stitchCfg img t
  let rows := c.members.filterMap (fun n => ms.find? (fun m => m.row.stream == n))
  match rows with
  | [] => (none, s)
  | first :: _ =>
    if rows.length ≠ c.members.length then (none, s)
    else
      let px := (List.range c.columns).map (stitchPixel img c (rows.map (·.row.px)))
      let s1 := bumpBy 8 (1024 + t * 4 + 1) (px.filter (·.isNone)).length (bump 8 (1024 + t * 4) s)
      let s2 := if rows.any (·.made) then bump 8 (1024 + t * 4 + 2) s1 else s1
      (some { stream := 128 + t, head := 0xFFFF, g := first.row.g, dc := first.row.dc
              flags := rows.foldl (fun m r => m ||| r.row.flags) 0, paramSet := first.row.paramSet, generation := 0
              params := rows.map (·.row.paramSet), px := px.map (·.getD (c.fill : Int)) }, s2)

/-- The members of a grid on one bed. -/
def bedMembers (s : State) (bed k : Nat) : List Nat :=
  let img := bedImage s bed
  (bedStreams img bed).filter (fun n => gridOf img n == k)

/-- Whether a bed can emit the rows of its grid's present position: the gate is open, the bed has not emitted them, and has
read what each of its rows needs (R223, R224). -/
def rowsReady (s : State) (bed k : Nat) : Bool := match gateOf s k with
  | none => false
  | some g => gateOpenNow s k g && !g.beds.contains bed && !(bedMembers s bed k).isEmpty
    && (bedMembers s bed k).all (fun n => ownerBed s n == bed
      && (g.made.contains n || memberDropped s n g.g || !memberPresent s n g.g || memberRead s n g.g))

/-- Reload a bed's column tables that a commit has changed, before its next row, at 256 GB/s; the stall is counted in cycles of
0.8 ns (R242). -/
def reloadTables (bed : Nat) (img : Image) (s : State) : State :=
  let b := bedSt s bed
  if b.reload.isEmpty then s
  else
    let bytes := sumBy (fun n => 4096 * (tableSpan img n).2) b.reload
    let s1 := bumpBy 8 (1088 + bed * 4) b.reload.length (setBed bed { b with reload := [] } s)
    bumpBy 8 (1088 + bed * 4 + 1) (ceilDiv (bytes * 5) 1024) s1

/-- The rows of one grid position on one bed: each member's, then the stitches of its members (R230). -/
def buildRows (bed k : Nat) (s : State) : List Row × State := match gateOf s k with
  | none => ([], s)
  | some g =>
    let img := bedImage s bed
    let s0 := reloadTables bed img s
    let ms := (bedMembers s bed k).foldl (fun (a : List Made × State) n =>
      let r := memberRow img g n a.2
      (a.1 ++ [r.1], r.2)) ([], s0)
    let ts := (List.range 16).filter (fun t => (stitchCfg img t).enable
      && (match (stitchCfg img t).members with | n :: _ => (bedMembers s bed k).contains n | [] => false))
    let st := ts.foldl (fun (a : List Row × State) t =>
      let r := stitchRow img t ms.1 a.2
      (a.1 ++ r.1.toList, r.2)) ([], ms.2)
    (ms.1.map (·.row) ++ st.1, bumpBy 7 (2048 + bed * 8) (ms.1.length + st.1.length) st.2)

/-- The configuration that a bed's row at `g` belongs to, switched yet or not (R46). -/
def rowImage (s : State) (bed : Nat) (g : Int) : Image := match s.cfg.commit with
  | some c => if c.applying && (match c.pc with | some pc => decide (pc ≤ g) | none => false) then nextImage s else bedImage s bed
  | none => bedImage s bed

/-- Whether a bed has a row to make at the position `g` of a grid. -/
def bedServes (s : State) (bed k : Nat) (g : Int) : Bool :=
  let img := rowImage s bed g
  (bedStreams img bed).any (fun n => gridOf img n == k)

/-- After a bed has emitted: when every bed of the grid has, the gate moves to the next position, its clock running if a
member's lines straddle that already (R223). -/
def gateAfterEmit (bed k : Nat) (s : State) : State := match gateOf s k with
  | none => s
  | some g =>
    let img := bedImage s bed
    let beds := g.beds ++ [bed]
    let left := (List.range 8).filter (fun b => !beds.contains b && bedServes s b k g.g)
    if !left.isEmpty then setGate k (some { g with beds := beds }) s
    else match gridSet img k with
      | none => setGate k none s
      | some gs =>
        setGate k (some (gateAt s k (latticeAtOrAfter gs.1 gs.2 (g.g + 1)) false)) s

end Sys2Proof.Machine
end

