-- ==== Sys2Proof/Machine/GraphCut.lean ====
section
/-! DEFINITION. Cut lists: numeric formats, the catalogue's parameter blocks and GRAPH.LOAD's checks (R256, R257, R281, R282,
R285 to R288, Tables 10.1 to 10.6 and 11.1 to 11.9). -/

namespace Sys2Proof.Machine

/-! Numeric formats (Table 10.5, R281) -/

/-- W of a format word. -/
def fmtW (f : Nat) : Nat := f % 32
/-- SIGNED of a format word. -/
def fmtSigned (f : Nat) : Bool := bitOf f 5
/-- Fraction bits of a format word. -/
def fmtF (f : Nat) : Nat := bitsOf f 8 5
/-- Whether a format word is in Table 10.5. -/
def fmtOk (f : Nat) : Bool :=
  decide (1 ≤ fmtW f) && decide (fmtW f ≤ 16) && bitsOf f 6 2 == 0 && decide (f < 8192)
    && (if fmtSigned f then fmtF f == 0 else decide (fmtF f < fmtW f))

/-- The least and greatest raw values of a format. -/
def fmtLo (f : Nat) : Int := if fmtSigned f then -((2 ^ (fmtW f - 1) : Nat) : Int) else 0
def fmtHi (f : Nat) : Int := if fmtSigned f then ((2 ^ (fmtW f - 1) : Nat) : Int) - 1 else ((2 ^ fmtW f : Nat) : Int) - 1

/-- A right shift by n, rounding half up; a negative n shifts left. -/
def shiftRound (v : Int) (n : Int) : Int :=
  if n ≤ 0 then v * ((2 ^ (-n).toNat : Nat) : Int) else (v + ((2 ^ (n.toNat - 1) : Nat) : Int)) / ((2 ^ n.toNat : Nat) : Int)

/-- Saturation to a format. -/
def saturate (f : Nat) (v : Int) : Int := clampInt (fmtLo f) (fmtHi f) v

/-- Alignment of a value of one format to the fraction bits of another (R281). -/
def alignF (src dst : Nat) (v : Int) : Int := shiftRound v ((fmtF src : Int) - (fmtF dst : Int))

/-- Conversion of a value of one format to another (R281). -/
def convertF (src dst : Nat) (v : Int) : Int := saturate dst (alignF src dst v)

/-- A stored field read as a raw value of a format: its low W bits. -/
def rawOf (f v : Nat) : Int := if fmtSigned f then signedOf (fmtW f) v else ((v % 2 ^ fmtW f : Nat) : Int)

def fmtU1 : Nat := 0x0001
def fmtU2 : Nat := 0x0002
def fmtU3 : Nat := 0x0003
def fmtU16 : Nat := 0x0010

/-! The catalogue (Table 11.1) -/

def opConv : Nat := 0x0001
def opBox : Nat := 0x0002
def opRank : Nat := 0x0003
def opGradient : Nat := 0x0004
def opMorph : Nat := 0x0005
def opBackground : Nat := 0x0006
def opArith : Nat := 0x0007
def opLut : Nat := 0x0008
def opConvert : Nat := 0x0009
def opMask : Nat := 0x000A
def opThreshold : Nat := 0x000B
def opTexture : Nat := 0x000C
def opProject : Nat := 0x000D
def opHistogram : Nat := 0x000E
def opEdge : Nat := 0x000F
def opDecimate : Nat := 0x0010
def opLabel : Nat := 0x0011
def opFeatures : Nat := 0x0012
def opTree : Nat := 0x0013
def opNet : Nat := 0x0014
def opExpr : Nat := 0x00F0

/-- Whether an op_id is in the catalogue (R285). -/
def opKnown (i : Nat) : Bool := (decide (1 ≤ i) && decide (i ≤ 0x0014)) || i == opExpr

/-- Least and greatest number of inputs (Table 11.1). -/
def opInputs (i : Nat) : Nat × Nat :=
  if i = opBackground || i = opArith || i = opThreshold then (1, 2)
  else if i = opMask then (2, 2)
  else if i = opFeatures then (1, 3)
  else if i = opExpr then (1, 4)
  else (1, 1)

/-- Padding to a multiple of 8. -/
def pad8 (n : Nat) : Nat := 8 * ceilDiv n 8

/-- The layers of a CLASSIFY_NET: inputs and outputs of each (R305). -/
def netLayers (p : Bytes) : List (Nat × Nat) :=
  let i := fld p 0 1
  let a := fld p 1 1
  let b := fld p 2 1
  let o := fld p 3 1
  if b = 0 then [(i, a), (a, o)] else [(i, a), (a, b), (b, o)]

/-- The size of an operator's parameter block as its entry gives it (R287). FEATURES has none. -/
def paramSize (i : Nat) (p : Bytes) : Nat :=
  if i = opConv then 16 + pad8 (if fld p 0x0A 1 = 1 then fld p 8 1 + fld p 9 1 else fld p 8 1 * fld p 9 1)
  else if i = opBox || i = opTexture || i = opRank || i = opGradient || i = opMorph then 16
  else if i = opLut then 8 + 2 * 2 ^ (min 16 (fld p 0 1))
  else if i = opProject || i = opEdge then 16
  else if i = opFeatures then 0
  else if i = opTree then 8 + 8 * fld p 0 1
  else if i = opNet then 32 + 8 * fld p 0 1 + sumBy (fun l => pad8 (l.1 * l.2) + pad8 (4 * l.2)) (netLayers p)
  else if i = opExpr then 8 + pad8 (4 * fld p 0 1)
  else 8

/-- An error: its reason (Table 10.6) and the byte offset of the field. -/
abbrev CutErr := Nat × Nat

/-- A test of one field of a parameter block: the reason and the field's offset where it fails. -/
def need (ok : Bool) (reason off : Nat) : List CutErr := if ok then [] else [(reason, off)]

/-- A reserved range of a parameter block. -/
def needZero (p : Bytes) (off size : Nat) : List CutErr := need (zeroRange p off size) 7 off

/-- An unsigned field within bounds. -/
def needIn (p : Bytes) (off size lo hi : Nat) : List CutErr := need (decide (lo ≤ fld p off size) && decide (fld p off size ≤ hi)) 5 off

/-- An odd byte within bounds. -/
def needOdd (p : Bytes) (off lo hi : Nat) : List CutErr :=
  need (decide (lo ≤ fld p off 1) && decide (fld p off 1 ≤ hi) && fld p off 1 % 2 == 1) 5 off

/-- The border block (Table 11.2). (DEDUCED, log entry 57) -/
def borderErrs (p : Bytes) : List CutErr := needIn p 0 1 0 3 ++ needIn p 1 1 0 2 ++ needZero p 4 4

/-- The s8 coefficients of CONV from an index on. -/
def coeffs (p : Bytes) (first n : Nat) : List Int := (List.range n).map (fun i => sfld p (16 + first + i) 1)

/-- Σ|c|. -/
def absSum (l : List Int) : Nat := sumBy Int.natAbs l

/-- The largest magnitude of CONV's x' (R292): the input aligned to the output's F and shifted. -/
def convTop (inF outF : Nat) (p : Bytes) : Nat :=
  let m (v : Int) : Nat := (shiftRound (alignF inF outF v) (fld p 0x0B 1)).natAbs
  max (m (fmtLo inF)) (m (fmtHi inF))

/-- CONV's accumulator bound (R292). -/
def convFits (inF outF : Nat) (p : Bytes) : Bool :=
  let kx := fld p 8 1
  let ky := fld p 9 1
  let m := convTop inF outF p
  if fld p 0x0A 1 = 1 then
    let a := absSum (coeffs p 0 ky) * m
    decide (a < 2 ^ 23) && decide (absSum (coeffs p ky kx) * (a / 2 ^ fld p 0x0C 1) < 2 ^ 23)
  else decide (absSum (coeffs p 0 (kx * ky)) * m < 2 ^ 23)

/-- The depth of each node of a tree: 1 for node 0, 0 where no node refers to it. -/
def treeDepths (p : Bytes) (n : Nat) : List Nat :=
  (List.range n).foldl (fun d i =>
    let b := 8 + 8 * i
    if fld p b 1 = 0xFF then d
    else
      let up (d : List Nat) (c : Nat) : List Nat := if nthD 0 d i = 0 then d else setNth d c (max (nthD 0 d c) (nthD 0 d i + 1))
      up (up d (fld p (b + 2) 1)) (fld p (b + 3) 1)) (1 :: List.replicate (n - 1) 0)

/-- CONV's entry gives no size where kx or ky is no window's size: those fields are then at fault themselves. -/
def sizeOpen (i : Nat) (p : Bytes) : Bool :=
  i == opConv && !((needOdd p 8 1 15).isEmpty && (needOdd p 9 1 15).isEmpty)

/-- The checks of one node (R304, Table 11.7). -/
def nodeErrs (p : Bytes) (n : Nat) (depths : List Nat) (i : Nat) : List CutErr :=
  let b := 8 + 8 * i
  let leaf := fld p b 1 == 0xFF
  let child (off : Nat) : List CutErr := need (decide (i < fld p off 1) && decide (fld p off 1 < n)) 5 off
  need (nthD 0 depths i != 0 && decide (nthD 0 depths i ≤ 16)) 5 b
    ++ need (leaf || decide (fld p b 1 ≤ 15)) 5 b
    ++ (if leaf then need (fld p (b + 2) 1 == 0) 5 (b + 2) ++ need (fld p (b + 3) 1 == 0) 5 (b + 3) ++ need (fld p (b + 4) 4 == 0) 5 (b + 4)
        else need (fld p (b + 1) 1 == 0) 5 (b + 1) ++ child (b + 2) ++ child (b + 3))

/-- The checks of a network's padded arrays, from an offset on. -/
def layerErrs (p : Bytes) : Nat → List (Nat × Nat) → List CutErr
  | _, [] => []
  | off, l :: t =>
    let w := pad8 (l.1 * l.2)
    let b := pad8 (4 * l.2)
    need (zeroRange p (off + l.1 * l.2) (w - l.1 * l.2)) 5 (off + l.1 * l.2)
      ++ need (zeroRange p (off + w + 4 * l.2) (b - 4 * l.2)) 5 (off + w + 4 * l.2) ++ layerErrs p (off + w + b) t

/-- The fields of an EXPR word (Table 11.8): opcode, D, A, IMM, B, K. -/
structure ExprWord where
  op : Nat
  d : Nat
  a : Nat
  imm : Bool
  b : Nat
  k : Int
  deriving DecidableEq, Repr

/-- Read an EXPR word. -/
def exprWord (w : Nat) : ExprWord :=
  ⟨bitsOf w 28 4, bitsOf w 25 3, bitsOf w 22 3, bitOf w 21, bitsOf w 16 3, signedOf 16 w⟩

/-- The words of an EXPR block. -/
def exprWords (p : Bytes) : List ExprWord := (List.range (fld p 0 1)).map (fun i => exprWord (fld p (8 + 4 * i) 4))

/-- The field rules of Tables 11.8 and 11.9. -/
def exprOk (w nIn : Nat) : Bool :=
  let e := exprWord w
  bitsOf w 19 2 == 0 && (if e.imm then e.b == 0 else e.k == 0)
    && (if e.op = 0 then decide (e.a < nIn) && !e.imm && e.b == 0
        else if e.op = 1 then e.imm && e.a == 0
        else if e.op = 6 || e.op = 7 then e.imm && decide (0 ≤ e.k) && decide (e.k ≤ 23)
        else if e.op = 10 then !e.imm && e.b == 0
        else true)

/-- The checks of an operator's parameter block (chapter 11); offsets count from its start. (DEDUCED, log entry 57) -/
def paramErrs (i : Nat) (p : Bytes) (ins : List Shape) (fmt : Nat) : List CutErr :=
  let f0 := match ins with | s :: _ => s.fmt | [] => fmt
  -- a row of one column, as PROJECT in ROW mode gives: the one column count that the cut list fixes
  let single := match ins with | s :: _ => s.kind == .one | [] => false
  if i = opConv then
    borderErrs p ++ needOdd p 8 1 15 ++ needOdd p 9 1 15 ++ needIn p 0x0A 1 0 1 ++ needIn p 0x0B 1 0 15
      ++ needIn p 0x0C 1 0 (if fld p 0x0A 1 = 1 then 23 else 0) ++ needIn p 0x0D 1 0 23
      ++ need (convFits f0 fmt p) 5 0x10
      ++ (let n := if fld p 0x0A 1 = 1 then fld p 8 1 + fld p 9 1 else fld p 8 1 * fld p 9 1
          need (zeroRange p (16 + n) (pad8 n - n)) 5 (16 + n))
  else if i = opBox then borderErrs p ++ needOdd p 8 1 63 ++ needOdd p 9 1 63 ++ needIn p 0x0A 1 0 0 ++ needZero p 0x0B 5
  else if i = opTexture then borderErrs p ++ needOdd p 8 3 31 ++ needOdd p 9 3 31 ++ needIn p 0x0A 1 0 1 ++ needZero p 0x0B 5
  else if i = opRank then
    borderErrs p ++ need (fld p 8 1 == 3 || fld p 8 1 == 5) 5 8 ++ need (decide (fld p 9 1 < fld p 8 1 * fld p 8 1)) 5 9 ++ needZero p 0x0A 6
  else if i = opGradient then borderErrs p ++ needIn p 8 1 0 1 ++ needIn p 9 1 0 1 ++ needZero p 0x0A 6
  else if i = opMorph then borderErrs p ++ needOdd p 8 1 31 ++ needOdd p 9 1 31 ++ needIn p 0x0A 1 0 3 ++ needZero p 0x0B 5
  else if i = opBackground then needIn p 0 1 1 15 ++ need (decide (fld p 1 1 ≤ 1)) 7 1 ++ needZero p 2 6
  else if i = opArith then
    let op := fld p 0 1
    needIn p 0 1 0 6 ++ needIn p 1 1 0 (if op = 5 || op = 6 then 23 else 0) ++ need (op == 6 || fld p 2 2 == 0) 5 2
      ++ need (op == 6 || fld p 4 2 == 0) 5 4 ++ needZero p 6 2
  else if i = opLut then needIn p 0 1 1 12 ++ need (fld p 0 1 == fmtW f0) 5 0 ++ needZero p 1 7
  else if i = opConvert then
    need (decide (-15 ≤ sfld p 0 1) && decide (sfld p 0 1 ≤ 23)) 5 0 ++ needZero p 1 1 ++ needZero p 4 4
  else if i = opMask then need (decide (fld p 2 1 ≤ 1)) 7 2 ++ needZero p 3 5
  else if i = opThreshold then need (decide (sfld p 0 4 ≤ sfld p 4 4)) 5 0
  else if i = opProject then
    needIn p 0 1 0 1 ++ needZero p 1 7
      ++ (if fld p 0 1 = 0 then needIn p 8 4 0 0 ++ needIn p 0x0C 4 0 0 else need (decide (fld p 8 4 ≤ fld p 0x0C 4) && (!single || fld p 0x0C 4 == 0)) 5 0x0C)
  else if i = opHistogram then need (decide (fld p 0 4 ≤ fld p 4 4) && (!single || fld p 4 4 == 0)) 5 4
  else if i = opEdge then needIn p 4 1 0 1 ++ needZero p 5 1 ++ needIn p 8 2 1 65535 ++ needZero p 0x0A 6
  else if i = opDecimate then
    need ([1, 2, 4, 8, 16].contains (fld p 0 1)) 5 0 ++ need ([1, 2, 4, 8, 16].contains (fld p 1 1)) 5 1 ++ needIn p 2 1 0 3 ++ needZero p 3 5
  else if i = opLabel then
    needIn p 0 2 1 4096 ++ needIn p 2 1 0 (if fmtW f0 = 1 then 0 else 2) ++ needZero p 3 1 ++ need (fld p 4 4 != 0) 5 4
  else if i = opTree then
    let n := fld p 0 1
    needIn p 0 1 1 255 ++ needZero p 1 7 ++ (List.range n).flatMap (nodeErrs p n (treeDepths p n))
  else if i = opNet then
    let n := fld p 0 1
    let cm := 16 + 8 * n
    needIn p 0 1 1 16 ++ needIn p 1 1 1 32 ++ needIn p 2 1 0 16 ++ needIn p 3 1 2 16 ++ needIn p 4 1 0 31
      ++ needIn p 5 1 0 (if fld p 2 1 = 0 then 0 else 31) ++ needZero p 7 1 ++ needZero p 0x0C 4
      ++ (List.range n).flatMap (fun k => needIn p (16 + 8 * k) 1 0 15 ++ needIn p (17 + 8 * k) 1 0 31 ++ needZero p (18 + 8 * k) 2)
      ++ (List.range 16).flatMap (fun k => if k < fld p 3 1 then [] else need (fld p (cm + k) 1 == 0) 5 (cm + k))
      ++ layerErrs p (cm + 16) (netLayers p)
  else if i = opExpr then
    let n := fld p 0 1
    needIn p 0 1 1 32 ++ needZero p 1 7
      ++ (List.range n).flatMap (fun k => need (exprOk (fld p (8 + 4 * k) 4) ins.length) 5 (8 + 4 * k))
      ++ need (zeroRange p (8 + 4 * n) (pad8 (4 * n) - 4 * n)) 5 (8 + 4 * n)
  else []

/-- The formats that an operator accepts (Table 11.1): port 0, and its inputs. -/
def formatsOk (i fmt : Nat) (ins : List Shape) : Bool :=
  let f (k : Nat) : Nat := match ins[k]? with | some s => s.fmt | none => fmt
  let u (x : Nat) : Bool := !fmtSigned x
  let bits (x : Nat) : Bool := x == fmtU1 || x == fmtU2
  if i = opBox || i = opTexture then u (f 0) && u fmt
  else if i = opRank || i = opMorph || i = opProject then fmt == f 0
  else if i = opGradient then u fmt
  else if i = opBackground then u fmt && (ins.length < 2 || bits (f 1))
  else if i = opLut then decide (fmtW (f 0) ≤ 12)
  else if i = opMask then fmt == f 0 && bits (f 1)
  else if i = opThreshold then bits fmt
  else if i = opHistogram || i = opFeatures || i = opTree || i = opNet then fmt == fmtU16
  else if i = opEdge then fmt == fmtU1
  else if i = opLabel then bits (f 0) && fmt == fmtU16
  else true

/-- The ports of an operator (Table 11.1): GRADIENT has port 1 only with direction. -/
def portsOf (i fmt : Nat) (p : Bytes) (ins : List Shape) : List Shape :=
  let s0 : Shape := match ins with | s :: _ => s | [] => ⟨.px, 1, 1, fmtU16⟩
  let one (k : PortKind) : Shape := ⟨k, s0.fx, s0.fy, fmt⟩
  if i = opGradient then [one s0.kind] ++ (if fld p 9 1 = 1 then [⟨s0.kind, s0.fx, s0.fy, fmtU3⟩] else [])
  else if i = opTexture then [one s0.kind, ⟨s0.kind, s0.fx, s0.fy, s0.fmt⟩]
  else if i = opEdge then [one s0.kind, ⟨.edge, s0.fx, s0.fy, fmtU16⟩]
  else if i = opProject then [one (if fld p 0 1 = 1 then .one else .stat)]
  else if i = opHistogram then [one .stat]
  else if i = opDecimate then [⟨s0.kind, s0.fx * fld p 0 1, s0.fy * fld p 1 1, fmt⟩]
  else if i = opLabel then [one .region]
  else if i = opFeatures then [one .feat]
  else if i = opTree || i = opNet then [one .cls]
  else [one s0.kind]

/-- Bytes of the fixed engine area that an operator's tables take (R287). -/
def tableBytes (i : Nat) (p : Bytes) : Nat :=
  if i = opConv then p.length - 16 else if i = opLut || i = opExpr then p.length - 8 else if i = opHistogram then 1024 else 0

/-- A source's rows are u16 (R282). -/
def sourceShape : Shape := ⟨.px, 1, 1, fmtU16⟩

/-- The port that a reference names. -/
def shapeOf (ops : List Oper) : Ref → Option Shape
  | .src _ => some sourceShape
  | .op i port => (ops[i]?).bind (fun o => o.ports[port]?)

/-- Read an input reference (Table 10.3): a value, or an error at its offset with the reason given for a bad one. -/
def readRef (d : Bytes) (off sources : Nat) (ops : List Oper) (reason : Nat) : Except CutErr Ref :=
  let r := fld d off 2
  if bitOf r 15 then
    if bitsOf r 3 12 != 0 then .error (7, off) else if sources ≤ r % 8 then .error (reason, off) else .ok (.src (r % 8))
  else if bitsOf r 10 5 != 0 || bitOf r 7 then .error (7, off)
  else
    let x := Ref.op (r % 128) (bitsOf r 8 2)
    if (shapeOf ops x).isSome then .ok x else .error (reason, off)

/-- The first of some errors, by offset. (DEDUCED, log entry 57) -/
def firstErr : List CutErr → Option CutErr
  | [] => none
  | e :: t => match firstErr t with
    | some f => if f.2 < e.2 then some f else some e
    | none => some e

/-- What GRAPH.LOAD has read so far: operators, parameter blocks as offset and size, table bytes, and errors found inside the
parameter area. -/
structure CutRead where
  ops : List Oper
  blocks : List (Nat × Nat)
  tables : Nat
  late : List CutErr
  deriving DecidableEq, Repr

/-- Whether an operator is one of those that a graph holds once, and which (R287). -/
def onceGroup (i : Nat) : Nat := if i = opLabel then 1 else if i = opFeatures then 2 else if i = opTree || i = opNet then 3 else 0

/-- What is wrong with the values that an operator's inputs name, `ins` their offsets and shapes: FEATURES takes the region stream and a
classifier the feature stream of the operator before it (R287), the other inputs are pixels of one kind, all at one scale.
(DEDUCED, log entry 57) -/
def shapeErrs (i : Nat) (ins : List (Nat × Shape)) (first : Nat) : List CutErr :=
  let isPixel (s : Shape) : Bool := s.kind == .px || s.kind == .one
  let lead := ((ins.map (·.2)).find? isPixel).getD sourceShape
  let s0 := match ins with | e :: _ => e.2 | [] => sourceShape
  ins.flatMap (fun e =>
    if i = opTree || i = opNet then need (e.2.kind == .feat) 5 e.1
    else if i = opFeatures && e.1 = first then need (e.2.kind == .region) 5 e.1
    else need (isPixel e.2 && e.2.kind == lead.kind && e.2.fx == s0.fx && e.2.fy == s0.fy) 3 e.1)

/-- Read operator record `i` (Table 10.2). -/
def readOp (d : Bytes) (sources poff psize : Nat) (st : CutRead) (i : Nat) : Except CutErr CutRead :=
  let b := 64 + 32 * i
  let op := fld d b 2
  let nin := fld d (b + 3) 1
  let lim := opInputs op
  let po := fld d (b + 0x10) 4
  let pb := fld d (b + 0x14) 4
  let p := (d.drop (poff + po)).take pb
  let wrongCount := (op == opArith && nin != (if fld p 0 1 = 6 then 1 else 2))
    || (op == opBackground && fld p 1 1 == 1 && nin != 2)
  if !opKnown op then .error (2, b)
  else if onceGroup op != 0 && st.ops.any (fun o => onceGroup o.id == onceGroup op) then .error (5, b)
  else if fld d (b + 2) 1 != 0 then .error (7, b + 2)
  else if nin < lim.1 || lim.2 < nin || wrongCount then .error (3, b + 3)
  else
    let offs := (List.range nin).map (fun k => b + 4 + 2 * k)
    let read := offs.map (fun off => readRef d off sources st.ops 3)
    let refs := read.filterMap (fun r => match r with | .ok x => some x | .error _ => none)
    let badRefs := read.filterMap (fun r => match r with | .error e => some e | .ok _ => none)
    let spare := (List.range 4).find? (fun k => decide (nin ≤ k) && fld d (b + 4 + 2 * k) 2 != 0xFFFF)
    let ins := refs.filterMap (shapeOf st.ops)
    let fmt := fld d (b + 0x0C) 2
    let tables := st.tables + tableBytes op p
    let rec1 : List CutErr :=
      badRefs ++ (match spare with | some k => [(3, b + 4 + 2 * k)] | none => [])
        ++ shapeErrs op ((offs.zip read).filterMap (fun e => match e.2 with
          | .ok x => (shapeOf st.ops x).map (fun h => (e.1, h))
          | .error _ => none)) (b + 4)
        ++ need (fmtOk fmt && formatsOk op fmt ins
            && (op != opDecimate || fld p 2 1 != 0
                || decide (fmtW (ins.headD sourceShape).fmt + Nat.log2 (fld p 0 1 * fld p 1 1) ≤ 16))) 4 (b + 0x0C)
        ++ need (fld d (b + 0x0E) 2 == 0) 7 (b + 0x0E)
        ++ need (po % 8 == 0 && decide (po + pb ≤ psize) && !st.blocks.any (fun e => decide (po < e.1 + e.2) && decide (e.1 < po + pb))) 5 (b + 0x10)
        ++ need ((pb == paramSize op p || sizeOpen op p) && decide (tables ≤ 24576)) 5 (b + 0x14)
        ++ need (zeroRange d (b + 0x18) 8) 7 (b + 0x18)
    match firstErr rec1 with
    | some e => .error e
    | none => .ok
        { ops := st.ops ++ [⟨op, refs, fmt, p, portsOf op fmt p ins⟩], blocks := if pb = 0 then st.blocks else st.blocks ++ [(po, pb)]
          tables := tables, late := st.late ++ (paramErrs op p ins fmt).map (fun e => (e.1, poff + po + e.2)) }

/-- Read the operator records. -/
def readOps (d : Bytes) (sources poff psize : Nat) : List Nat → CutRead → Except CutErr CutRead
  | [], st => .ok st
  | i :: t, st => match readOp d sources poff psize st i with
    | .error e => .error e
    | .ok st' => readOps d sources poff psize t st'

/-- PROJECT with a mode that is neither COLUMN nor ROW: its mode is at fault, whichever output names it. -/
def noMode (ops : List Oper) (r : Ref) : Bool := match r with
  | .src _ => false
  | .op i _ => match ops[i]? with | some o => o.id == opProject && decide (2 ≤ fld o.params 0 1) | none => false

/-- Whether an output record may name a port (R286). -/
def outputOk (ops : List Oper) (kind : Nat) (r : Ref) : Bool :=
  match shapeOf ops r with
  | none => false
  | some s =>
    if kind = 0 then s.kind == .px || s.kind == .one || s.kind == .edge || noMode ops r
    else match r with
      | .src _ => false
      | .op i port =>
        let op := match ops[i]? with | some o => o.id | none => 0
        if kind = 1 then op == opDecimate && port == 0 else s.kind == .stat

/-- Read the output records (Table 10.4). -/
def readOuts (d : Bytes) (sources base : Nat) (ops : List Oper) : List Nat → List CutOut → Except CutErr (List CutOut)
  | [], acc => .ok acc
  | j :: t, acc =>
    let b := base + 8 * j
    match readRef d b sources ops 6 with
    | .error e => .error e
    | .ok r =>
      let kind := fld d (b + 2) 1
      let num := fld d (b + 3) 1
      match firstErr (need (3 ≤ kind || outputOk ops kind r) 6 b ++ need (decide (kind < 3)) 6 (b + 2)
        ++ need (decide (num < 8) && !acc.any (fun o => o.num == num)) 6 (b + 3) ++ need (zeroRange d (b + 4) 4) 7 (b + 4)) with
      | some e => .error e
      | none => readOuts d sources base ops t (acc ++ [⟨r, kind, num⟩])

/-- Read and check a cut list (R256, R257): the first offending field in byte order. (DEDUCED, log entry 57) -/
def readCut (d : Bytes) : Except CutErr Cut :=
  let nOp := fld d 6 2
  let nSrc := fld d 8 1
  let nOut := fld d 9 1
  let total := fld d 0x0C 4
  let poff := pad8 (64 + 32 * nOp + 8 * nOut)
  match firstErr (need (fld d 0 4 == 0x4C5A504B) 0 0 ++ need (fld d 4 2 == 1) 0 4 ++ need (decide (1 ≤ nOp) && decide (nOp ≤ 128)) 0 6
      ++ need (decide (1 ≤ nSrc) && decide (nSrc ≤ 8)) 0 8 ++ need (decide (1 ≤ nOut) && decide (nOut ≤ 8)) 0 9
      ++ need (fld d 0x0A 2 == 0) 7 0x0A ++ need (total == d.length && decide (total ≤ 2 ^ 20)) 0 0x0C
      ++ need (fld d 0x10 4 == poff && decide (poff ≤ total)) 0 0x10 ++ need (fld d 0x14 4 == total - poff) 0 0x14
      ++ need (zeroRange d 0x28 20) 7 0x28
      ++ need (fld d 0x3C 4 == crc32c (d.take 0x3C ++ d.drop 0x40)) 1 0x3C) with
  | some e => .error e
  | none => match readOps d nSrc poff (total - poff) (List.range nOp) ⟨[], [], 0, []⟩ with
    | .error e => .error e
    | .ok st => match readOuts d nSrc (64 + 32 * nOp) st.ops (List.range nOut) [] with
      | .error e => .error e
      | .ok outs => match firstErr st.late with
        | some e => .error e
        | none => .ok ⟨nSrc, st.ops, outs⟩

/-- A cut list that GRAPH.LOAD has accepted; an empty one stands for none. -/
def cutOf (b : Bytes) : Option Cut := if b.isEmpty then none else match readCut b with
  | .ok c => some c
  | .error _ => none

/-- Whether a cut list uses an operator. -/
def usesOp (c : Cut) (i : Nat) : Bool := c.ops.any (fun o => o.id == i)

/-- GRAPH.LOAD (R257, R258): what is staged is the cut list alone; none removes the graph's. -/
def graphLoad (s : State) (q : Req) (p : Bytes) : Reply :=
  let g := fld p 0 1
  let cut := p.drop 8
  let put (s : State) : Reply := reply stOk { s with cfg := { s.cfg with staged := tput s.cfg.staged (settingKey 0x0900 g) cut } }
  if clocheBusy s then reply stBusy s
  else if !(reqIndirect q.flags && decide (8 ≤ p.length) && decide (g < 64) && zeroRange p 1 7) then reply stBadArg s
  else if cut.isEmpty then put s
  else match readCut cut with
    | .error e => ⟨0x40, leBytes 4 e.2 ++ leBytes 1 e.1 ++ zeros 3, 0, s⟩
    | .ok _ => put s

/-- Row GRAPH_LOAD. -/
def execGraphLoad (io : HostIo) (s : State) : Host.Outcome State Fault Refusal :=
  done (serve { code := 0x0900 } io graphLoad s)

end Sys2Proof.Machine
end

