-- ==== Sys2Proof/Machine/GraphCfg.lean ====
section
/-! DEFINITION. Bindings, compilation, admission and placement of graphs, and GRAPH.GET_HEADROOM's plan (R259 to R265). -/

namespace Sys2Proof.Machine

/-! GRAPH.SET_BINDING and GRAPH.SET_SPRINT (Table 10.15) -/

/-- A graph's binding. -/
structure BindCfg where
  enable : Bool
  engines : Nat
  srcs : List Nat
  mask : Nat
  role : Nat
  peer : Nat
  split : Nat
  deriving DecidableEq, Repr

/-- Reset value: not enabled, LOCAL, no sources. -/
def bindReset (g : Nat) : Bytes :=
  leBytes 1 g ++ zeros 3 ++ List.replicate 8 0xFF ++ zeros 5 ++ [0xFF] ++ zeros 14

/-- A graph's binding as staged. -/
def bindBytes (img : Image) (g : Nat) : Bytes := settingIn img 0x0901 g (bindReset g)

/-- A graph's binding in an image. -/
def bindCfg (img : Image) (g : Nat) : BindCfg :=
  let p := bindBytes img g
  ⟨fld p 1 1 == 1, fld p 3 1, (List.range (min 8 (fld p 2 1))).map (fun i => fld p (4 + i) 1), fld p 0x0C 4, fld p 0x10 1,
    fld p 0x11 1, fld p 0x12 1⟩

/-- The checks of GRAPH.SET_BINDING. -/
def bindCheck (_s : State) (p : Bytes) : Option Nat :=
  let n := fld p 2 1
  let role := fld p 0x10 1
  orBadArg (fieldsOk p [⟨0, 1, 0, 63, false⟩, ⟨1, 1, 0, 1, false⟩, ⟨3, 1, 0, 128, false⟩, ⟨0x10, 1, 0, 2, false⟩] [(0x13, 13)]
    && (if role = 2 then n == 0 else decide (1 ≤ n) && decide (n ≤ 8))
    && (List.range 8).all (fun i => if i < n then decide (fld p (4 + i) 1 ≤ 143) else fld p (4 + i) 1 == 0xFF)
    && (if role = 0 then fld p 0x11 1 == 0xFF && fld p 0x12 1 == 0
        else decide (fld p 0x11 1 ≤ 15) && decide (1 ≤ fld p 0x12 1) && decide (fld p 0x12 1 ≤ 127)))

/-- Row GRAPH_SET_BINDING. -/
def execGraphSetBinding (io : HostIo) (s : State) : Host.Outcome State Fault Refusal :=
  done (serve { code := 0x0901, len := some 32 } io (stage 0x0901 (fun p => fld p 0 1) bindCheck) s)

/-- Reset value of GRAPH.SET_SPRINT: OFF. -/
def sprintReset : Bytes := zeros 8

/-- Sprint mode: 0 OFF, 1 AUTO, 2 MANUAL. -/
def sprintMode (img : Image) : Nat := fld (settingIn img 0x0902 0 sprintReset) 0 1

/-- auto_hold_us in force. -/
def autoHoldUs (img : Image) : Nat :=
  let v := fld (settingIn img 0x0902 0 sprintReset) 2 2
  if v = 0 then 100 else v

/-- The checks of GRAPH.SET_SPRINT: any mode but OFF needs SPRINT (R273). -/
def sprintCheck (_s : State) (p : Bytes) : Option Nat :=
  orBadArg (fieldsOk p [⟨0, 1, 0, 2, false⟩] [(1, 1), (4, 4)] && zeroOrIn (fld p 2 2) 100 10000)

/-- Row GRAPH_SET_SPRINT. -/
def execGraphSetSprint (io : HostIo) (s : State) : Host.Outcome State Fault Refusal :=
  done (serve { code := 0x0902, len := some 8 } io (stage 0x0902 (fun _ => 0) sprintCheck) s)

/-! Figures of an operator (Table 11.1) -/

/-- r_x and r_y in rows and columns of the input, row buffers, and cost in lane-cycles. -/
structure OpFig where
  rx : Nat
  ry : Nat
  rows : Nat
  cost : Nat
  deriving DecidableEq, Repr

/-- The figures of an operator; `src`: input 0 is a source; `inW`: W of input 0. -/
def opFig (o : Oper) (src : Bool) (inW : Nat) : OpFig :=
  let p := o.params
  let kx := fld p 8 1
  let ky := fld p 9 1
  let rx := (kx - 1) / 2
  let ry := (ky - 1) / 2
  let i := o.id
  if i = opConv then
    ⟨rx, ry, if src then 0 else 2 * ry, if fld p 0x0A 1 = 1 then ceilDiv kx 2 + ceilDiv ky 2 + 1 else ceilDiv (kx * ky) 2 + 1⟩
  else if i = opBox then ⟨rx, ry, 2 + (if src then 0 else 2 * ry + 1), 3⟩
  else if i = opRank then ⟨rx, rx, if src then 0 else 2 * rx, if kx = 3 then 6 else 20⟩
  else if i = opGradient then ⟨1, 1, if src then 0 else 2, 4 + ky⟩
  else if i = opMorph then
    let k := if fld p 0x0A 1 < 2 then 1 else 2
    if inW ≤ 2 then ⟨k * rx, k * ry, k, 2 * k⟩ else ⟨k * rx, k * ry, k * (ky - 1), 4 * k⟩
  else if i = opBackground then ⟨0, 0, 1, 2 + fld p 1 1⟩
  else if i = opArith || i = opConvert || i = opMask || i = opHistogram then ⟨0, 0, 0, 1⟩
  else if i = opLut then ⟨0, 0, 0, 2⟩
  else if i = opThreshold then ⟨0, 0, 0, if 2 ≤ o.ins.length then 2 else 1⟩
  else if i = opTexture then ⟨rx, ry, 4 + (if src then 0 else 2 * ry + 1), 6 + 2 * fld p 0x0A 1⟩
  else if i = opProject then ⟨0, 0, if fld p 0 1 = 0 then 2 else 0, 1⟩
  else if i = opEdge then ⟨0, 0, 0, 2⟩
  else if i = opDecimate then ⟨0, 0, 1, 1⟩
  else if i = opLabel then ⟨0, 0, 1, 2⟩
  else if i = opFeatures then ⟨0, 0, 0, 2⟩
  else if i = opExpr then
    let m := ((exprWords p).filter (fun w => w.op == 4 || w.op == 5)).length
    ⟨0, 0, 0, fld p 0 1 - m / 2 + 1⟩
  else ⟨0, 0, 0, 0⟩

/-- The shape of an operator's input 0. -/
def inShape (c : Cut) (o : Oper) : Shape := match o.ins with
  | r :: _ => (shapeOf c.ops r).getD sourceShape
  | [] => sourceShape

/-- Whether a reference is a source of the part that begins at operator `lo`: on TARGET a forwarded edge takes the place of one (R276). -/
def isSource (lo : Nat) : Ref → Bool
  | .src _ => true
  | .op i _ => decide (i < lo)

/-- An operator's figures within the part of its cut list that begins at operator `lo`. -/
def figOf (c : Cut) (lo : Nat) (o : Oper) : OpFig :=
  opFig o (match o.ins with | r :: _ => isSource lo r | [] => false) (fmtW (inShape c o).fmt)

/-- What compilation gathers over the operators, in order (R261, R283): halo and lag of each, delay rows of each, and the sum of
cost times the share of source pixels that each sees. -/
structure Gather where
  halo : List Nat := []
  lag : List Nat := []
  delay : List Nat := []
  cost : Rat := 0
  deriving DecidableEq, Repr

/-- Halo or lag of a reference: 0 for a source and for a value that another device computes. -/
def refVal (lo : Nat) (l : List Nat) : Ref → Nat
  | .src _ => 0
  | .op i _ => if i < lo then 0 else nthD 0 l i

/-- Add one operator; those outside the part of this device stand with zeros. -/
def gatherOp (c : Cut) (lo hi : Nat) (a : Gather) (i : Nat) : Gather := match c.ops[i]? with
  | none => a
  | some o =>
    if i < lo || hi ≤ i then { a with halo := a.halo ++ [0], lag := a.lag ++ [0], delay := a.delay ++ [0] }
    else
      let f := figOf c lo o
      let sh := inShape c o
      let most (l : List Nat) : Nat := l.foldl max 0
      let lags := o.ins.map (refVal lo a.lag)
      let top := most lags
      let delay := o.ins.foldl (fun (d : List Nat) r => match r with
        | .op k _ =>
          let v := refVal lo a.lag r
          let fy := match c.ops[k]? with | some x => (match x.ports with | s :: _ => s.fy | [] => 1) | none => 1
          if k < lo || top ≤ v then d else setNth d k (nthD 0 d k + ceilDiv (top - v) fy)
        | .src _ => d) a.delay
      { halo := a.halo ++ [f.rx * sh.fx + most (o.ins.map (refVal lo a.halo))], lag := a.lag ++ [f.ry * sh.fy + top]
        delay := delay ++ [0], cost := a.cost + (f.cost : Rat) / ((sh.fx * sh.fy : Nat) : Rat) }

/-- The part of a cut list that a device runs: first operator and the one after the last (R276). -/
def partOf (c : Cut) (role split : Nat) : Nat × Nat :=
  if role = 1 then (0, split) else if role = 2 then (split, c.ops.length) else (0, c.ops.length)

/-- history_rows of a part of a cut list (R261). -/
def partHistory (c : Cut) (lo hi : Nat) : Nat := ((List.range c.ops.length).foldl (gatherOp c lo hi) {}).lag.foldl max 0

/-- On ORIGIN, the history_rows of TARGET's part. -/
def farHistory (p : Plan) : Nat := if p.role = 1 then partHistory p.cut p.split p.cut.ops.length else 0

/-- The priming rows of a graph (R264): its history_rows; on ORIGIN also those that TARGET primes with. (DEDUCED, log entry 116) -/
def primeCount (p : Plan) : Nat := p.hist + farHistory p

/-- The values that cross from ORIGIN to TARGET (R277): read at or above split_op, made below it. -/
def crossing (c : Cut) (split : Nat) : List Ref :=
  (c.ops.drop split).foldl (fun acc o => o.ins.foldl (fun acc r =>
    let below := match r with | .src _ => true | .op i _ => decide (i < split)
    if below && !acc.contains r then acc ++ [r] else acc) acc) []

/-- What a graph needs on one engine count (R262, R264). -/
structure Fit where
  strip : Nat
  cycles : Nat
  mem : Nat
  load : Rat
  rerunNs : Rat
  checkRows : Nat
  wide : Bool
  deriving DecidableEq, Repr

/-- The arithmetic of R262 and R264 for E engines. -/
def fitOf (cols nOps nSrc hist halo bytes E : Nat) (cost rate : Rat) : Fit :=
  let w := ceilDiv cols E
  let cycles := (((w + 2 * halo : Nat) : Rat) * cost / 32).ceil.toNat + 16 * nOps
  let check := ceilDiv 16 (ceilDiv cycles 2048)
  let rows := hist + check + 2
  ⟨w, cycles, 32768 + bytes * (w + 2 * halo), (cycles : Rat) * rate / 1250000000,
    ((rows * cycles : Nat) : Rat) * 4 / 5 + ((rows * cols * nSrc : Nat) : Rat) / 80, check, decide (64 + w * (E - 1) ≤ cols)⟩

/-- Whether R262's load and strip width hold; its memory; R264. -/
def fitLoad (f : Fit) : Bool := f.wide && decide (f.load ≤ 95 / 100)
def fitMem (f : Fit) : Bool := decide (f.mem ≤ 262144)
def fitRerun (f : Fit) : Bool := decide (f.rerunNs ≤ 340000)

/-- The engine count and its figures, or the reason of a refusal (R262, R264). -/
def chooseE (fixed : Nat) (fit : Nat → Fit) : Except Nat (Nat × Fit) :=
  let cand := if fixed = 0 then (List.range 128).map (· + 1) else [fixed]
  match cand.find? (fun e => fitLoad (fit e) && fitMem (fit e) && fitRerun (fit e)) with
  | some e => .ok (e, fit e)
  | none =>
    if cand.any (fun e => fitLoad (fit e) && fitMem (fit e)) then .error 0x44
    else if cand.any (fun e => fitLoad (fit e)) then .error 0x43
    else .error 0x42

/-! Sources (R259, R289) -/

/-- The line stream that a source's grid, head and rate come from: itself, or a stitch's first member. -/
def sourceStream (img : Image) (src : Nat) : Option Nat :=
  if src < 128 then (if (streamCfg img src).isSome then some src else none)
  else
    let t := stitchCfg img (src - 128)
    if !t.enable then none
    else match t.members with
      | n :: _ => if (streamCfg img n).isSome then some n else none
      | [] => none

/-- The columns of a source. -/
def sourceCols (img : Image) (src : Nat) : Nat :=
  if src < 128 then (match streamCfg img src with | some c => c.columns | none => 0) else (stitchCfg img (src - 128)).columns

/-- Columns of a port of a graph whose sources have some columns. -/
def portCols (cols : Nat) (s : Shape) : Nat := if s.kind = .one then 1 else if s.kind = .edge then 2 else ceilDiv cols s.fx

/-- What a cut list asks of the row it is bound to: MIRROR's width (R288), no seam mode on line streams (R289), and columns of
PROJECT and HISTOGRAM within the row (R299). -/
def rowFits (c : Cut) (cols : Nat) (streams : Bool) : Bool :=
  c.ops.all (fun o =>
    let n := portCols cols (inShape c o)
    let p := o.params
    let bordered := [opConv, opBox, opRank, opGradient, opMorph, opTexture].contains o.id
    (!bordered || ((fld p 0 1 != 1 || decide ((figOf c 0 o).rx + 1 ≤ n)) && (!streams || fld p 1 1 == 0)))
      && (o.id != opHistogram || decide (fld p 4 4 < n)) && (o.id != opProject || fld p 0 1 == 0 || decide (fld p 0x0C 4 < n)))

/-- The ranges of a source: first and last column, and kind (R249); none for a line stream. -/
def sourceRanges (img : Image) (n : Nat) : List (Nat × Nat × Nat) :=
  if n < 128 then [] else (stitchRanges img (n - 128)).map (fun r => (r.1, r.2.1, r.2.2.1))

/-- The source that a reference comes from, by first inputs. -/
def sourceOf (c : Cut) : Nat → Ref → Nat
  | _, .src k => k
  | 0, .op _ _ => 0
  | f + 1, .op i _ => match c.ops[i]? with
    | some o => sourceOf c f (o.ins.headD (.src 0))
    | none => 0

/-- The ranges of the source that a reference comes from. -/
def rangesOf (p : Plan) (r : Ref) : List (Nat × Nat × Nat) := nthD [] p.ranges (sourceOf p.cut p.cut.ops.length r)

/-- Compile a graph of an image (R259 to R264), placement apart: its plan, none where the graph is neither enabled nor has a cut list, or
the reason why it is refused. -/
def planOf (img : Image) (g : Nat) : Except Nat (Option Plan) :=
  let b := bindCfg img g
  if !b.enable then (if (settingIn img 0x0900 g []).isEmpty then .ok none else .error 0x46)
  else match cutOf (settingIn img 0x0900 g []) with
    | none => .error 0x46
    | some c =>
      let src := b.srcs.map (sourceStream img)
      let target := b.role == 2
      let grids := src.map (fun o => match o with | some n => gridOf img n | none => 0)
      let cols := b.srcs.map (sourceCols img)
      let sameGrid := grids.all (· == grids.headD 0)
      let sameCols := cols.all (· == cols.headD 0)
      let n := if target then (Config.targetShape g).1 else cols.headD 0
      let rate : Rat := if target then ((Config.targetShape g).2 : Rat) else (match src.head? with | some (some k) => gridRowRate img k | _ => 0)
      if (!target && b.srcs.length != c.sources) || src.any (·.isNone) || !sameGrid || !sameCols then .error 0x45
      else if b.role != 0 && c.ops.length ≤ b.split then .error 0x47
      else if !target && !rowFits c n (b.srcs.any (fun k => decide (k < 128))) then .error 0x45
      else
        let part := partOf c b.role b.split
        let nSrc := if target then (crossing c b.split).length else c.sources
        let nOps := part.2 - part.1
        let ga := (List.range c.ops.length).foldl (gatherOp c part.1 part.2) {}
        let halo := ga.halo.foldl max 0
        let hist := ga.lag.foldl max 0
        let bytes := sumBy (fun i => match c.ops[i]? with
          | some o => if i < part.1 then 0 else ((figOf c part.1 o).rows + nthD 0 ga.delay i) * ceilDiv (fmtW o.fmt) 8
          | none => 0) (List.range part.2)
        match chooseE b.engines (fun e => fitOf n nOps nSrc hist halo bytes e ga.cost rate) with
        | .error r => .error r
        | .ok (e, f) => .ok (some
            { graph := g, cut := c, srcs := b.srcs, cols := n, rate := rate, role := b.role, peer := b.peer, split := b.split
              mask := b.mask, raw := settingIn img 0x0900 g [], binding := bindBytes img g, cost := ga.cost, halo := halo, hist := hist
              engines := e, strip := f.strip, cycles := f.cycles, mem := f.mem, load := f.load, rerunNs := f.rerunNs
              checkRows := f.checkRows, ranges := if target then (List.range c.sources).map (Config.targetRanges g) else b.srcs.map (sourceRanges img) })

/-- Whether a graph is unchanged from one configuration to another (R263): cut list, binding and source rates. -/
def samePlan (a b : Plan) : Bool := a.raw == b.raw && a.binding == b.binding && decide (a.rate = b.rate) && a.cols == b.cols

/-! Placement (R263) -/

/-- The sources that feed a part's row rings. -/
def ringSources (p : Plan) : Nat := if p.role = 2 then (crossing p.cut p.split).length else p.cut.sources

/-- The columns of engine `e`'s strip (R262). -/
def stripOf (p : Plan) (e : Nat) : Nat := if e + 1 < p.engines then p.strip else p.cols - p.strip * (p.engines - 1)

/-- The tile SRAM that the row ring of engine `e` takes. -/
def ringBytes (p : Plan) (e : Nat) : Nat := (p.hist + 18) * (stripOf p e + 2 * p.halo) * 2 * ringSources p

/-- The tile SRAM for row rings: 3.5 MiB. -/
def sramBytes : Nat := 3670016

/-- Slots in use and SRAM taken in each tile. -/
structure Floor where
  used : List Nat
  sram : Tab Nat
  deriving DecidableEq, Repr

/-- Take a slot for engine `e` of a plan. (DEDUCED, log entry 58) -/
def takeSlot (p : Plan) (e slot : Nat) (f : Floor) : Floor := ⟨f.used ++ [slot], tmod 0 f.sram (slot / 16) (· + ringBytes p e)⟩

/-- Keep a graph's slots. -/
def keepSlots (p : Plan) (slots : List Nat) (f : Floor) : Floor :=
  (List.range slots.length).foldl (fun f e => takeSlot p e (nthD 0 slots e) f) f

/-- Free slots in ascending physical order for a plan: the slots taken, the floor after, and whether a free slot had to be passed
over for its tile's SRAM. (DEDUCED, log entry 58) -/
def fillSlots (p : Plan) (lost : List Nat) : List Nat → List Nat × Floor × Bool → List Nat × Floor × Bool
  | [], a => a
  | slot :: t, a =>
    let e := a.1.length
    if p.engines ≤ e then a
    else if a.2.1.used.contains slot || lost.contains slot || (p.mask != 0 && !bitOf p.mask (slot / 16)) then fillSlots p lost t a
    else if sramBytes < tget 0 a.2.1.sram (slot / 16) + ringBytes p e then fillSlots p lost t (a.1, a.2.1, true)
    else fillSlots p lost t (a.1 ++ [slot], takeSlot p e slot a.2.1, a.2.2)

/-- Place some plans in order on a floor: what was placed, and the first graph that found no place with its reason. -/
def placeAll (lost : List Nat) : List Plan → Floor → Tab (List Nat) → Tab (List Nat) × Option (Nat × Nat)
  | [], _, acc => (acc, none)
  | p :: t, f, acc =>
    if (tfind acc p.graph).isSome then placeAll lost t f acc
    else
      let r := fillSlots p lost (List.range 512) ([], f, false)
      if r.1.length < p.engines then (acc, some (p.graph, if r.2.2 then 0x43 else 0x41))
      else placeAll lost t r.2.1 (tput acc p.graph r.1)

/-- R263: unchanged graphs keep their slots, the others take free ones; failing that, every graph is placed from empty. -/
def place (lost : List Nat) (kept : Tab (List Nat)) (ps : List Plan) : Tab (List Nat) × Option (Nat × Nat) :=
  let keep := ps.filter (fun p => (tfind kept p.graph).isSome)
  let f := keep.foldl (fun f p => keepSlots p (tget [] kept p.graph) f) ⟨[], []⟩
  let a := placeAll lost ps f (keep.foldl (fun t p => tput t p.graph (tget [] kept p.graph)) [])
  match a.2 with
  | none => a
  | some _ => placeAll lost ps ⟨[], []⟩ []

/-- What admission of a whole configuration gives: the plans in ascending graph number, their slots, and the first graph that
fails with its reason. -/
structure Admission where
  plans : List Plan
  slots : Tab (List Nat)
  fail : Option (Nat × Nat)
  deriving DecidableEq, Repr

/-- The plans of a configuration up to the first graph that is refused. -/
def plansOf (img : Image) : List Nat → List Plan × Option (Nat × Nat)
  | [] => ([], none)
  | g :: t => match planOf img g with
    | .error r => ([], some (g, r))
    | .ok o =>
      let rest := plansOf img t
      (o.toList ++ rest.1, rest.2)

/-- The slots that unchanged graphs of the active configuration keep, those without a lost slot (R263, R271). -/
def keptSlots (s : State) (ps : List Plan) : Tab (List Nat) :=
  ps.foldl (fun t p => match planOf s.cfg.active p.graph, tfind s.fab.fab.placed p.graph with
    | .ok (some q), some sl => if samePlan p q && !sl.any s.fab.fab.lost.contains then tput t p.graph sl else t
    | _, _ => t) []

/-- Admit a configuration (R259 to R264). (DEDUCED, log entry 58) -/
def admitGraphs (s : State) (img : Image) : Admission :=
  let p := plansOf img (List.range 64)
  let pl := place s.fab.fab.lost (keptSlots s p.1) p.1
  match pl.2 with
  | some e => ⟨p.1.filter (fun q => decide (q.graph < e.1)), pl.1, some e⟩
  | none => ⟨p.1, pl.1, p.2⟩

/-- What CFG.COMMIT checks of GRAPH settings: of a cut list that its binding is enabled, of a binding all else. -/
def graphValidate (s : State) (img : Image) (code obj : Nat) : Option Nat :=
  if code = 0x0900 then
    (if (settingIn img 0x0900 obj []).isEmpty || (bindCfg img obj).enable then none else some 0x46)
  else if code = 0x0901 then
    (match planOf img obj with
      | .error r => some r
      | .ok _ => match (admitGraphs s img).fail with
        | some (g, r) => if g = obj then some r else none
        | none => none)
  else none

end Sys2Proof.Machine
end

