-- ==== Sys2Proof/Machine/Operators.lean ====
section
/-! DEFINITION. The operators of the catalogue as arithmetic on rows, the state they carry, and EXPR (R281 to R301, R306). -/

namespace Sys2Proof.Machine

/-! Rows of ports -/

/-- The key of a port. -/
def portKey : Ref → Nat
  | .src k => 1024 + k
  | .op i port => 4 * i + port

/-- The rows of a port. -/
def portRows (st : OpsSt) (r : Ref) : PortRows := tget {} st.ports (portKey r)

/-- Row `n` of a port, counted from the graph's start. -/
def rowNo (p : PortRows) (n : Nat) : Option VRow := if n < p.count then p.rows[p.count - 1 - n]? else none

/-- Add a row to a port, keeping the latest `keep`. -/
def addRow (keep : Nat) (key : Nat) (v : VRow) (st : OpsSt) : OpsSt :=
  let p := tget {} st.ports key
  { st with ports := tput st.ports key ⟨p.count + 1, (v :: p.rows).take keep⟩ }

/-- The rows that a port keeps: enough for every window and delay (R283). -/
def keepRows (p : Plan) : Nat := 2 * p.hist + 3

/-- What a source row is remembered by. -/
def metaNo (st : OpsSt) (n : Nat) : Option RowMeta := if n < st.count then st.metas[st.count - 1 - n]? else none

/-- The position of a grid index, from a row of the same grid. -/
def posOf (m : RowMeta) (k : Int) : Int := m.g + (k - m.k) * (m.pitch : Int)

/-- First and last position of a row (R301, R316). -/
def rowSpan (st : OpsSt) (v : VRow) : Int × Int := match metaNo st v.n0 with
  | some m => (posOf m v.k0, posOf m v.k1)
  | none => (0, 0)

/-! Borders (R288 to R290) -/

/-- A border block: mode, seam mode, border_value as raw input value. -/
structure Border where
  mode : Nat
  seam : Nat
  value : Int
  deriving DecidableEq, Repr

/-- Read a border block. -/
def borderOf (p : Bytes) (f0 : Nat) : Border := ⟨fld p 0 1, fld p 1 1, rawOf f0 (fld p 2 2)⟩

/-- The column that REPLICATE or MIRROR reads for a column outside a segment. -/
def reflectCol (mode : Nat) (lo hi x : Int) : Int :=
  if mode = 1 then
    let m := hi - lo
    if m ≤ 0 then lo
    else
      let t := (x - lo) % (2 * m)
      lo + (if m < t then 2 * m - t else t)
  else if x < lo then lo else hi

/-- The pixel that a window reads at a row number and column, within a segment of columns. -/
def windowPixel (b : Border) (row : Int → List Int) (lo hi : Nat) (r x : Int) : Int :=
  let constant := b.mode == 2 || b.mode == 3
  let outRow := decide (r < 0)
  let outCol := decide (x < lo) || decide ((hi : Int) < x)
  if (outRow || outCol) && constant then b.value
  else
    let r' := if outRow then (if b.mode = 1 then -r else 0) else r
    let x' := if outCol then reflectCol b.mode lo hi x else x
    nthD 0 (row r') x'.toNat

/-- The maximal runs of covered ranges (R289): first and last column. -/
def coveredRuns : List (Nat × Nat × Nat) → List (Nat × Nat)
  | [] => []
  | (a, b, k) :: t =>
    let rest := coveredRuns t
    if k = 2 then rest
    else match rest with
      | (c, d) :: more => if c = b + 1 then (a, d) :: more else (a, b) :: rest
      | [] => [(a, b)]

/-- A range divided by a decimation factor, within a number of columns. -/
def divRange (fx cols : Nat) (r : Nat × Nat) : Nat × Nat := (r.1 / fx, min (cols - 1) (ceilDiv r.2 fx))

/-- The segments that windows keep within, and the columns that are set to border_value, from the ranges of the input's source (R289). -/
def segments (ranges : List (Nat × Nat × Nat)) (b : Border) (sh : Shape) (cols : Nat) : List (Nat × Nat) × List (Nat × Nat) :=
  if b.seam = 0 || ranges.isEmpty || sh.kind != .px then ([(0, cols - 1)], [])
  else
    let masked := ranges.filter (fun r => r.2.2 == 2 || (b.seam == 2 && r.2.2 == 1))
    ((coveredRuns ranges).map (divRange sh.fx cols), masked.map (fun r => divRange sh.fx cols (r.1, r.2.1)))

/-- A window operator's row: `core` gives the values of its ports from the pixels around one, `fmts` their formats. -/
def windowRow (ranges : List (Nat × Nat × Nat)) (sh : Shape) (b : Border) (rx ry n cols : Nat) (fmts : List Nat) (row : Int → List Int)
    (core : (Int → Int → Int) → List Int) : List (List Int) :=
  let seg := segments ranges b sh cols
  let border := fmts.map (fun f => convertF sh.fmt f b.value)
  let shut := b.mode == 3 && decide (n < ry)
  let one (c : Nat) : List Int :=
    if shut || seg.2.any (fun r => decide (r.1 ≤ c) && decide (c ≤ r.2)) then border
    else match seg.1.find? (fun r => decide (r.1 ≤ c) && decide (c ≤ r.2)) with
      | none => border
      | some r =>
        if b.mode == 3 && (decide (c < r.1 + rx) || decide (r.2 < c + rx)) then border
        else core (fun dr dc => windowPixel b row r.1 r.2 ((n : Int) + dr) ((c : Int) + dc))
  let px := (List.range cols).map one
  (List.range fmts.length).map (fun k => px.map (fun l => nthD 0 l k))

/-! Filters (R292 to R295) -/

/-- Offsets from -r to r. -/
def offsets (r : Nat) : List Int := (List.range (2 * r + 1)).map (fun (i : Nat) => (i : Int) - (r : Int))

/-- The sum of some numbers. -/
def isum (l : List Int) : Int := l.foldl (· + ·) 0

/-- A quotient rounded half up. -/
def divHalfUp (v : Int) (n : Nat) : Int := if n = 0 then 0 else (2 * v + (n : Int)) / (2 * (n : Int))

/-- CONV (R292). -/
def convCore (q : Bytes) (f0 f : Nat) (px : Int → Int → Int) : Int :=
  let kx := fld q 8 1
  let ky := fld q 9 1
  let x (r c : Int) : Int := shiftRound (alignF f0 f (px r c)) (fld q 0x0B 1)
  let dx := offsets ((kx - 1) / 2)
  let dy := offsets ((ky - 1) / 2)
  let y :=
    if fld q 0x0A 1 = 1 then
      let t := dx.map (fun c => shiftRound (isum (List.zipWith (fun k r => k * x r c) (coeffs q 0 ky) dy)) (fld q 0x0C 1))
      isum (List.zipWith (· * ·) (coeffs q ky kx) t)
    else isum (List.zipWith (· * ·) (coeffs q 0 (kx * ky)) (dy.flatMap (fun r => dx.map (fun c => x r c))))
  saturate f (shiftRound y (fld q 0x0D 1) + sfld q 0x0E 2)

/-- The pixels of a window. -/
def windowPixels (kx ky : Nat) (px : Int → Int → Int) : List Int :=
  (offsets ((ky - 1) / 2)).flatMap (fun r => (offsets ((kx - 1) / 2)).map (fun c => px r c))

/-- BOX (R293). -/
def boxCore (q : Bytes) (f0 f : Nat) (px : Int → Int → Int) : Int :=
  let w := (windowPixels (fld q 8 1) (fld q 9 1) px).map (alignF f0 f)
  saturate f (divHalfUp (isum w) w.length)

/-- Insert into an ascending list that may hold a value more than once. -/
def insertSorted (x : Int) : List Int → List Int
  | [] => [x]
  | h :: t => if x ≤ h then x :: h :: t else h :: insertSorted x t

/-- RANK (R293). -/
def rankCore (q : Bytes) (px : Int → Int → Int) : Int :=
  nthD 0 ((windowPixels (fld q 8 1) (fld q 8 1) px).foldl (fun l x => insertSorted x l) []) (fld q 9 1)

/-- The octant of a vector, counter-clockwise from +gx; an angle on a border counts up (R294). -/
def octant (gx gy : Int) : Int :=
  if gx = 0 && gy = 0 then 0
  else if 0 ≤ gy && 0 < gx then (if gy < gx then 0 else 1)
  else if 0 < gy then (if -gx < gy then 2 else 3)
  else if gx < 0 then (if gx < gy then 4 else 5)
  else if gx < -gy then 6 else 7

/-- GRADIENT (R294): magnitude and octant. -/
def gradientCore (q : Bytes) (f0 f : Nat) (px : Int → Int → Int) : List Int :=
  let x (r c : Int) : Int := alignF f0 f (px r c)
  let gx := x (-1) 1 + 2 * x 0 1 + x 1 1 - x (-1) (-1) - 2 * x 0 (-1) - x 1 (-1)
  let gy := x 1 (-1) + 2 * x 1 0 + x 1 1 - x (-1) (-1) - 2 * x (-1) 0 - x (-1) 1
  let a : Int := gx.natAbs
  let b : Int := gy.natAbs
  [saturate f (if fld q 8 1 = 0 then a + b else max a b)] ++ (if fld q 9 1 = 1 then [octant gx gy] else [])

/-- Erosion or dilation of some pixels: bit by bit up to W 2, by least and greatest above (R295). -/
def morphOf (dilate : Bool) (f : Nat) (l : List Int) : Int :=
  if fmtW f ≤ 2 then
    let bits := l.map (patternOf (fmtW f))
    rawOf f (if dilate then bits.foldl (· ||| ·) 0 else bits.foldl (· &&& ·) (2 ^ fmtW f - 1))
  else match l with
    | [] => 0
    | x :: t => t.foldl (fun a b => if dilate then max a b else min a b) x

/-- MORPH (R295): one stage, or two of which the second reads the first. -/
def morphCore (q : Bytes) (f : Nat) (px : Int → Int → Int) : Int :=
  let kx := fld q 8 1
  let ky := fld q 9 1
  let op := fld q 0x0A 1
  let stage (dilate : Bool) (v : Int → Int → Int) (r c : Int) : Int :=
    morphOf dilate f (windowPixels kx ky (fun dr dc => v (r + dr) (c + dc)))
  if op = 0 then stage false px 0 0
  else if op = 1 then stage true px 0 0
  else if op = 2 then stage true (stage false px) 0 0
  else stage false (stage true px) 0 0

/-- TEXTURE (R294): variance or its root, and the mean. -/
def textureCore (q : Bytes) (f0 f : Nat) (px : Int → Int → Int) : List Int :=
  let raw := windowPixels (fld q 8 1) (fld q 9 1) px
  let w := raw.map (alignF f0 f)
  let n := w.length
  let var := (n : Int) * isum (w.map (fun v => v * v)) - isum w * isum w
  let port0 := if fld q 0x0A 1 = 0 then divHalfUp var (n * n) else ((isqrt (var / ((n * n : Nat) : Int)).toNat : Nat) : Int)
  [saturate f port0, saturate f0 (divHalfUp (isum raw) n)]

/-! Pointwise operators (R296 to R298, R306) -/

/-- ARITH (R297). (DESIGN CHOICE, log entry 59) -/
def arithOf (q : Bytes) (f0 f1 f : Nat) (a b : Int) : Int :=
  let op := fld q 0 1
  let x := alignF f0 f a
  let y := alignF f1 f b
  saturate f (
    if op = 0 then x + y
    else if op = 1 then x - y
    else if op = 2 then (((x - y).natAbs : Nat) : Int)
    else if op = 3 then min x y
    else if op = 4 then max x y
    else if op = 5 then shiftRound (a * b) (fld q 1 1)
    else shiftRound (x * sfld q 2 2) (fld q 1 1) + sfld q 4 2)

/-- LUT (R297). -/
def lutOf (q : Bytes) (f : Nat) (a : Int) : Int := rawOf f (fld q (8 + 2 * patternOf (fld q 0 1) a) 2)

/-- CONVERT (R297). -/
def convertOf (q : Bytes) (f : Nat) (a : Int) : Int := saturate f (shiftRound (a + sfld q 2 2) (sfld q 0 1))

/-- MASK (R297). -/
def maskOf (q : Bytes) (f : Nat) (a m : Int) : Int := if (m != 0) != bitOf (fld q 2 1) 0 then a else rawOf f (fld q 0 2)

/-- THRESHOLD (R298). -/
def thresholdOf (q : Bytes) (f : Nat) (v : Int) : Int :=
  let low := decide (v < sfld q 0 4)
  let high := decide (sfld q 4 4 < v)
  if f = fmtU2 then ((b2n low + 2 * b2n high : Nat) : Int) else ((b2n (low || high) : Nat) : Int)

/-- Saturation to EXPR's 24-bit registers. -/
def sat24 (v : Int) : Int := clampInt (-8388608) 8388607 v

/-- One EXPR instruction on registers and inputs (Table 11.9). (DESIGN CHOICE, log entry 59) -/
def exprStep (ins : List Int) (r : List Int) (w : ExprWord) : List Int :=
  let a := nthD 0 r w.a
  let y := if w.imm then w.k else nthD 0 r w.b
  let d := nthD 0 r w.d
  let v :=
    if w.op = 0 then nthD 0 ins w.a
    else if w.op = 1 then w.k
    else if w.op = 2 then sat24 (a + y)
    else if w.op = 3 then sat24 (a - y)
    else if w.op = 4 then sat24 (a * y)
    else if w.op = 5 then sat24 (d + a * y)
    else if w.op = 6 then shiftRound a w.k
    else if w.op = 7 then sat24 (a * ((2 ^ w.k.toNat : Nat) : Int))
    else if w.op = 8 then min a y
    else if w.op = 9 then max a y
    else if w.op = 10 then (if a = -8388608 then Config.exprAbsLowest.toInt else ((a.natAbs : Nat) : Int))
    else if w.op = 11 then (if a < y then 1 else 0)
    else if w.op = 12 then (if a = y then 1 else 0)
    else if w.op = 13 then (if d = 0 then y else a)
    else if w.op = 14 then signedOf 24 (patternOf 24 a &&& patternOf 24 y)
    else signedOf 24 (patternOf 24 a ||| patternOf 24 y)
  setNth r w.d v

/-- EXPR of one pixel (R306). -/
def exprOf (q : Bytes) (f : Nat) (ins : List Int) : Int :=
  saturate f (nthD 0 ((exprWords q).foldl (exprStep ins) (List.replicate 8 0)) 0)

/-! Operators that carry state (R291, R296, R299 to R301) -/

/-- BACKGROUND (R296): the new b of each column. -/
def backgroundRow (q : Bytes) (f0 f : Nat) (b : Option (List Int)) (x mask : List Int) : List Int := match b with
  | none => x.map (convertF f0 f)
  | some b => (List.range x.length).map (fun c =>
      let v := nthD 0 b c
      if bitOf (fld q 1 1) 0 && nthD 0 mask c != 0 then v else saturate f (v + shiftRound (alignF f0 f (nthD 0 x c) - v) (fld q 0 1)))

/-- The bin of a HISTOGRAM value (R299). (DESIGN CHOICE, log entry 59) -/
def binOf (f0 : Nat) (v : Int) : Nat :=
  let w := fmtW f0
  if w < 8 then (if 0 ≤ v then v.toNat else (Config.negativeBin v).val)
  else if fmtSigned f0 then ((v + ((2 ^ (w - 1) : Nat) : Int)) / ((2 ^ (w - 8) : Nat) : Int)).toNat
  else (v / ((2 ^ (w - 8) : Nat) : Int)).toNat

/-- HISTOGRAM (R299). -/
def binsAdd (q : Bytes) (f0 : Nat) (bins : List Nat) (x : List Int) : List Nat :=
  let lo := fld q 0 4
  ((x.drop lo).take (fld q 4 4 + 1 - lo)).foldl (fun b v => setNth b (binOf f0 v % 256) (nthD 0 b (binOf f0 v % 256) + 1)) bins

/-- Whether a value lies on the strip's side of the level (R300). -/
def onStrip (q : Bytes) (v : Int) : Bool := if fld q 4 1 = 0 then decide (sfld q 0 4 < v) else decide (v < sfld q 0 4)

/-- The edge found in a row: from the left or from the right, near the last edge or over the whole row (R300). -/
def findEdge (q : Bytes) (x : List Int) (right : Bool) (last : Option Nat) (miss : Nat) : Option Nat :=
  let n := x.length
  let search := fld q 6 2
  let cols := List.range n
  let near := match last with
    | some e => if search = 0 || fld q 8 2 ≤ miss then cols else cols.filter (fun c => decide (e ≤ c + search) && decide (c ≤ e + search))
    | none => cols
  (if right then near.reverse else near).find? (fun c => onStrip q (nthD 0 x c))

/-- EDGE_TRACK (R300): the mask of the row from the edges of the one before, the edges, and the state after. -/
def edgeRow (q : Bytes) (c : Option Carry) (x : List Int) : List Int × List Int × Carry :=
  let n := x.length
  let st := match c with
    | some (.edges a b m k p r) => (a, b, m, k, p, r)
    | _ => (none, none, 0, 0, none, none)
  let l := findEdge q x false st.1 st.2.2.1
  let r := findEdge q x true st.2.1 st.2.2.2.1
  let first := c.isNone
  let lo := if first then 0 else st.2.2.2.2.1.getD 0
  let hi := if first then n - 1 else st.2.2.2.2.2.getD (n - 1)
  let mask := (List.range n).map (fun c => if lo ≤ c && c ≤ hi then (1 : Int) else 0)
  let val (e : Option Nat) : Int := match e with | some v => (v : Int) | none => 0xFFFF
  (mask, [val l, val r],
    .edges (match l with | some v => some v | none => st.1) (match r with | some v => some v | none => st.2.1)
      (if l.isSome then 0 else st.2.2.1 + 1) (if r.isSome then 0 else st.2.2.2.1 + 1) l r)

/-- The values of a DECIMATE block (R301). -/
def blockRow (q : Bytes) (f0 f : Nat) (rows : List (List Int)) : List Int :=
  let fx := fld q 0 1
  let n := match rows with | r :: _ => r.length | [] => 0
  (List.range (ceilDiv n fx)).map (fun c =>
    let v := rows.flatMap (fun r => (r.drop (c * fx)).take fx)
    if fld q 2 1 = 0 then saturate f (divHalfUp (isum (v.map (alignF f0 f))) v.length)
    else match v with
      | [] => 0
      | x :: t => convertF f0 f (if fld q 2 1 = 1 then t.foldl min x else if fld q 2 1 = 2 then t.foldl max x else x))

/-! One operator's next row -/

/-- Put a row on the ports of operator `i`: it spans what row `v` spans. -/
def putRows (keep i : Nat) (vals : List (List Int)) (flags : Nat) (v : VRow) (st : OpsSt) : OpsSt :=
  (List.range vals.length).foldl (fun t k => addRow keep (4 * i + k) { v with px := nthD [] vals k, flags := flags } t) st

/-- Set what an operator carries. -/
def setCarry (i : Nat) (c : Carry) (st : OpsSt) : OpsSt := { st with carry := tput st.carry i c }

/-- Close DECIMATE's block: its row spans the whole block, whichever rows of it there were. -/
def emitBlock (keep i : Nat) (o : Oper) (sh : Shape) (st : OpsSt) : OpsSt := match tfind st.carry i with
  | some (.block j rows flags n0 n1) =>
    let fy : Int := ((sh.fy * fld o.params 1 1 : Nat) : Int)
    putRows keep i [blockRow o.params sh.fmt o.fmt rows] flags ⟨[], flags, n0, n1, j * fy, j * fy + fy - 1⟩ { st with carry := tdel st.carry i }
  | _ => st

/-- DECIMATE takes a row: an unfinished block that the row does not belong to is emitted as it stands (R301). -/
def decimateRow (keep i : Nat) (o : Oper) (sh : Shape) (v : VRow) (st : OpsSt) : OpsSt :=
  let fy : Int := ((sh.fy * fld o.params 1 1 : Nat) : Int)
  let j := v.k0 / fy
  let st1 : OpsSt := match tfind st.carry i with
    | some (Carry.block k _ _ _ _) => if k = j then st else emitBlock keep i o sh st
    | _ => st
  let st2 : OpsSt := match tfind st1.carry i with
    | some (.block _ rows fl n0 _) => setCarry i (.block j (rows ++ [v.px]) (fl ||| v.flags) n0 v.n1) st1
    | _ => setCarry i (.block j [v.px] v.flags v.n0 v.n1) st1
  if (v.k1 + 1) / fy = j then st2 else emitBlock keep i o sh st2

/-- Whether an operator belongs to the region unit (R302 to R305). -/
def regionOp (i : Nat) : Bool := i == opLabel || i == opFeatures || i == opTree || i == opNet

/-- The vertical radius of an operator in its input's rows. -/
def radiusY (c : Cut) (o : Oper) : Nat := (figOf c 0 o).ry

/-- Operator `i` takes its next input row and puts out what that completes; none where its inputs have no further row. `prime`:
source rows below this number are priming rows, which PROJECT and HISTOGRAM do not take in. -/
def opNext (p : Plan) (prime : Nat) (i : Nat) (st : OpsSt) : Option OpsSt := match p.cut.ops[i]? with
  | none => none
  | some o =>
    if regionOp o.id then none
    else
      let n := tget 0 st.taken i
      let fig := figOf p.cut 0 o
      let shs := o.ins.map (fun r => (shapeOf p.cut.ops r).getD sourceShape)
      let sh := shs.headD sourceShape
      let ports := o.ins.map (portRows st)
      let newest := rowNo (ports.headD {}) (n + fig.ry)
      let rows := ports.map (fun q => rowNo q n)
      if newest.isNone || rows.any (·.isNone) then none
      else
        let v0 := (rows.headD none).getD ⟨[], 0, 0, 0, 0, 0⟩
        let xs := rows.map (fun r => (r.map (·.px)).getD [])
        let x := xs.headD []
        let y := nthD [] xs 1
        let q := o.params
        let f0 := sh.fmt
        let f1 := (nthD sourceShape shs 1).fmt
        let f := o.fmt
        let keep := keepRows p
        let flags := rows.foldl (fun m r => m ||| (match r with | some v => v.flags | none => 0)) 0
        let st1 := { st with taken := tput st.taken i (n + 1) }
        let put (vals : List (List Int)) : Option OpsSt := some (putRows keep i vals flags v0 st1)
        let window (fmts : List Nat) (core : (Int → Int → Int) → List Int) : Option OpsSt :=
          let src := ports.headD {}
          let fl := (List.range (2 * fig.ry + 1)).foldl (fun m d =>
            if n + d < fig.ry then m else m ||| (match rowNo src (n + d - fig.ry) with | some v => v.flags | none => 0)) 0
          let row (r : Int) : List Int := match rowNo src r.toNat with | some v => v.px | none => []
          let vals := windowRow (rangesOf p (o.ins.headD (.src 0))) sh (borderOf q f0) fig.rx fig.ry n x.length fmts row core
          some (putRows keep i vals (if n < fig.ry then fl ||| 8 else fl) v0 st1)
        if o.id = opConv then window [f] (fun px => [convCore q f0 f px])
        else if o.id = opBox then window [f] (fun px => [boxCore q f0 f px])
        else if o.id = opRank then window [f] (fun px => [rankCore q px])
        else if o.id = opGradient then window (if fld q 9 1 = 1 then [f, fmtU3] else [f]) (gradientCore q f0 f)
        else if o.id = opMorph then window [f] (fun px => [morphCore q f px])
        else if o.id = opTexture then window [f, f0] (textureCore q f0 f)
        else if o.id = opBackground then
          let b := backgroundRow q f0 f (match tfind st.carry i with | some (.back b) => some b | _ => none) x y
          (put [b]).map (setCarry i (.back b))
        else if o.id = opArith then put [(List.range x.length).map (fun c => arithOf q f0 f1 f (nthD 0 x c) (nthD 0 y c))]
        else if o.id = opLut then put [x.map (lutOf q f)]
        else if o.id = opConvert then put [x.map (convertOf q f)]
        else if o.id = opMask then put [List.zipWith (maskOf q f) x y]
        else if o.id = opThreshold then
          put [(List.range x.length).map (fun c => thresholdOf q f
            (if 2 ≤ o.ins.length then nthD 0 x c - alignF f1 f0 (nthD 0 y c) else nthD 0 x c))]
        else if o.id = opProject then
          if fld q 0 1 = 1 then
            let part := (x.drop (fld q 8 4)).take (fld q 0x0C 4 + 1 - fld q 8 4)
            put [[saturate f (divHalfUp (isum part) part.length)]]
          else if v0.n1 < prime then some st1
          else some (setCarry i (match tfind st.carry i with
            | some (.sums v k) => .sums (List.zipWith (· + ·) v x) (k + 1)
            | _ => .sums x 1) st1)
        else if o.id = opHistogram then
          if v0.n1 < prime then some st1
          else some (setCarry i (.bins (binsAdd q f0 (match tfind st.carry i with
            | some (.bins b) => b
            | _ => List.replicate 256 0) x)) st1)
        else if o.id = opEdge then
          let e := edgeRow q (tfind st.carry i) x
          -- port 0 is computed from the edges of the row before (R300)
          let before := if n = 0 then none else rowNo (ports.headD {}) (n - 1)
          let maskFlags := match before with | some v => v.flags | none => 0
          some (setCarry i e.2.2 (addRow keep (4 * i + 1) { v0 with px := e.2.1, flags := flags }
            (addRow keep (4 * i) { v0 with px := e.1, flags := maskFlags } st1)))
        else if o.id = opDecimate then some (decimateRow keep i o sh v0 st1)
        else if o.id = opExpr then put [(List.range x.length).map (fun c => exprOf q f (xs.map (fun l => nthD 0 l c)))]
        else none

/-- Operator `i` takes every row it can, at most `fuel`. -/
def opRun (p : Plan) (prime i : Nat) : Nat → OpsSt → OpsSt
  | 0, st => st
  | k + 1, st => match opNext p prime i st with
    | some t => opRun p prime i k t
    | none => st

/-- The operators of this device's part take what they can, in order. -/
def opsRun (p : Plan) (prime : Nat) (st : OpsSt) : OpsSt :=
  let part := partOf p.cut p.role p.split
  (List.range p.cut.ops.length).foldl (fun t i => if i < part.1 || part.2 ≤ i then t else opRun p prime i 64 t) st

/-- The source rows that one row of a graph can span: the largest decimation of its ports (R301). -/
def mostRows (p : Plan) : Nat := p.cut.ops.foldl (fun m o => o.ports.foldl (fun m sh => max m sh.fy) m) 1

/-- How many source rows are remembered: enough for every window, delay and block. -/
def keepMetas (p : Plan) : Nat := 2 * p.hist + 520 + 3 * mostRows p

/-- A source row enters a graph: the row of each source, with its flags, on the source's port, one number for all of them. -/
def enterRow (p : Plan) (m : RowMeta) (rows : List (List Int × Nat)) (st : OpsSt) : OpsSt :=
  let n := st.count
  (List.range rows.length).foldl (fun t k =>
      let e := nthD ([], 0) rows k
      addRow (keepRows p) (1024 + k) ⟨e.1, e.2, n, n, m.k, m.k⟩ t)
    { st with count := n + 1, metas := (m :: st.metas).take (keepMetas p) }

end Sys2Proof.Machine
end

