-- ==== Sys2Proof/Machine/Features.lean ====
section
/-! DEFINITION. Region features and classifiers (R303 to R305). -/

namespace Sys2Proof.Machine

/-- Central second moments of a region, each times AREA squared: columns, rows, mixed. -/
def moments (a : Acc) : Int × Int × Int :=
  let n : Int := (a.area : Int)
  (n * a.sxx - a.sx * a.sx, n * a.syy - a.sy * a.sy, n * a.sxy - a.sx * a.sy)

/-- The greatest m of 32 bits, 256 or more, with m ÷ 256 + 256 ÷ m ≤ T ÷ √det: ELONGATION rounded down. -/
def elongGo (T det : Int) : Nat → Int → Int
  | 0, m => m
  | k + 1, m =>
    let t := m + ((2 ^ k : Nat) : Int)
    let v := t * t + 65536
    if 256 < t && decide (65536 * t * t * T * T < det * v * v) then elongGo T det k m else elongGo T det k t

/-- ELONGATION (Table 11.6); its rounding is free. (DESIGN CHOICE, log entry 60) -/
def elongation (a : Acc) : Int :=
  let m := moments a
  let T := m.1 + m.2.1
  let det := m.1 * m.2.1 - m.2.2 * m.2.2
  if det ≤ 0 then 2147483647
  else
    let x := elongGo T det 32 0
    let exact := decide (det * (x * x + 65536) * (x * x + 65536) = 65536 * x * x * T * T)
    sat32 (if exact then x else x + ((b2n (Config.elongationUp m.1 m.2.1 m.2.2) : Nat) : Int))

/-- π scaled by 10^60. -/
def piScaled : Int := 3141592653589793238462643383279502884197169399375105820974945

/-- Terms of a power series: `x` scaled by 10^60, from term `n` on. -/
def seriesGo (x2 : Int) : Nat → Int → Int → Int
  | 0, _, _ => 0
  | k + 1, n, term => term + seriesGo x2 k (n + 2) (-(term * x2 / 10 ^ 60) / ((n + 1) * (n + 2)))

/-- Cosine and sine, scaled by 10^60, of k hundredths of a degree, k below 4,500. -/
def cosSin (k : Nat) : Int × Int :=
  let x := piScaled * (k : Int) / 18000
  let x2 := x * x / 10 ^ 60
  (seriesGo x2 40 0 (10 ^ 60), seriesGo x2 40 1 x)

/-- The greatest k of 13 bits, below `top`, whose direction does not lie past (u, v), for 0 ≤ v ≤ u. -/
def angleGo (u v : Int) (top : Nat) : Nat → Nat → Nat
  | 0, k => k
  | b + 1, k =>
    let t := k + 2 ^ b
    let cs := cosSin t
    if t < top && decide (0 ≤ v * cs.1 - u * cs.2) then angleGo u v top b t else angleGo u v top b k

/-- The angle of a vector in hundredths of a degree, rounded down, and whether that is exact: 0 to 35,999. Multiples of 45° are the
only angles of whole hundredths that a vector of integers can have. -/
def angleOf (u v : Int) : Nat × Bool :=
  if v < 0 then
    -- turn by half a circle
    let r := angleUpper (-u) (-v)
    (r.1 + 18000, r.2)
  else angleUpper u v
where
  /-- Angles from 0 up to, not including, 180°, and 180° itself. -/
  angleUpper (u v : Int) : Nat × Bool :=
    if v = 0 then (if u < 0 then (18000, true) else (0, true))
    else if u = v then (4500, true)
    else if v < u then (angleGo u v 4500 13 0, false)
    else if 0 < u then
      -- between 45° and 90°: measured back from 90°
      (9000 - 1 - angleGo v u 4500 13 0, false)
    else if u = 0 then (9000, true)
    else if -u < v then (9000 + angleGo v (-u) 4500 13 0, false)
    else if -u = v then (13500, true)
    else (18000 - 1 - angleGo (-u) v 4500 13 0, false)

/-- ORIENTATION (Table 11.6): the major axis' angle from across the strip towards later rows, half of the angle of (A - B, 2 C);
its rounding is free, and so is the angle of a region without a major axis. (DESIGN CHOICE, log entry 60) -/
def orientation (a : Acc) : Int :=
  let m := moments a
  let u := m.1 - m.2.1
  let v := 2 * m.2.2
  if u = 0 && v = 0 then ((Config.orientationRound % 18000 : Nat) : Int)
  else
    let r := angleOf u v
    let whole := r.2 && r.1 % 2 == 0
    (((r.1 / 2 + (if whole then 0 else b2n (Config.orientationUp m.1 m.2.1 m.2.2))) % 18000 : Nat) : Int)

/-- The 16 features of a region (Table 11.6). -/
def features (a : Acc) : List Int :=
  let n : Int := (a.area : Int)
  let len : Int := a.row1 - a.row0 + 1
  let wid : Int := (a.col1 : Int) - (a.col0 : Int) + 1
  let meanI := divHalfUp a.sumI a.area
  let meanR := divHalfUp a.sumR a.area
  let std := if a.area = 0 then 0 else ((isqrt ((n * a.sumI2 - a.sumI * a.sumI) / (n * n)).toNat : Nat) : Int)
  [n, len, wid, meanI, a.minI.getD 0, a.maxI.getD 0, std, meanR, if a.ref then meanI - meanR else 0, (a.perimeter : Int),
    (if len * wid = 0 then 0 else n * 65536 / (len * wid)), elongation a, orientation a, freeDiv (a.sx * 16) n,
    freeDiv ((a.sy - a.row0 * n) * 16) n, (a.polarity : Int)].map sat32

/-! Classifiers -/

/-- The class that CLASSIFY_TREE gives, from a node on (R304). -/
def treeGo (p : Bytes) (f : List Int) : Nat → Nat → Nat
  | 0, _ => 0
  | k + 1, i =>
    let b := 8 + 8 * i
    if fld p b 1 = 0xFF then fld p (b + 1) 1
    else if nthD 0 f (fld p b 1) < sfld p (b + 4) 4 then treeGo p f k (fld p (b + 2) 1) else treeGo p f k (fld p (b + 3) 1)

/-- Accumulation in 32 bits. -/
def wrap32 (v : Int) : Int := signedOf 32 (patternOf 32 v)

/-- One layer's sums: weights [out][in] at `off`, then biases (Table 11.7). -/
def layerSums (p : Bytes) (off : Nat) (l : Nat × Nat) (x : List Int) : List Int :=
  let b := off + pad8 (l.1 * l.2)
  (List.range l.2).map (fun j => wrap32 (isum ((List.range l.1).map (fun i => sfld p (off + j * l.1 + i) 1 * nthD 0 x i)) + sfld p (b + 4 * j) 4))

/-- The bytes of a layer. -/
def layerBytes (l : Nat × Nat) : Nat := pad8 (l.1 * l.2) + pad8 (4 * l.2)

/-- The index of the greatest of some numbers, the lowest on a tie. -/
def argmax (l : List Int) : Nat := ((List.range l.length).foldl (fun k i => if nthD 0 l k < nthD 0 l i then i else k) 0)

/-- The class that CLASSIFY_NET gives (R305). -/
def netClass (p : Bytes) (f : List Int) : Nat :=
  let n := fld p 0 1
  let q := (List.range n).map (fun i =>
    let b := 16 + 8 * i
    clampInt (-128) 127 (shiftRound (nthD 0 f (fld p b 1) - sfld p (b + 4) 4) (fld p (b + 1) 1)))
  let cm := 16 + 8 * n
  let relu (shift : Nat) (v : Int) : Int := clampInt 0 127 (v / ((2 ^ shift : Nat) : Int))
  let s := match netLayers p with
    | [a, b] => layerSums p (cm + 16 + layerBytes a) b ((layerSums p (cm + 16) a q).map (relu (fld p 4 1)))
    | [a, b, c] =>
      let h1 := (layerSums p (cm + 16) a q).map (relu (fld p 4 1))
      let h2 := (layerSums p (cm + 16 + layerBytes a) b h1).map (relu (fld p 5 1))
      layerSums p (cm + 16 + layerBytes a + layerBytes b) c h2
    | _ => []
  let k := argmax s
  if nthD 0 s k < sfld p 8 4 then fld p 6 1 else fld p (cm + k) 1

/-- The class of a region (R303 to R305, R315): 0 without a classifier. -/
def classOf (c : Option (Nat × Bytes)) (f : List Int) : Nat := match c with
  | none => 0
  | some (i, p) => if i = opTree then treeGo p f 17 0 else netClass p f

end Sys2Proof.Machine
end

