-- ==== Sys2Proof/Machine/Label.lean ====
section
/-! DEFINITION. Labelling: RGN settings, region contexts, growth, merging, closure, splits and forced closure, and the closing of
a region in its pipeline (R302, R303, R307 to R318). -/

namespace Sys2Proof.Machine

/-! RGN.SET_GRAPH and RGN.SET_TILES (Table 12.10) -/

/-- A graph's region settings. -/
structure RgnCfg where
  tiles : Bool
  quota : Nat
  forced : Nat
  limit : Nat
  select : List Nat
  marginNm : Nat
  marginUm : Nat
  streams : Nat
  classes : Nat
  deriving DecidableEq, Repr

/-- Reset value (R327): quota 0, forced_area 16, no limit, no tiles, features 3, 5, 8, 13 and 14. -/
def rgnReset (g : Nat) : Bytes := leBytes 1 g ++ zeros 15 ++ [3, 5, 8, 13, 14] ++ zeros 75

/-- Read a graph's region settings. -/
def rgnCfgOf (p : Bytes) : RgnCfg where
  tiles := bitOf (fld p 1 1) 0
  quota := fld p 4 4
  forced := if fld p 8 4 = 0 then 16 else fld p 8 4
  limit := fld p 12 4
  select := (List.range 5).map (fun i => fld p (16 + i) 1)
  marginNm := fld p 0x18 4
  marginUm := fld p 0x1C 4
  streams := fld p 0x20 16
  classes := fld p 0x30 32

/-- A graph's region settings as bytes of an image. -/
def rgnBytes (img : Image) (g : Nat) : Bytes := settingIn img 0x0A00 g (rgnReset g)

/-- A graph's region settings in an image. -/
def rgnCfg (img : Image) (g : Nat) : RgnCfg := rgnCfgOf (rgnBytes img g)

/-- The checks of RGN.SET_GRAPH (R327). -/
def rgnCheck (_s : State) (p : Bytes) : Option Nat :=
  let tiles := bitOf (fld p 1 1) 0
  orBadArg (fieldsOk p ([⟨0, 1, 0, 63, false⟩, ⟨1, 1, 0, 1, false⟩, ⟨4, 4, 0, 1048576, false⟩, ⟨0x18, 4, 0, 100000000, false⟩,
      ⟨0x1C, 4, 0, 100000, false⟩] ++ (List.range 5).map (fun i => ⟨16 + i, 1, 0, 15, false⟩)) [(2, 2), (0x15, 3), (0x50, 16)]
    && (tiles || zeroRange p 0x18 56))

/-- Row RGN_SET_GRAPH. -/
def execRgnSetGraph (io : HostIo) (s : State) : Host.Outcome State Fault Refusal :=
  done (serve { code := 0x0A00, len := some 96 } io (stage 0x0A00 (fun p => fld p 0 1) rgnCheck) s)

/-- Reset value of RGN.SET_TILES. -/
def tilesReset : Bytes := zeros 16

/-- tile_budget_gbs and tile_wait_ms in force. -/
def tileBudget (img : Image) : Nat := if fld (settingIn img 0x0A01 0 tilesReset) 0 2 = 0 then 100 else fld (settingIn img 0x0A01 0 tilesReset) 0 2
def tileWaitMs (img : Image) : Nat := if fld (settingIn img 0x0A01 0 tilesReset) 2 2 = 0 then 10 else fld (settingIn img 0x0A01 0 tilesReset) 2 2

/-- Row RGN_SET_TILES. -/
def execRgnSetTiles (io : HostIo) (s : State) : Host.Outcome State Fault Refusal :=
  done (serve { code := 0x0A01, len := some 16 } io (stage 0x0A01 (fun _ => 0)
    (fun _ p => orBadArg (zeroOrIn (fld p 0 2) 1 400 && zeroOrIn (fld p 2 2) 1 1000 && zeroRange p 4 12))) s)

/-- What CFG.COMMIT checks of RGN settings (R308, R327, Table 12.9), the HBM budget apart. -/
def rgnValidate (img : Image) (code obj : Nat) : Option Nat :=
  if code != 0x0A00 then none
  else
    let c := rgnCfg img obj
    let labels := match cutOf (settingIn img 0x0900 obj []) with | some k => usesOp k opLabel | none => false
    if 1048576 < sumBy (fun g => (rgnCfg img g).quota) (List.range 64) then some 0x40
    else if !labels then some 0x41
    else if (setBits 128 c.streams).any (fun n => (streamCfg img n).isNone) then some 0x42
    else none

/-! Graphs of the state -/

/-- A graph. -/
def graphOf (s : State) (g : Nat) : GraphSt := tget {} s.fab.graphs g

/-- Set a graph. -/
def setGraph (g : Nat) (x : GraphSt) (s : State) : State := { s with fab := { s.fab with graphs := tset {} s.fab.graphs g x } }

/-- Set the region unit. -/
def setRgn (r : Rgn) (s : State) : State := { s with fab := { s.fab with rgn := r } }

/-- The configuration that rows of a generation were made under: the one a commit is bringing in, the active one, or an earlier one. -/
def genImage (s : State) (generation : Nat) : Image :=
  let coming := match s.cfg.commit with
    | some c => c.applying && c.newGen == generation
    | none => false
  if coming then nextImage s else if generation = s.cfg.generation then s.cfg.active
  else (tfind s.cfg.older generation).getD s.cfg.previous

/-! Contexts (R308) -/

/-- The contexts of the device. -/
def poolSize : Nat := 1048576

/-- The open regions of a graph. -/
def openRegions (x : GraphSt) : Tab Region := match x.run with | some r => r.ops.lab.regions | none => []

/-- Contexts in use by the graphs that draw from the common pool, one of them left out. -/
def pooledElsewhere (s : State) (img : Image) (g : Nat) : Nat :=
  sumBy (fun e => if e.1 != g && (rgnCfg img e.1).quota == 0 then (openRegions e.2).length else 0) s.fab.graphs

/-- The contexts that a graph may hold: its quota, or what no quota reserves and no other graph holds. -/
def contextRoom (s : State) (img : Image) (g : Nat) : Nat :=
  let q := (rgnCfg img g).quota
  if q != 0 then q else poolSize - sumBy (fun k => (rgnCfg img k).quota) (List.range 64) - pooledElsewhere s img g

/-! One row of LABEL -/

/-- What a row of LABEL brings: its pixels, intensity and reference, tag fields, and where a run may not touch (ROW_EDGE). -/
structure LabRow where
  px : List Int
  intensity : Option (List Int)
  reference : Option (List Int)
  flags : Nat
  pos0 : Int
  pos1 : Int
  paramSet : Nat
  /-- generation of the row's first source row, and of its last -/
  gen0 : Nat
  generation : Nat
  digest : Nat
  edges : List Nat
  deriving DecidableEq, Repr

/-- What is fixed of a graph's LABEL: polarity, gap_rows, forced_area and contexts. -/
structure LabRules where
  polarity : Nat
  gap : Nat
  forced : Nat
  room : Nat
  deriving DecidableEq, Repr

/-- The row in the making: LABEL's state, runs of this row, regions closed (with record flags), contexts held besides open regions,
and what is counted. -/
structure LabStep where
  lab : Lab
  runs : List LabRun
  closed : List (Region × Nat)
  freeing : Nat
  stuck : Bool
  dropped : Nat
  opened : Nat
  merges : Nat
  forcedCount : Nat
  splits : Nat
  deriving DecidableEq, Repr

/-- The runs of set pixels of one row: first and last column. -/
def maskRuns (mask : List Bool) : List (Nat × Nat) :=
  let step (a : List (Nat × Nat) × Option Nat) (c : Nat) : List (Nat × Nat) × Option Nat :=
    if nthD false mask c then (a.1, some (a.2.getD c))
    else match a.2 with
      | some lo => (a.1 ++ [(lo, c - 1)], none)
      | none => a
  ((List.range (mask.length + 1)).foldl step ([], none)).1

/-- Merge the features of one region into another's (R311). -/
def Acc.join (a b : Acc) : Acc :=
  let kept (x y : Acc) : Acc := { y with gap := x.gap || y.gap, flags := x.flags ||| y.flags }
  if a.area = 0 then kept a b else if b.area = 0 then kept b a
  else
    let early := if b.row0 < a.row0 then b else a
    let late := if a.row1 < b.row1 then b else a
    let pick (f : Int → Int → Int) (x y : Option Int) : Option Int := match x, y with
      | some u, some v => some (f u v)
      | some u, none => some u
      | none, o => o
    { area := a.area + b.area, row0 := min a.row0 b.row0, row1 := max a.row1 b.row1, col0 := min a.col0 b.col0, col1 := max a.col1 b.col1
      sumI := a.sumI + b.sumI, sumI2 := a.sumI2 + b.sumI2, minI := pick min a.minI b.minI, maxI := pick max a.maxI b.maxI
      sumR := a.sumR + b.sumR, ref := a.ref || b.ref, sx := a.sx + b.sx, sxx := a.sxx + b.sxx, sy := a.sy + b.sy, syy := a.syy + b.syy, sxy := a.sxy + b.sxy
      perimeter := a.perimeter + b.perimeter, polarity := a.polarity ||| b.polarity, pos0 := early.pos0, pos1 := late.pos1
      paramSet := early.paramSet, generation := late.generation, digest := late.digest
      gens := a.gens ++ b.gens.filter (fun g => !a.gens.contains g), flags := a.flags ||| b.flags, edge := a.edge || b.edge
      gap := a.gap || b.gap }

/-- The features of one run of a row. -/
def runAcc (r : LabRow) (row : Int) (polarity c0 c1 : Nat) : Acc :=
  let cols := (List.range (c1 + 1 - c0)).map (· + c0)
  let at' (o : Option (List Int)) : List Int := match o with
    | some l => (l.drop c0).take (c1 + 1 - c0)
    | none => []
  let i := at' r.intensity
  let n : Int := ((c1 + 1 - c0 : Nat) : Int)
  let sx : Int := ((sumBy id cols : Nat) : Int)
  let ext (f : Int → Int → Int) (l : List Int) : Option Int := match l with
    | [] => none
    | x :: t => some (t.foldl f x)
  { area := c1 + 1 - c0, row0 := row, row1 := row, col0 := c0, col1 := c1, sumI := isum i, sumI2 := isum (i.map (fun v => v * v))
    minI := ext min i, maxI := ext max i, sumR := isum (at' r.reference), ref := r.reference.isSome, sx := sx, sxx := ((sumBy (fun c => c * c) cols : Nat) : Int)
    sy := row * n, syy := row * row * n, sxy := row * sx, perimeter := 0, polarity := polarity, pos0 := r.pos0, pos1 := r.pos1
    paramSet := r.paramSet, generation := r.generation, digest := r.digest
    gens := if r.gen0 = r.generation then [r.generation] else [r.gen0, r.generation], flags := r.flags &&& 0x7F
    edge := r.edges.contains c0 || r.edges.contains c1, gap := false }

/-- Members of a region of the previous row that no row below covers any more are at its perimeter. -/
def settleInner (id : Nat) (l : Lab) : Lab :=
  let n := (l.inner.filter (fun e => e.2.2 == id)).length
  if n = 0 then l
  else match tfind l.regions id with
    | some x => { l with
        inner := l.inner.filter (fun e => e.2.2 != id)
        regions := tput l.regions id { x with acc := { x.acc with perimeter := x.acc.perimeter + n } } }
    | none => l

/-- Take an open region out of the row: it has closed. -/
def closeOne (x : Region) (flags : Nat) (a : LabStep) : LabStep :=
  let l := settleInner x.id a.lab
  let y := (tfind l.regions x.id).getD x
  { a with
    lab := { l with regions := tdel l.regions x.id }, closed := a.closed ++ [(y, flags)] }

/-- First row and first column of a region; of a continuation without members yet, the row after its head. -/
def firstOf (x : Region) : Int × Nat := if x.acc.area = 0 then (x.acc.row1 + 1, x.openCol) else (x.acc.row0, x.acc.col0)

/-- Whether a region comes before another: the earlier first row, the lower first column on a tie (R311, R314). -/
def firstBefore (x y : Region) : Bool :=
  decide ((firstOf x).1 < (firstOf y).1) || ((firstOf x).1 == (firstOf y).1 && decide ((firstOf x).2 < (firstOf y).2))

/-- The region that is force-closed first (R314): the oldest small one, the lowest first column on a tie. -/
def forcedVictim (l : Lab) (forced : Nat) : Option Region :=
  let small := (l.regions.map (·.2)).filter (fun x => decide (x.acc.area < forced) || forced == 0xFFFFFFFF)
  small.foldl (fun best x => match best with
    | none => some x
    | some b => if firstBefore x b then some x else best) none

/-- Open a region for a run, by a free context or a forced closure (R314); none where neither is to be had. -/
def openRegion (u : LabRules) (row : Int) (c0 : Nat) (a : LabStep) : Option Nat × LabStep :=
  let fresh (a : LabStep) : Option Nat × LabStep :=
    let id := a.lab.nextId
    (some id, { a with
      opened := a.opened + 1
      lab := { a.lab with nextId := id + 1, regions := tput a.lab.regions id ⟨id, row, c0, {}, 0, false, 0⟩ } })
  if a.stuck then (none, a)
  else if a.lab.regions.length + a.freeing < u.room then fresh a
  else match forcedVictim a.lab u.forced with
    | some v => fresh { closeOne v 1 a with forcedCount := a.forcedCount + 1 }
    | none => (none, { a with stuck := true })

/-- Rename a region everywhere: it has merged into another. -/
def renameRegion (old new : Nat) (a : LabStep) : LabStep :=
  let f (r : LabRun) : LabRun := if r.region = old then { r with region := new } else r
  { a with
    runs := a.runs.map f
    lab := { a.lab with
      prev := a.lab.prev.map f
      inner := a.lab.inner.map (fun e => if e.2.2 = old then (e.1, e.2.1, new) else e) } }

/-- Merge some open regions: the context of the one with the earliest first row stays, of several that with the lowest first column
(R311). (DESIGN CHOICE, log entry 60) -/
def mergeRegions (ids : List Nat) (a : LabStep) : Option Nat × LabStep :=
  let xs := ids.filterMap (tfind a.lab.regions)
  match xs with
  | [] => (none, a)
  | x :: t =>
    let keep := t.foldl (fun b y => if firstBefore y b then y else b) x
    let rest := xs.filter (fun y => y.id != keep.id)
    (some keep.id, rest.foldl (fun a y =>
      let k := (tfind a.lab.regions keep.id).getD keep
      let k' := { k with acc := k.acc.join y.acc, tail := k.tail || y.tail, continues := if k.continues = 0 then y.continues else k.continues }
      renameRegion y.id keep.id { a with
        freeing := a.freeing + 1, merges := a.merges + 1
        lab := { a.lab with regions := tput (tdel a.lab.regions y.id) keep.id k' } }) a)

/-- Take one run of a row: join the regions of the previous row that it touches, or open one (R310, R311, R314).
(DESIGN CHOICE, log entry 60) -/
def takeRun (u : LabRules) (r : LabRow) (plane polarity : Nat) (c : Nat × Nat) (a : LabStep) : LabStep :=
  let row := a.lab.row
  let touched := (a.lab.prev.filter (fun p => p.plane == plane && decide (p.c0 ≤ c.2 + 1) && decide (c.1 ≤ p.c1 + 1))).map (·.region)
  let ids := (touched.filter (fun i => (tfind a.lab.regions i).isSome)).foldl (fun l i => if l.contains i then l else l ++ [i]) []
  let got := if ids.isEmpty then openRegion u row c.1 a else mergeRegions ids a
  match got.1 with
  | none => { got.2 with dropped := got.2.dropped + (c.2 + 1 - c.1) }
  | some id => match tfind got.2.lab.regions id with
    | none => got.2
    | some x => { got.2 with
        runs := got.2.runs ++ [⟨plane, c.1, c.2, id⟩]
        lab := { got.2.lab with regions := tput got.2.lab.regions id { x with acc := x.acc.join (runAcc r row polarity c.1 c.2) } } }

/-- PERIMETER of a row's members (Table 11.6): members of the previous row that this row leaves uncovered, and members of this row
with no member at the left, at the right or above; the others wait for the next row. -/
def perimeterRow (a : LabStep) : LabStep :=
  let covered (p c : Nat) : Bool := a.runs.any (fun r => r.plane == p && decide (r.c0 ≤ c) && decide (c ≤ r.c1))
  let above (p c : Nat) : Bool := a.lab.prev.any (fun r => r.plane == p && decide (r.c0 ≤ c) && decide (c ≤ r.c1))
  let add (t : Tab Region) (id n : Nat) : Tab Region := if n = 0 then t else match tfind t id with
    | some x => tput t id { x with acc := { x.acc with perimeter := x.acc.perimeter + n } }
    | none => t
  let t1 := a.lab.inner.foldl (fun t e => if covered e.1 e.2.1 then t else add t e.2.2 1) a.lab.regions
  let inner := a.runs.flatMap (fun r =>
    ((List.range (r.c1 + 1 - r.c0)).map (· + r.c0)).filterMap (fun c =>
      if r.c0 < c && c < r.c1 && above r.plane c then some (r.plane, c, r.region) else none))
  let t2 := a.runs.foldl (fun t r =>
    add t r.region (r.c1 + 1 - r.c0 - (inner.filter (fun e => e.1 == r.plane && decide (r.c0 ≤ e.2.1) && decide (e.2.1 ≤ r.c1))).length)) t1
  { a with lab := { a.lab with regions := t2, inner := inner } }

/-- Regions that close in this row by gap_rows, or are split at 65,536 rows (R312). (DESIGN CHOICE, log entry 61) -/
def closeDue (u : LabRules) (a : LabStep) : LabStep :=
  let row := a.lab.row
  (a.lab.regions.map (·.2)).foldl (fun a x =>
    if (u.gap : Int) ≤ row - x.acc.row1 then closeOne x 0 a
    else if 0 < x.acc.area && 65536 ≤ x.acc.row1 - x.acc.row0 + 1 then
      let n := a.lab.splits + 1
      let b := closeOne x 2 { a with
        splits := a.splits + 1, lab := { a.lab with splits := n, regions := tput a.lab.regions x.id { x with split := n } } }
      { b with lab := { b.lab with
          regions := tput b.lab.regions x.id { x with acc := { row1 := x.acc.row1, gap := false }, tail := true, continues := n, split := 0 } } }
    else a) a

/-- Regions in ascending order of where their context was opened (R315). -/
def insertClosed (e : Region × Nat) : List (Region × Nat) → List (Region × Nat)
  | [] => [e]
  | h :: t =>
    if e.1.openRow < h.1.openRow || (e.1.openRow = h.1.openRow && e.1.openCol < h.1.openCol) then e :: h :: t
    else h :: insertClosed e t

/-- One row of LABEL (R302, R310 to R314). -/
def labelRow (u : LabRules) (r : LabRow) (l : Lab) : LabStep :=
  let a0 : LabStep := ⟨l, [], [], 0, false, 0, 0, 0, 0, 0⟩
  let planes := if u.polarity = 1 then [0, 1] else [0]
  let a1 := planes.foldl (fun a p =>
    let set (v : Int) : Bool := if u.polarity = 1 then bitOf v.toNat p else v != 0
    (maskRuns (r.px.map set)).foldl (fun a c =>
      let pol := if u.polarity = 1 then 2 ^ p else ((r.px.drop c.1).take (c.2 + 1 - c.1)).foldl (fun m v => m ||| (v.toNat % 4)) 0
      takeRun u r p pol c a) a) a0
  let a2 := perimeterRow a1
  -- a row with runs left unlabelled is degraded, and with it the regions that have members in it (R314, R318)
  let here (id : Nat) : Nat := if a2.runs.any (fun q => q.region == id) then 8 else 0
  let gapped (x : Region) : Region := { x with acc := { x.acc with gap := true, flags := x.acc.flags ||| here x.id } }
  let a3 := if a2.dropped = 0 then a2 else { a2 with
      closed := a2.closed.map (fun e => (gapped e.1, e.2)), lab := { a2.lab with regions := a2.lab.regions.map (fun e => (e.1, gapped e.2)) } }
  let a4 := closeDue u a3
  { a4 with
    closed := a4.closed.foldl (fun t e => insertClosed e t) []
    lab := { a4.lab with prev := a4.runs, row := a4.lab.row + 1, taken := a4.lab.taken + 1 } }

/-- Close every open region of LABEL, with record flags (R312: COMMIT_CLOSED, FLUSHED). -/
def closeAll (flags : Nat) (l : Lab) : List (Region × Nat) × Lab :=
  let a := (l.regions.map (·.2)).foldl (fun a x => closeOne x flags a) (⟨l, [], [], 0, false, 0, 0, 0, 0, 0⟩ : LabStep)
  (a.closed.foldl (fun t e => insertClosed e t) [], { a.lab with prev := [], inner := [] })

/-- The contexts that a row needs in cache (R307): those whose runs of the previous row it touches, and those it closes. -/
def contextsNeeded (u : LabRules) (px : List Int) (l : Lab) : List Nat :=
  let runs := maskRuns (px.map (· != 0))
  let touched := (l.prev.filter (fun p => runs.any (fun c => decide (p.c0 ≤ c.2 + 1) && decide (c.1 ≤ p.c1 + 1)))).map (·.region)
  let due := (l.regions.filter (fun e => decide ((u.gap : Int) ≤ l.row - e.2.acc.row1))).map (·.1)
  (touched ++ due).foldl (fun a i => if a.contains i || (tfind l.regions i).isNone then a else a ++ [i]) []

/-! Cross-strip bounds (R244, Table 12.1) -/

/-- Lower and upper bound in µm of the columns a to b of a source, rounded down. -/
def columnBounds (img : Image) (src a b : Nat) : Int × Int :=
  let pos (c : Nat) : Int := if src < 128 then columnPm img src c else outPm (stitchCfg img (src - 128)) c
  let pitch : Nat := if src < 128 then (match streamCfg img src with | some d => (geomCfg img d.head).pitch.natAbs | none => 0)
    else (stitchCfg img (src - 128)).pitchNm * 1000
  let lo := min (pos a) (pos b)
  let hi := max (pos a) (pos b)
  ((2 * lo - (pitch : Int)) / 2000000, (2 * hi + (pitch : Int)) / 2000000)

end Sys2Proof.Machine
end

