-- ==== Sys2Proof/Machine/GraphRun.lean ====
section
/-! DEFINITION. A graph takes rows: starting by priming, one grid position, labelling, outputs, closing regions, periods and what a
commit does (R260, R264, R270, R291, R299, R307, R312, R314). -/

namespace Sys2Proof.Machine

/-! Rows rebuilt from the look-back buffer (R212, R230, R269) -/

/-- A line as a bed would hold it. -/
def asBedLine (s : State) (img : Image) (l : LbLine) : BedLine := ⟨l, stripPos img l, readsRebuilt s l, dcNow s⟩

/-- The row of a line stream at a grid position from the lines that the look-back buffer still holds. -/
def rebuildLine (img : Image) (n : Nat) (g : Int) (s : State) : Option Made :=
  let ls := heldLines s n
  let before := ls.filter (fun l => decide (stripPos img l ≤ g))
  let after := ls.filter (fun l => decide (g < stripPos img l))
  match before.getLast?, after.head? with
  | some a, some b => some (straddleRow img n (asBedLine s img a) (asBedLine s img b) g s).1
  | _, _ => none

/-- The row of a source at a grid position, rebuilt. -/
def rebuildSource (img : Image) (g : Int) (s : State) (src : Nat) : Option Row :=
  if src < 128 then (rebuildLine img src g s).map (·.row)
  else
    let ms := (stitchCfg img (src - 128)).members.filterMap (fun n => rebuildLine img n g s)
    (stitchRow img (src - 128) ms s).1

/-- The rows of all sources of a graph at a grid position, or none where one cannot be rebuilt. -/
def rebuildRows (img : Image) (srcs : List Nat) (g : Int) (s : State) : Option (List Row) :=
  let rs := srcs.filterMap (rebuildSource img g s)
  if rs.length = srcs.length then some rs else none

/-! Entering rows -/

/-- The grid of a graph: phase and pitch (R232). -/
def graphGrid (img : Image) (p : Plan) : Int × Nat :=
  if p.role = 2 then Config.targetGrid p.graph
  else match (p.srcs.head?).bind (sourceStream img) with
    | some n => (gridSet img (gridOf img n)).getD (0, 1)
    | none => (0, 1)

/-- What a row set is remembered by: the tag fields of source 0's row and every parameter set (R325, R326). -/
def metaOf (grid : Int × Nat) (generation digest : Nat) (rows : List Row) : RowMeta := match rows with
  | [] => ⟨0, 0, 0xFFFF, 0xFFFF, generation, digest, 0, [], 0, grid.2⟩
  | r :: _ => ⟨r.g, (r.g - grid.1) / (max 1 grid.2 : Int), r.stream, r.head, generation, digest, r.paramSet, rows.flatMap (·.params), r.dc, grid.2⟩

/-- A row set passes through a graph's operators. -/
def passRow (p : Plan) (prime : Nat) (m : RowMeta) (rows : List Row) (st : OpsSt) : OpsSt :=
  opsRun p prime (enterRow p m (rows.map (fun r => (r.px, r.flags))) st)

/-- The priming rows before a position, oldest first: as many as can be rebuilt without a gap (R264, R290). -/
def primeRows (img : Image) (p : Plan) (g : Int) (s : State) : List (List Row) :=
  let pitch : Int := ((graphGrid img p).2 : Int)
  let at' (i : Nat) : Option (List Row) := rebuildRows img p.srcs (g - ((i + 1 : Nat) : Int) * pitch) s
  ((((List.range (primeCount p)).map at').takeWhile (·.isSome)).filterMap id).reverse

/-- The line streams of a source: itself, or a stitch's members. -/
def sourceStreams (img : Image) (src : Nat) : List Nat := if src < 128 then [src] else (stitchCfg img (src - 128)).members

/-- Rows of some sources at a position are rebuilt: the lines read for them are counted, overwritten or through rebuild (R212, R213); after
the first row of a run of rows each row reads one more line of a stream. -/
def noteReads (img : Image) (srcs : List Nat) (g : Int) (first : Bool) (s : State) : State :=
  (srcs.flatMap (sourceStreams img)).foldl (fun t n =>
    let ls := t.ing.lb.lines.reverse.filter (fun l => l.stream == n && l.pos.isSome)
    let a := (ls.filter (fun l => decide (stripPos img l ≤ g))).getLast?
    let b := (ls.filter (fun l => decide (g < stripPos img l))).head?
    ((if first then a.toList else []) ++ b.toList).foldl (fun t l => if overwritten t l then countOverwritten n [l] t else countReads [l] t) t) s

/-! LABEL within a graph -/

/-- The first operator with an op_id. -/
def findOp (c : Cut) (i : Nat) : Option Nat := (List.range c.ops.length).find? (fun k => match c.ops[k]? with | some o => o.id == i | none => false)

/-- The parameters of an operator. -/
def opParams (c : Cut) (k : Nat) : Bytes := match c.ops[k]? with | some o => o.params | none => []

/-- Whether this device labels the regions of a graph: it holds LABEL, or FEATURES of a region stream that crosses (R276). -/
def labels (p : Plan) : Option Nat := match findOp p.cut opLabel with
  | none => none
  | some k =>
    let far := match findOp p.cut opFeatures with | some f => f | none => k
    if p.role = 0 || (p.role = 1 && k < p.split && far < p.split) || (p.role = 2 && (p.split ≤ k || p.split ≤ far)) then some k else none

/-- The port that LABEL's rows come from: its input, or the crossing region stream. -/
def labelInput (p : Plan) (k : Nat) : Ref :=
  if p.role = 2 && k < p.split then .op k 0 else match p.cut.ops[k]? with | some o => o.ins.headD (.src 0) | none => .src 0

/-- The intensity and reference inputs of FEATURES. -/
def featureInputs (p : Plan) : List Ref := match findOp p.cut opFeatures with
  | some f => (match p.cut.ops[f]? with | some o => o.ins.drop 1 | none => [])
  | none => []

/-- The classifier of a graph: op_id and parameters. -/
def classifierOf (c : Cut) : Option (Nat × Bytes) :=
  match c.ops.find? (fun o => o.id == opTree || o.id == opNet) with
  | some o => some (o.id, o.params)
  | none => none

/-- The rules of a graph's LABEL (Table 11.7, R308). -/
def labelRules (s : State) (img : Image) (p : Plan) (k : Nat) : LabRules :=
  let q := opParams p.cut k
  ⟨fld q 2 1, fld q 0 2, (rgnCfg img p.graph).forced, contextRoom s img p.graph⟩

/-- Whether a graph's operators split rows at uncovered ranges (R289). -/
def splitsRows (p : Plan) : Bool :=
  p.cut.ops.any (fun o => [opConv, opBox, opRank, opGradient, opMorph, opTexture].contains o.id && fld o.params 1 1 != 0)

/-- The columns that ROW_EDGE names (Table 12.2), by the ranges of the source that LABEL's rows come from. -/
def edgeColumns (p : Plan) (src : Ref) (fx cols : Nat) : List Nat :=
  [0, cols - 1] ++ (if splitsRows p then (coveredRuns (rangesOf p src)).flatMap (fun r => let d := divRange fx cols r; [d.1, d.2]) else [])

/-- LABEL's next row, when its pixels and FEATURES' inputs are there. -/
def nextLabRow (p : Plan) (k : Nat) (st : OpsSt) : Option (LabRow × VRow) :=
  let n := st.lab.taken
  let src := labelInput p k
  let fi := (featureInputs p).map (fun r => rowNo (portRows st r) n)
  match rowNo (portRows st src) n with
  | none => none
  | some v =>
    if fi.any (·.isNone) then none
    else match metaNo st v.n0, metaNo st v.n1 with
      | some a, some b =>
        let fx := match shapeOf p.cut.ops src with | some sh => sh.fx | none => 1
        some (⟨v.px, (fi[0]?).bind (fun o => o.map (·.px)), (fi[1]?).bind (fun o => o.map (·.px)), v.flags, posOf a v.k0, posOf a v.k1, a.paramSet,
          a.generation, b.generation, b.digest, edgeColumns p src fx v.px.length⟩, v)
      | _, _ => none

/-- Whether LABEL skips a row: it lies wholly in the priming. -/
def primed (r : Run) (v : VRow) : Bool := decide (v.n1 < r.prime)

/-- A closed region as it goes to a pipeline. -/
def closedOf (s : State) (p : Plan) (k : Nat) (e : Region × Nat) : Closed :=
  let img := genImage s e.1.acc.generation
  let q := opParams p.cut k
  let fx := match shapeOf p.cut.ops (labelInput p k) with | some sh => sh.fx | none => 1
  let src := p.srcs.headD 0
  let b := columnBounds img src (e.1.acc.col0 * fx) (min (p.cols - 1) ((e.1.acc.col1 + 1) * fx - 1))
  { graph := p.graph, region := e.1
    rflags := e.2 + 4 * b2n e.1.tail + 32 * b2n e.1.acc.edge + 128 * b2n e.1.acc.gap
    settings := rgnBytes img p.graph, classifier := classifierOf p.cut, minArea := fld q 4 4, core := fld q 2 1 == 2, xMin := b.1, xMax := b.2
    pitch := (graphGrid img p).2, head := (if src < 128 then streamHead img src else 0xFFFF), stream := src, dc := dcNow s
    start := (graphOf s p.graph).start, target := p.role == 2 }

/-- Regions go to the pipelines; a re-run marks them RERUN. -/
def sendClosed (p : Plan) (k : Nat) (rerun : Bool) (cs : List (Region × Nat)) (s : State) : State :=
  setRgn { s.fab.rgn with
    closing := s.fab.rgn.closing ++ cs.map (fun e => closedOf s p k (e.1, e.2 + 256 * b2n rerun)), closures := s.fab.rgn.closures + cs.length } s

/-- Contexts in use. -/
def contextsInUse (s : State) : Nat := sumBy (fun e => (openRegions e.2).length) s.fab.graphs

/-- Set a graph's run. -/
def setRun (g : Nat) (r : Run) (s : State) : State := setGraph g { graphOf s g with run := some r } s

/-- The tile whose partition caches a context: that of the engine whose strip has the column where the context was opened.
(DESIGN CHOICE, log entry 61) -/
def cacheTile (s : State) (e : Nat × Nat) : Nat :=
  let slots := tget [] s.fab.fab.placed e.1
  match (graphOf s e.1).run with
  | none => nthD 0 slots 0 / 16
  | some run =>
    let p := run.plan
    let fx := match (labels p).bind (fun k => shapeOf p.cut.ops (labelInput p k)) with | some sh => sh.fx | none => 1
    let col := match tfind run.ops.lab.regions e.2 with | some x => x.openCol * fx | none => 0
    nthD 0 slots (min (col / max 1 p.strip) (slots.length - 1)) / 16

/-- Contexts enter the cache as the most recently touched: each tile's partition keeps 2,048, the least recently touched leave first
(R307). -/
def touchCache (touched : List (Nat × Nat)) (s : State) : State :=
  let all := touched ++ s.fab.rgn.cache.filter (fun e => !touched.contains e)
  let kept := all.foldl (fun (a : List (Nat × Nat) × Tab Nat) e =>
    let t := cacheTile s e
    if tget 0 a.2 t < 2048 then (e :: a.1, tmod 0 a.2 t (· + 1)) else a) ([], [])
  setRgn { s.fab.rgn with cache := kept.1.reverse } s

/-- LABEL takes one row (R310 to R314). -/
def labelOne (p : Plan) (k : Nat) (rerun : Bool) (r : LabRow) (v : VRow) (run : Run) (s : State) : Run × State :=
  let g := p.graph
  if primed run v then
    ({ run with ops := { run.ops with lab := { run.ops.lab with taken := run.ops.lab.taken + 1, last := some v.n1 } } }, s)
  else
    let img := genImage s r.generation
    let u := labelRules s img p k
    let a := labelRow u r run.ops.lab
    let lab := { a.lab with
      last := some v.n1, unlabelled := if a.dropped = 0 then a.lab.unlabelled
        else ((List.range (v.n1 + 1 - v.n0)).map (· + v.n0) ++ a.lab.unlabelled).take (keepMetas p) }
    let run' := { run with ops := { run.ops with lab := lab } }
    let s1 := bumpBy 10 (g * 16) a.opened (bumpBy 10 (g * 16 + 3) a.merges (bumpBy 10 (g * 16 + 4) a.forcedCount
      (bumpBy 10 (g * 16 + 5) a.splits (setRun g run' s))))
    let s2 := sendClosed p k rerun a.closed s1
    let peak := contextsInUse s2 + a.freeing
    let touched := (a.runs.map (fun q => (g, q.region))).foldl (fun l e => if l.contains e then l else l ++ [e]) []
    let s3 := touchCache touched (setRgn { s2.fab.rgn with
      peak := max s2.fab.rgn.peak peak
      cache := s2.fab.rgn.cache.filter (fun e => e.1 != g || (tfind lab.regions e.2).isSome) } s2)
    if a.dropped = 0 then (run', s3)
    else
      let x := graphOf s3 g
      let s4 := bump 10 (g * 16 + 6) (bumpBy 10 (g * 16 + 7) a.dropped s3)
      (run', if x.suspRaised then s4 else raise 0x0801 2 g 0 0 (setGraph g { x with suspRaised := true } s4))

/-- LABEL takes every row it can. -/
def labelRun (p : Plan) (k : Nat) (rerun : Bool) : Nat → Run → State → Run × State
  | 0, run, s => (run, s)
  | f + 1, run, s => match nextLabRow p k run.ops with
    | none => (run, s)
    | some (r, v) =>
      let a := labelOne p k rerun r v run s
      labelRun p k rerun f a.1 a.2

/-- The contexts that LABEL's next row would have to fetch (R307). (DESIGN CHOICE, log entry 61) -/
def missingContexts (s : State) (p : Plan) (k : Nat) (run : Run) : List (Nat × Nat) := match nextLabRow p k run.ops with
  | none => []
  | some (r, v) =>
    if primed run v then []
    else ((contextsNeeded (labelRules s (genImage s r.generation) p k) r.px run.ops.lab).map (fun i => (p.graph, i))).filter
      (fun e => !s.fab.rgn.cache.contains e)

/-! Outputs -/

/-- TV_SEL at a device-counter value, whole ns. -/
def tvAt (s : State) (dc : Nat) : Nat := (tvSelAt s dc / 2 ^ 32).toNat

/-- The container of a format in bits: whole bytes (R346). -/
def containerOf (f : Nat) : Nat := 8 * ceilDiv (fmtW f) 8

/-- The bytes of values in their native container (R346). -/
def packValues (f : Nat) (l : List Int) : Bytes := l.flatMap (leInt (containerOf f / 8))

/-- The format of a reference. -/
def refFmt (c : Cut) (r : Ref) : Nat := match shapeOf c.ops r with | some s => s.fmt | none => fmtU16

/-- The parameter sets of every source row that contributes to a row (R326). -/
def paramsOver (st : OpsSt) (n0 n1 : Nat) : List (List Nat) :=
  (List.range (n1 + 1 - n0)).filterMap (fun i => (metaNo st (n0 + i)).map (·.params))

/-- The unit of an output row (R270, R325, Table 12.7); `at'`: the tick at which it was computed. -/
def rowUnit (s : State) (p : Plan) (st : OpsSt) (o : CutOut) (v : VRow) (at' flags : Nat) (again : Bool) : DUnit :=
  let a := (metaNo st v.n0).getD (metaOf (0, 1) 0 0 [])
  let span := rowSpan st v
  let dc := if o.kind = 1 then at' else a.dc
  let f := refFmt p.cut o.ref
  { src := ⟨if o.kind = 1 then 4 else 1, p.graph, o.num, 0⟩, tagType := if o.kind = 1 then 4 else 1, flags := flags, head := a.head
    stream := a.stream, generation := a.generation, startPos := span.1, endPos := span.2, deviceCount := dc, tvSelNs := tvAt s dc
    tvEpoch := tvEpochAt s dc, paramSet := a.paramSet, shortDigest := a.digest, deviceId := tagDevice s, trellisId := tagTrellis s
    params := paramsOver st v.n0 v.n1, again := again, payload := [.pix (fmtW f) (containerOf f) (fmtSigned f) v.px] }

/-- The 64-byte tag of a unit with its payload length (Table 12.5). -/
def tagBytes (u : DUnit) (len : Nat) : Bytes :=
  let b := leBytes 2 u.tagType ++ leBytes 1 1 ++ leBytes 1 u.flags ++ leBytes 2 u.deviceId ++ leBytes 2 u.trellisId ++ leBytes 2 u.head
    ++ leBytes 2 u.stream ++ leBytes 4 u.generation ++ leInt 8 u.startPos ++ leInt 8 u.endPos ++ leBytes 8 u.deviceCount
    ++ leBytes 8 u.tvSelNs ++ leBytes 2 u.tvEpoch ++ leBytes 2 u.paramSet ++ leBytes 4 u.shortDigest ++ leBytes 4 len
  b ++ leBytes 4 (crc32c b)

/-- A unit's payload in its native containers. -/
def nativeBytes : Chunk → Bytes
  | .raw b => b
  | .pix _ c _ vals => packBits c (vals.map (patternOf c))
  | .lineLen _ _ n => leBytes 4 n

/-- A unit's payload bytes. -/
def unitBytes (u : DUnit) : Bytes := u.payload.flatMap nativeBytes

/-- Queue a unit for the peer of a deepened graph: flit type, kind and index (Table 14.6). -/
def toPeer (g kind sub index : Nat) (pos : Int) (b : Bytes) (s : State) : State :=
  let x := graphOf s g
  setGraph g { x with outbound := x.outbound ++ [(kind, sub, index, pos, b)] } s

/-- Hand over an output: to delivery, or on TARGET to ORIGIN (R277). -/
def handOutput (p : Plan) (o : CutOut) (u : DUnit) (s : State) : State :=
  if p.role = 2 then
    let b := unitBytes u
    bump 9 (p.graph * 16 + 7) (toPeer p.graph 4 1 o.num u.startPos (tagBytes u b.length ++ b) s)
  else handUnit u s

/-- The values of a row as a faulty engine delivered them. -/
def upsetRow (ups : List Upset) (out : Nat) (v : VRow) : VRow :=
  { v with px := ups.foldl (fun l u => if u.out = out then setNth l u.column u.value else l) v.px }

/-- Note what was delivered of an output: the CRCs of its last 128 rows are kept (R270). -/
def noteSent (out : Nat) (pos : Int) (crc : Nat) (l : List (Nat × Int × Nat)) : List (Nat × Int × Nat) :=
  let all := (out, pos, crc) :: l.filter (fun e => !(e.1 == out && e.2.1 == pos))
  let mine := (all.filter (fun e => e.1 == out)).take 128
  all.filter (fun e => e.1 != out || mine.contains e)

/-- Whether a row lies before the last 128 of an output: its CRC is no longer kept, and a re-run does not deliver it again. -/
def beyondSent (out : Nat) (pos : Int) (l : List (Nat × Int × Nat)) : Bool :=
  let mine := l.filter (fun e => e.1 == out)
  decide (128 ≤ mine.length) && mine.all (fun e => decide (pos < e.2.1))

/-- Deliver one waiting output row: in a first run always, in a re-run only where it differs from what was delivered (R270). -/
def deliverRow (p : Plan) (rerun : Bool) (ups : List Upset) (w : Waiting) (a : Run × State) : Run × State :=
  let run := a.1
  match p.cut.outs[w.out]? with
  | none => a
  | some o =>
    if w.row.n1 < run.prime then a
    else
      let st := run.ops
      let v := upsetRow ups w.out w.row
      let susp := st.lab.unlabelled.any (fun n => decide (v.n0 ≤ n) && decide (n ≤ v.n1))
      let start := (rowSpan st v).1
      let old := run.sent.find? (fun e => e.1 == w.out && e.2.1 == start)
      let again := rerun && old.isSome
      let flags := v.flags ||| (if susp then 8 else 0) ||| (if again then 8 else 0)
      let u := rowUnit a.2 p st o v w.dc flags again
      let crc := crc32c (unitBytes u)
      let same := match old with | some e => e.2.2 == crc | none => false
      if (again && same) || (rerun && beyondSent w.out start run.sent) then a
      else
        let run' := { run with sent := noteSent w.out u.startPos crc run.sent }
        let s1 := handOutput p o u a.2
        (run', if again then bump 9 (p.graph * 16 + 3) s1 else s1)

/-- The new rows of the graph's output ports since some counts. -/
def newOutputs (p : Plan) (now : Nat) (before after : OpsSt) : List Waiting :=
  (List.range p.cut.outs.length).flatMap (fun i => match p.cut.outs[i]? with
    | none => []
    | some o =>
      let part := partOf p.cut p.role p.split
      let mine := match o.ref with | .src _ => p.role != 2 | .op k _ => decide (part.1 ≤ k) && decide (k < part.2)
      if o.kind = 2 || !mine then []
      else
        let c0 := (portRows before o.ref).count
        let q := portRows after o.ref
        ((List.range (q.count - c0)).filterMap (fun j => rowNo q (c0 + j))).map (fun v => ⟨i, v, now⟩))

/-- The port whose rows go over for a crossing value: LABEL's stream goes as the row it reads. -/
def crossingRow (p : Plan) (r : Ref) : Ref := match r with
  | .op k _ => if (match p.cut.ops[k]? with | some o => o.id == opLabel | none => false) then labelInput p k else r
  | .src _ => r

/-- The index of a crossing value in a flit (Table 14.6). -/
def crossingIndex : Ref → Nat
  | .src k => 128 + k
  | .op k _ => k

/-- Insert a row by its last source row, after those of the same. -/
def insertCross (x : Ref × VRow) : List (Ref × VRow) → List (Ref × VRow)
  | [] => [x]
  | h :: t => if x.2.n1 < h.2.n1 then x :: h :: t else h :: insertCross x t

/-- The rows of crossing values made since some counts, which ORIGIN forwards in ascending position (R277, R374); none of rows below
`low`. -/
def forward (p : Plan) (rerun : Bool) (low : Nat) (before after : OpsSt) (s : State) : State :=
  if p.role != 1 then s
  else
    let fresh := (crossing p.cut p.split).flatMap (fun r =>
      let c0 := (portRows before (crossingRow p r)).count
      let q := portRows after (crossingRow p r)
      (((List.range (q.count - c0)).filterMap (fun j => rowNo q (c0 + j))).filter (fun v => decide (low ≤ v.n0))).map (fun v => (r, v)))
    (fresh.foldl (fun l x => insertCross x l) []).foldl (fun t x =>
      let port := crossingRow p x.1
      let u := rowUnit t p after ⟨port, 0, 0⟩ x.2 (dcNow t) (x.2.flags ||| (if rerun then 8 else 0)) false
      let b := packValues (refFmt p.cut port) x.2.px
      toPeer p.graph 3 0 (crossingIndex x.1) u.startPos (tagBytes u b.length ++ b) t) s

/-- A graph's operators have taken a row: LABEL, outputs and crossing values follow. -/
def afterRow (p : Plan) (rerun : Bool) (ups : List Upset) (before : OpsSt) (run : Run) (s : State) : State :=
  let fresh := newOutputs p (dcNow s) before run.ops
  let s0 := forward p rerun 0 before run.ops s
  let a := match labels p with
    | some k => labelRun p k rerun 64 run s0
    | none => (run, s0)
  let all := a.1.waiting ++ fresh
  let go (w : Waiting) : Bool := (labels p).isNone || (match a.1.ops.lab.last with | some n => decide (w.row.n1 ≤ n) | none => false)
  let d := (all.filter go).foldl (fun x w => deliverRow p rerun ups w x) (a.1, a.2)
  setRun p.graph { d.1 with waiting := all.filter (fun w => !go w) } d.2

/-! Starting and stopping -/

/-- A graph stops: a commit closes its open regions (R312), and nothing of it goes on. -/
def stopRun (g : Nat) (s : State) : State := match (graphOf s g).run with
  | none => setGraph g { graphOf s g with ending := false } s
  | some run =>
    let s1 := match labels run.plan with
      | some k => sendClosed run.plan k false (closeAll 8 run.ops.lab).1 s
      | none => s
    setGraph g { graphOf s1 g with run := none, ending := false, flush := false, held := false } s1

/-- Whether a graph's next row needs it to start anew under a plan. -/
def startsAnew (x : GraphSt) (p : Plan) : Bool := match x.run with
  | none => true
  | some r => x.anew || !samePlan r.plan p

/-- The rows of a plan's sources among those of one position, in source order; none while one is missing (R260). -/
def sourceRows (p : Plan) (r : InRow) : Option (List Row) :=
  let rows := p.srcs.filterMap (fun n => r.rows.find? (fun q => q.stream == n))
  if rows.length = p.srcs.length then some rows else none

/-- RGN.FLUSH closes every open region at a row boundary (R312). -/
def flushRun (g : Nat) (run : Run) (s : State) : Run × State :=
  if !(graphOf s g).flush then (run, s)
  else match labels run.plan with
    | none => (run, s)
    | some k =>
      let c := closeAll 16 run.ops.lab
      let run' := { run with ops := { run.ops with lab := c.2 } }
      (run', setGraph g { graphOf s g with flush := false, run := some run' } (sendClosed run.plan k false c.1 s))

/-- How many states before a row a graph keeps: what a re-run may go back to (R269, R291). -/
def keepSnaps (p : Plan) : Nat := 128 + p.hist

/-- A graph takes one row set on a run. -/
def takeRow (p : Plan) (ups : List Upset) (m : RowMeta) (rows : List Row) (run : Run) (s : State) : State :=
  let g := p.graph
  let again := match (graphOf s g).rerunTo with
    | some q => decide (m.g ≤ q)
    | none => false
  let f := flushRun g run s
  let before := f.1.ops
  let ops := passRow p f.1.prime m rows before
  let run' := { f.1 with
    ops := ops, lastG := some m.g, snaps := ((m.g, before) :: f.1.snaps).take (keepSnaps p) }
  let miss := match labels p with | some k => missingContexts f.2 p k run' | none => []
  if !miss.isEmpty then
    let x := graphOf s g
    bumpBy 10 1024 miss.length (bump 10 1025 (setGraph g { x with held := true } s))
  else
    let x := graphOf f.2 g
    let s1 := setGraph g { x with
      inq := x.inq.drop 1, busy := x.busy + p.cycles, run := some run'
      unreturned := if p.role = 1 then lastN 4096 (x.unreturned ++ [m.g]) else x.unreturned } f.2
    afterRow p again ups before run' (bump 9 (g * 16) (if p.role = 0 then s1 else bump 9 (g * 16 + 6) s1))

/-- What the statistics outputs of a graph give for a closed period (R299, Table 12.7): the output's place in the cut list, its record and
its unit. -/
def statUnits (run : Run) (h : SnapHdr) (part : Bool) (s : State) : List (Nat × CutOut × DUnit) :=
  let p := run.plan
  let m := (run.ops.metas.head?).getD (metaOf (0, 1) h.generation h.shortDigest [])
  let mine := partOf p.cut p.role p.split
  let unitOf (i : Nat) (o : CutOut) (op : Oper) : DUnit :=
    let sh := inShape p.cut op
    let payload : List Chunk := match tfind run.ops.carry i with
      | some (.bins b) => [.raw (b.flatMap (leBytes 8))]
      | some (.sums v k) => [.pix (fmtW op.fmt) (containerOf op.fmt) (fmtSigned op.fmt) (v.map (fun x => saturate op.fmt (divHalfUp x k)))]
      | _ => if op.id = opHistogram then [.raw (zeros 2048)]
        else [.pix (fmtW op.fmt) (containerOf op.fmt) (fmtSigned op.fmt) (List.replicate (portCols p.cols sh) 0)]
    let src := p.srcs.headD 0xFFFF
    { src := ⟨5, p.graph, o.num, 0⟩, tagType := 5, flags := 16 * b2n part
      head := if p.role = 2 then m.head else if src < 128 then streamHead (genImage s h.generation) src else 0xFFFF
      stream := if p.role = 2 then m.stream else src, generation := h.generation, startPos := h.startPos, endPos := h.endPos, deviceCount := h.endDc
      tvSelNs := tvAt s h.endDc, tvEpoch := tvEpochAt s h.endDc, paramSet := 0, shortDigest := h.shortDigest
      deviceId := tagDevice s, trellisId := tagTrellis s, payload := payload }
  (List.range p.cut.outs.length).filterMap (fun j => match p.cut.outs[j]? with
    | none => none
    | some o => match o.ref with
      | .src _ => none
      | .op i _ =>
        if o.kind != 2 || i < mine.1 || mine.2 ≤ i then none
        else (p.cut.ops[i]?).map (fun op => (j, o, unitOf i o op)))

/-- Deliver one statistics unit: after a re-run only where it differs from what was delivered, with degraded set (R270). -/
def deliverStat (p : Plan) (again : Bool) (a : Run × State) (e : Nat × CutOut × DUnit) : Run × State :=
  let u := if again then { e.2.2 with flags := e.2.2.flags ||| 8, again := true } else e.2.2
  let crc := crc32c (unitBytes u)
  let same := a.1.sent.any (fun x => x.1 == e.1 && x.2.1 == u.startPos && x.2.2 == crc)
  if again && (same || beyondSent e.1 u.startPos a.1.sent) then a
  else
    let s1 := handOutput p e.2.1 u a.2
    ({ a.1 with sent := noteSent e.1 u.startPos crc a.1.sent }, if again then bump 9 (p.graph * 16 + 3) s1 else s1)

/-- Close a period of a graph: its statistics are delivered, and the next begin (R299). -/
def closeStats (again : Bool) (h : SnapHdr) (part : Bool) (a : Run × State) : Run × State :=
  let d := (statUnits a.1 h part a.2).foldl (deliverStat a.1.plan again) a
  let carry := d.1.ops.carry.filter (fun e => match e.2 with | .bins _ => false | .sums _ _ => false | _ => true)
  ({ d.1 with ops := { d.1.ops with carry := carry, closedN := d.1.ops.closedN + 1 } }, d.2)

/-- In a re-run, close again the periods whose boundary lies at or before a row that follows; with none, every period closed before. -/
def closeAgain (upTo : Option Int) : Nat → Run × State → Run × State
  | 0, a => a
  | k + 1, a =>
    if a.1.closedN ≤ a.1.ops.closedN then a
    else match a.1.closed[a.1.closedN - 1 - a.1.ops.closedN]? with
      | none => closeAgain upTo k ({ a.1 with ops := { a.1.ops with closedN := a.1.ops.closedN + 1 } }, a.2)
      | some b =>
        if (match upTo with | some pos => decide (pos < b.1) | none => false) then a
        else closeAgain upTo k (closeStats true b.2.1 b.2.2 a)

/-- The priming rows pass through a graph that starts (R264): ORIGIN forwards those that TARGET primes with. -/
def primeRun (img : Image) (p : Plan) (r : InRow) (rows : List (List Row)) (s : State) : OpsSt × State :=
  rows.foldl (fun (a : OpsSt × State) q =>
    let st := passRow p rows.length (metaOf (graphGrid img p) r.generation r.digest q) q a.1
    let t := forward p false (rows.length - farHistory p) a.1 st a.2
    (st, if p.role = 1 && decide (rows.length - farHistory p < st.count) then bump 9 (p.graph * 16 + 6) t else t)) ({}, s)

/-- A graph starts at a row, on TARGET at the commit that its first row belongs to: place and engines follow its plan, and it is primed
(R264, R291). -/
def startGraph (img : Image) (p : Plan) (r : InRow) (s : State) : State :=
  -- of the slots that the graph keeps
  let left (run : Run) : Tab Nat := ((tget [] s.fab.fab.placed p.graph).filter run.slots.contains).foldl (fun t k =>
    tset 0 t k (match tfind run.passed k with
      | some q => (run.snaps.filter (fun e => decide (q < e.1))).length
      | none => run.snaps.length)) []
  let old : Tab Nat := match (graphOf s p.graph).run with
    | some run => left run
    | none => []
  let s1 := stopRun p.graph s
  let rows := if p.role = 2 then [] else primeRows img p r.g s1
  let a := primeRun img p r rows s1
  let x := graphOf a.2 p.graph
  let late (k : Nat) : Bool := s1.fab.rgn.closing.any (fun c => c.graph == p.graph && c.start == k)
  let pitch : Int := ((graphGrid img p).2 : Int)
  let tried := min (primeCount p) (rows.length + 1)
  let run : Run :=
    { plan := p, ops := { a.1 with lab := {} }, prime := rows.length, startG := r.g, lastG := none, waiting := [], snaps := [], passed := []
      unchecked := old, sent := [], records := [], startedPeriod := true, slots := tget [] s1.fab.fab.placed p.graph, closed := [], closedN := 0 }
  let read (t : State) : State := if p.role = 2 then t else (List.range tried).foldl (fun u i =>
    noteReads img p.srcs (r.g - ((i + 1 : Nat) : Int) * pitch) (i + 1 == tried) u) t
  bumpBy 9 (p.graph * 16 + 5) rows.length (read <| setGraph p.graph { x with
    busy := x.busy + rows.length * p.cycles
    run := some run, start := x.start + 1, seq := 0, anew := false, rerunTo := none
    past := (tset 0 x.past x.start x.seq).filter (fun e => late e.1) } a.2)

/-- Deliver a graph's statistics for a period that closes at a position, and begin the next (R299). -/
def graphStats (g : Nat) (pos : Int) (h : SnapHdr) (partialPeriod : Bool) (s : State) : State := match (graphOf s g).run with
  | none => s
  | some run =>
    let part := partialPeriod || run.startedPeriod
    let a := closeStats false h part (run, s)
    setGraph g { graphOf a.2 g with run := some { a.1 with
      startedPeriod := false, closed := ((pos, h, part) :: run.closed).take 256, closedN := run.closedN + 1 } } a.2

/-- Period boundaries whose rows have all been taken: their statistics are delivered. -/
def settleBounds (g : Nat) : Nat → State → State
  | 0, s => s
  | k + 1, s =>
    let x := graphOf s g
    match x.bounds with
    | [] => s
    | b :: t =>
      if x.inq.any (fun r => decide (r.g < b.1)) || x.fwd.any (fun u => decide (u.meta0.g < b.1)) then s
      else settleBounds g k (graphStats g b.1 b.2.1 b.2.2 (setGraph g { x with bounds := t } s))

/-- A graph whose binding has ended stops once its last rows have been taken. -/
def settleEnd (g : Nat) (s : State) : State :=
  let x := graphOf s g
  if x.ending && x.inq.isEmpty && x.fwd.isEmpty then stopRun g s else s

/-- A graph takes the next grid position, when every source's row of it has been released (R260). -/
def graphTake (g : Nat) (ups : List Upset) (s : State) : State :=
  let x := graphOf s g
  match x.inq with
  | [] => s
  | r :: rest =>
    if x.rerun.isSome || x.held then s
    else
      let img := genImage s r.generation
      match planOf img g with
      | .ok (some p) => match sourceRows p r with
        | none => s
        | some rows =>
          if x.stopped then bump 9 (g * 16 + 8) (setGraph g { x with inq := rest } s)
          else
            let s1 := if startsAnew x p then startGraph img p r s else s
            match (graphOf s1 g).run with
            | none => s1
            | some run => takeRow p ups (metaOf (graphGrid img p) r.generation r.digest rows) rows run s1
      | _ => setGraph g { graphOf (stopRun g s) g with inq := rest } (stopRun g s)

/-! TARGET (R264, R276, R277, R374, R375): crossing values take the place of source rows -/

/-- The configuration that TARGET computes a position under, and its generation: deepened graphs change only at the P_c of a trellis
commit. -/
def targetPlace (s : State) (pos : Int) : Image × Nat := match s.cfg.commit with
  | some c => if (match c.pc with | some pc => decide (pc ≤ pos) | none => false) then (nextImage s, c.newGen) else (s.cfg.active, s.cfg.generation)
  | none => if s.trel.phase = 3 && decide (pos < s.trel.commitPc) then (s.cfg.previous, s.cfg.generation - 1) else (s.cfg.active, s.cfg.generation)

/-- Whether ORIGIN made a crossing value under another generation than the last one taken. -/
def fwdFresh (x : GraphSt) (generation : Nat) : Bool := match x.originGen with
  | some n => n != generation
  | none => true

/-- The configuration of a crossing value that ORIGIN made under a generation: one before P_c that comes with a new generation is a
priming row of the graph that starts at P_c (R264). (DESIGN CHOICE, log entry 64) -/
def fwdPlace (s : State) (g generation : Nat) (pos : Int) : Image × Nat :=
  let at' := targetPlace s pos
  let primes := match (graphOf s g).run with
    | some r => decide (pos < r.startG)
    | none => false
  if primes then (s.cfg.active, s.cfg.generation)
  else if !fwdFresh (graphOf s g) generation then at'
  else match s.cfg.commit with
    | some c => match c.pc with
      | some _ => if (bindCfg (nextImage s) g).role == 2 && ((graphOf s g).originGen.isSome || (bindCfg s.cfg.active g).role != 2) then (nextImage s, c.newGen) else at'
      | none => at'
    | none => (s.cfg.active, s.cfg.generation)

/-- Whether a crossing value waits for the commit that it belongs to. -/
def fwdWaits (s : State) (g : Nat) (u : Fwd) : Bool := match s.cfg.commit with
  | some c => !c.applying && (fwdPlace s g u.meta0.generation u.endG).2 == c.newGen
  | none => false

/-- The position at which a graph of TARGET starts with a crossing value: P_c where the value is a priming row, else the value's own. -/
def fwdStart (s : State) (u : Fwd) : Int :=
  let pc := match s.cfg.commit with
    | some c => c.pc
    | none => if s.trel.phase = 3 then some s.trel.commitPc else none
  match pc with
  | some q => if u.endG < q then q else u.endG
  | none => u.endG

/-- A crossing value as TARGET computes with it: under its own generation, on its own grid. -/
def targetFwd (s : State) (g : Nat) (u : Fwd) : Fwd :=
  let grid := Config.targetGrid g
  { u with meta0 := { u.meta0 with
      generation := (fwdPlace s g u.meta0.generation u.endG).2, k := (u.meta0.g - grid.1) / (max 1 grid.2 : Int), pitch := grid.2 } }

/-- The last position of the last row of a port. -/
def portEnd (st : OpsSt) (r : Ref) : Option Int := match (portRows st r).rows with
  | v :: _ => some (rowSpan st v).2
  | [] => none

/-- Make a position known to TARGET's rows. -/
def knowRow (p : Plan) (m : RowMeta) (st : OpsSt) : OpsSt := match st.metas with
  | q :: _ => if m.g ≤ q.g then st else { st with count := st.count + 1, metas := (m :: st.metas).take (keepMetas p) }
  | [] => { st with count := 1, metas := [m] }

/-- The number of the last row known at or before a position. -/
def rowAt (st : OpsSt) (pos : Int) : Nat := st.count - 1 - (st.metas.takeWhile (fun m => decide (pos < m.g))).length

/-- A crossing value enters its port. -/
def addFwd (p : Plan) (st : OpsSt) (e : Ref × Fwd) : OpsSt :=
  let u := e.2
  let k1 := u.meta0.k + (u.endG - u.meta0.g) / ((max 1 u.meta0.pitch : Nat) : Int)
  let st1 := knowRow p { u.meta0 with g := u.endG, k := k1 } (knowRow p u.meta0 st)
  addRow (keepRows p) (portKey e.1) ⟨u.px, u.flags, rowAt st1 u.meta0.g, rowAt st1 u.endG, u.meta0.k, k1⟩ st1

/-- All crossing values of a row enter, and the operators of TARGET's part take what they can (R374). -/
def enterFwd (p : Plan) (prime : Nat) (us : List (Ref × Fwd)) (st : OpsSt) : OpsSt := opsRun p prime (us.foldl (addFwd p) st)

/-- The queued values of a crossing reference, oldest first: of an operator with several ports, the values of one position are in the
order of the ports. -/
def queuedFor (p : Plan) (r : Ref) (l : List Fwd) : List Fwd :=
  let i := crossingIndex r
  let k := (((crossing p.cut p.split).takeWhile (· != r)).filter (fun q => crossingIndex q == i)).length
  let mine := l.filter (fun u => u.index == i)
  (List.range mine.length).filterMap (fun j => match mine[j]? with
    | some u => if ((mine.take j).filter (fun w => w.meta0.g == u.meta0.g)).length == k then some u else none
    | none => none)

/-- The next row of TARGET: the crossing values of the lowest last position that are queued. -/
def nextGroup (p : Plan) (l : List Fwd) : Option (Int × List (Ref × Fwd)) := match l with
  | [] => none
  | u :: t =>
    let e := t.foldl (fun m w => min m w.endG) u.endG
    some (e, (crossing p.cut p.split).filterMap (fun r => ((queuedFor p r l).find? (fun w => w.endG == e)).map (fun w => (r, w))))

/-- Whether every crossing value of a row has arrived (R374): each is queued, or known to come at no position up to the row's. -/
def groupReady (p : Plan) (l : List Fwd) (e : Int) (st : OpsSt) : Bool :=
  (crossing p.cut p.split).all (fun r => (queuedFor p r l).any (fun w => decide (e ≤ w.endG))
    || (match portEnd st r with | some q => decide (e ≤ q) | none => false))

/-- The queued values that come before the first one of another start of the graph. -/
def sameStart (s : State) (g : Nat) (p : Plan) (u : Fwd) (l : List Fwd) : List Fwd :=
  l.takeWhile (fun w => w.meta0.generation == u.meta0.generation || (match planOf (fwdPlace s g w.meta0.generation w.endG).1 g with
    | .ok (some q) => samePlan p q
    | _ => false))

/-- TARGET goes back to where a row of the re-run first came (R277): rows from there to the newest are re-run.
(DESIGN CHOICE, log entry 64) -/
def rollBack (us : List (Ref × Fwd)) (pos : Int) (run : Run) : Option Run :=
  let lacks (st : OpsSt) : Bool := us.all (fun e => match portEnd st e.1 with | some q => decide (q < pos) | none => true)
  let here (e : Int × OpsSt) : Bool := e.1 == pos && lacks e.2
  match run.snaps.find? here with
  | none => none
  | some (_, st) => some { run with
      ops := st, snaps := (run.snaps.dropWhile (fun e => !here e)).drop 1, waiting := run.waiting.filter (fun w => decide (w.row.n1 < st.count)) }

/-- Whether a closed region lies in a re-run from a state: it will close again. -/
def comesAgain (g : Nat) (before : OpsSt) (c : Closed) : Bool := c.graph == g
  && (if c.region.split != 0 then decide (before.lab.splits < c.region.split)
    else (tfind before.lab.regions c.region.id).isSome || decide (before.lab.nextId ≤ c.region.id))

/-- Values leave TARGET's queue. -/
def takeFrom (us : List (Ref × Fwd)) (l : List Fwd) : List Fwd := us.foldl (fun l e => l.erase e.2) l

/-- A run of TARGET after the values of a row have entered: rows before its start are priming rows (R264). -/
def runWith (s : State) (e : Int) (us : List (Ref × Fwd)) (run : Run) : Run :=
  let vals := us.map (fun u => (u.1, targetFwd s run.plan.graph u.2))
  let known := (vals.foldl (addFwd run.plan) run.ops).count
  let prime := if e < run.startG then known else run.prime
  { run with ops := enterFwd run.plan prime vals run.ops, prime := prime, lastG := some (max e (run.lastG.getD e))
             snaps := ((e, run.ops) :: run.snaps).take (keepSnaps run.plan) }

/-- TARGET takes the crossing values of one row on a run. (DESIGN CHOICE, log entry 64) -/
def takeGroup (ups : List Upset) (e : Int) (us : List (Ref × Fwd)) (run : Run) (s : State) : State :=
  let p := run.plan
  let g := p.graph
  let again := match (graphOf s g).rerunTo with
    | some q => decide (e ≤ q)
    | none => false
  let f := closeAgain (some e) 256 (flushRun g run s)
  let run' := runWith s e us f.1
  let miss := match labels p with | some k => missingContexts f.2 p k run' | none => []
  if !miss.isEmpty then bumpBy 10 1024 miss.length (bump 10 1025 (setGraph g { graphOf s g with held := true } s))
  else
    let x := graphOf f.2 g
    let fresh := f.1.ops.count < run'.ops.count
    let s1 := setGraph g { x with
      fwd := takeFrom us x.fwd, busy := if fresh then x.busy + p.cycles else x.busy, run := some run'
      originGen := match us with | u :: _ => some u.2.meta0.generation | [] => x.originGen } f.2
    let k := if e < run.startG then 5 else if again then 1 else 0
    afterRow p again ups f.1.ops run' (if fresh then bump 9 (g * 16 + 6) (bump 9 (g * 16 + k) s1) else s1)

/-- TARGET takes the row of a group on the run it belongs to, a re-run's from where its values first came; values of a position that it
has processed are discarded (R375), unless their degraded flag tells that they are a re-run's. (DESIGN CHOICE, log entry 64) -/
def groupTake (ups : List Upset) (queue : List Fwd) (e : Int) (us : List (Ref × Fwd)) (run : Run) (s : State) : State :=
  let p := run.plan
  let g := p.graph
  let old := us.filter (fun u => match portEnd run.ops u.1 with | some q => decide (e ≤ q) | none => false)
  let dropped := setGraph g { graphOf s g with fwd := takeFrom old (graphOf s g).fwd } s
  if old.isEmpty then (if groupReady p queue e run.ops then takeGroup ups e us run s else s)
  else if old.any (fun u => !bitOf u.2.flags 3) then dropped
  else match rollBack us e run with
    | none => dropped
    | some run0 =>
      if !groupReady p queue e run0.ops then s
      else
        let s1 := setRgn { s.fab.rgn with closing := s.fab.rgn.closing.filter (fun c => !comesAgain g run0.ops c) } s
        takeGroup ups e us run0 (bump 9 (g * 16 + 2) (setGraph g { graphOf s1 g with run := some run0, rerunTo := run.lastG } s1))

/-- TARGET takes the next row of crossing values when it is whole (R374); none while a re-run of the graph is due, and none beyond the row
that it waits for after it asked for one. -/
def targetTake (g : Nat) (ups : List Upset) (s : State) : State :=
  let x := graphOf s g
  match x.fwd with
  | [] => s
  | u :: rest =>
    let dropped := setGraph g { x with fwd := rest } s
    let img := (fwdPlace s g u.meta0.generation u.endG).1
    if x.held || x.rerun.isSome || fwdWaits s g u then s
    else match planOf img g with
      | .ok (some p) =>
        if p.role ≠ 2 then dropped
        else if !(crossing p.cut p.split).any (fun r => crossingIndex r == u.index) then bump 12 7 dropped
        else
          let queue := sameStart s g p u x.fwd
          match nextGroup p queue with
          | none => dropped
          | some (e, us) =>
            let without := setGraph g { x with fwd := takeFrom us x.fwd } s
            if us.isEmpty || (match x.await with | some a => decide (a < e) | none => false) then (if us.isEmpty then dropped else without)
            else if x.stopped then bump 9 (g * 16 + 8) without
            else if startsAnew x p then
              (if groupReady p queue e {} then
                let s1 := startGraph img p ⟨fwdStart s u, u.meta0.generation, u.meta0.digest, []⟩ s
                match (graphOf s1 g).run with
                | some run => takeGroup ups e us run (setGraph g { graphOf s1 g with await := none } s1)
                | none => without
              else if queue.length < x.fwd.length then without else s)
            else match x.run with
              | none => without
              | some run =>
                let s1 := setGraph g { x with await := none } s
                let t := groupTake ups queue e us run s1
                if queue.length < x.fwd.length && decide ((graphOf t g).fwd.length = x.fwd.length) && !(graphOf t g).held then without else t
      | _ => dropped

/-- The work of GRAPH_ROW. -/
def graphRow (g : Nat) (ups : List Upset) (s : State) : State :=
  settleEnd g (settleBounds g 64 (if (graphOf s g).fwd.isEmpty then graphTake g ups s else targetTake g ups s))

/-! Rows from the beds -/

/-- Add rows of one position to what waits for a graph, in ascending position. -/
def insertIn (g : Int) (generation digest : Nat) (rows : List Row) : List InRow → List InRow
  | [] => [⟨g, generation, digest, rows⟩]
  | r :: t =>
    if g < r.g then ⟨g, generation, digest, rows⟩ :: r :: t
    else if g = r.g then { r with rows := r.rows ++ rows } :: t
    else r :: insertIn g generation digest rows t

/-- Rows go to the graphs that are bound to them. -/
def giveRows (img : Image) (generation digest : Nat) (rows : List Row) (s : State) : State := match rows with
  | [] => s
  | first :: _ => (List.range 64).foldl (fun t g =>
      let b := bindCfg img g
      let mine := if b.enable && b.role != 2 then rows.filter (fun r => b.srcs.contains r.stream) else []
      if mine.isEmpty then t
      else
        let x := graphOf t g
        setGraph g { x with inq := insertIn first.g generation digest mine x.inq } t) s

/-- Whether the graphs bound to some streams take rows: none is in a re-run, and none has its row rings full (R219, R263, R269). -/
def graphsAccept (s : State) (img : Image) (streams : List Nat) : Bool :=
  (List.range 64).all (fun g =>
    let b := bindCfg img g
    let x := graphOf s g
    !(b.enable && b.srcs.any (fun n => streams.contains n)) || (x.rerun.isNone && decide (x.inq.length < 18)))

/-! What a commit and a period boundary do -/

/-- A commit re-places the graphs (R263, R271): a graph that no configuration binds any more ends. -/
def graphCommit (_old new : Image) (s : State) : State :=
  let s1 := { s with fab := { s.fab with fab := { s.fab.fab with placed := s.fab.fab.planned, planned := [] } } }
  (List.range 64).foldl (fun t g =>
    let x := graphOf t g
    if (bindCfg new g).enable then
      (if x.suspended then setGraph g { x with suspended := false, anew := true } t else t)
    else if x.run.isSome then settleEnd g (setGraph g { x with ending := true, suspended := false, split := false } t)
    else if x.stopped then setGraph g { x with suspended := false, split := false } t else t) s1

/-- The ticks that a span of time has within the last `w` ticks. (DEDUCED, log entry 63) -/
def spanWithin (s : State) (w a b : Nat) : Nat := min (since s a) w - min (since s b) w

/-- The ticks of the last `w` that were spent in sprint. -/
def sprintTicks (s : State) (w : Nat) : Nat :=
  let x := s.fab.sprint
  sumBy (fun e => spanWithin s w e.1 e.2) x.past + (if x.on then min (since s x.since) w else 0)

/-- A period boundary: statistics, record limits and measured loads begin anew. -/
def graphPeriod (pos : Int) (h : SnapHdr) (partialPeriod : Bool) (ticks : Nat) (s : State) : State :=
  (s.fab.graphs.map (·.1)).foldl (fun t g =>
    let x := graphOf t g
    settleBounds g 64 (setGraph g { x with
      bounds := x.bounds ++ [(pos, h, partialPeriod)], records := 0, suspRaised := false, limitRaised := false, busy := 0
      lastBusy := if ticks = 0 then 0 else min 1000 (x.busy * 1500 / (3 * ticks + sprintTicks t ticks)) } t)) s

/-- A period boundary in the region unit. -/
def rgnPeriod (ticks : Nat) (s : State) : State :=
  let r := s.fab.rgn
  let per (n : Nat) : Nat := if ticks = 0 then 0 else n * 625000000 / ticks
  setRgn { r with
    lastPeak := r.peak, peak := contextsInUse s, lastTileMbs := per r.tileBytes / 1000000, lastClosures := per r.closures, tileBytes := 0
    closures := 0 } s

end Sys2Proof.Machine
end

