-- ==== Sys2Proof/Machine/Ring.lean ====
section
/-! DEFINITION. The trellis as other chapters use it: roles, ports, CONTROL messages and their way round the ring, a commit that is
missed, and what a Graft link's coming and going and a lane's change of duty do beyond the lane itself (R20, R49, R362 to R366, R374,
R375, R383, R412). -/

namespace Sys2Proof.Machine

/-! Roles (Tables 14.1 and 14.2) -/

def tsAlone : Nat := 0
def tsJoining : Nat := 1
def tsMember : Nat := 2
def tsMaster : Nat := 3
def tsIsolated : Nat := 4
def tsManager : Nat := 5

/-- Set the trellis part. -/
def setTrel (x : TrelSt) (s : State) : State := { s with trel := x }

/-- This device's device_id; 0xFF on a manager. -/
def ownId (s : State) : Nat := if s.trel.st = tsManager then 0xFF else match s.trel.identity with | some i => i.device | none => 0

/-- Whether the trellis is formed as this device sees it. -/
def formed (s : State) : Bool := s.trel.st == tsMember || s.trel.st == tsMaster || s.trel.st == tsIsolated

/-- Devices of the ring. -/
def ringSize (s : State) : Nat := match s.trel.identity with | some i => max 1 i.ringSize | none => 1

/-- group_first of a side: 0 EAST, 1 WEST (R364). -/
def sideFirst (side : Nat) : Nat := if side = 0 then 48 else 56

/-- The side of a group: 0 EAST, 1 WEST, 2 SPUR. -/
def sideOf (first : Nat) : Nat := if first = 48 then 0 else if first = 56 then 1 else 2

/-- The auxiliary group of a side, by its first lane: the field quad that the identity names, in graft duty (R364). -/
def auxGroup (s : State) (side : Nat) : Option Nat := match s.trel.identity with
  | none => none
  | some i =>
    let q := if side = 0 then i.auxEast else i.auxWest
    if q ≤ 11 && (laneOf s (4 * q)).set.mode == modeGraft && (laneOf s (4 * q)).set.lanes == 4 then some (4 * q) else none

/-- Whether a group is a port's auxiliary group: it carries ROW_DATA and RESULT flits alone (R364). -/
def isAux (s : State) (first : Nat) : Bool := auxGroup s 0 == some first || auxGroup s 1 == some first

/-- The side by which a ROW_DATA or RESULT flit came: over a port's own group or its auxiliary group; 2 over a spur. -/
def dataSide (s : State) (first : Nat) : Nat :=
  if auxGroup s 0 = some first then 0 else if auxGroup s 1 = some first then 1 else sideOf first

/-- Whether a group is a spur: a field lane in graft duty in a group of 1 (R377). -/
def isSpur (s : State) (first : Nat) : Bool := isFieldLane first && (laneOf s first).set.mode == modeGraft && (laneOf s first).set.lanes == 1

/-- The time mapping of a group. -/
def linkOf (s : State) (first : Nat) : Link := tget {} s.trel.links first

/-- Set the time mapping of a group. -/
def setLink (first : Nat) (l : Link) (s : State) : State := setTrel { s.trel with links := tset {} s.trel.links first l } s

/-- The spur lanes that are UP. -/
def spurLanes (s : State) : List Nat := (List.range 48).filter (fun l => isSpur s l && graftUp s l)

/-- The spurs that a device uses: all that are UP; a manager accepts 32, two per trellis (R377). (DESIGN CHOICE, log entry 113) -/
def spursUp (s : State) : List Nat :=
  if s.trel.st = tsManager then ((spurLanes s).filter (fun l => !(linkOf s l).refused)).take 32 else spurLanes s

/-- The neighbour on a side (R364). -/
def neighbour (s : State) (side : Nat) : Nat := if side = 0 then (ownId s + 1) % ringSize s else (ownId s + ringSize s - 1) % ringSize s

/-- Hops to a device over a side. -/
def hopsTo (s : State) (side d : Nat) : Nat :=
  if side = 0 then (d + ringSize s - ownId s % ringSize s) % ringSize s else (ownId s + ringSize s - d % ringSize s) % ringSize s

/-- What this device knows of a member. -/
def memberOf (s : State) (d : Nat) : Member := tget {} s.trel.members d

/-- Set what this device knows of a member. -/
def setMember (d : Nat) (m : Member) (s : State) : State :=
  setTrel { s.trel with members := tset {} s.trel.members d m } s

/-- Whether something was heard within the time of three HELLOs. (DESIGN CHOICE, log entry 112) -/
def lately (s : State) (t : Option Nat) : Bool := match t with
  | some u => decide (since s u < usTicks 300)
  | none => false

/-- Whether a member can be reached over a side: that port is up and the member has been heard over it of late. -/
def reachable (s : State) (side d : Nat) : Bool :=
  graftUp s (sideFirst side) && lately s (if side = 0 then (memberOf s d).heardEast else (memberOf s d).heardWest)

/-- Whether the ring is an open chain, in which nothing reroutes (R364). -/
def openChain (s : State) : Bool := match s.trel.identity with
  | some i => i.openChain
  | none => true

/-- The side that messages to a device take: the shorter working path (R374). -/
def sideTo (s : State) (d : Nat) : Nat :=
  let e := graftUp s 48 && (reachable s 0 d || !reachable s 1 d)
  let w := graftUp s 56 && (reachable s 1 d || !reachable s 0 d)
  if e && w then (if hopsTo s 0 d ≤ hopsTo s 1 d then 0 else 1) else if w then 1 else 0

/-! CONTROL messages (Tables 14.6 and 14.7). The table names the fields of each body and gives no offsets: they stand in its order,
little-endian, without gaps (DESIGN CHOICE, log). -/

/-- A CONTROL flit's payload. (DESIGN CHOICE, log entry 71) -/
def controlBytes (msg src dst scope id : Nat) (body : Bytes) : Bytes :=
  leBytes 1 msg ++ leBytes 1 src ++ leBytes 1 dst ++ leBytes 1 scope ++ leBytes 4 id ++ zeros 8 ++ body

/-- Put a flit on a group that is up. (DESIGN CHOICE, log entry 71) -/
def flitTo (first kind : Nat) (b : Bytes) (s : State) : State := if graftUp s first then sendFlit first ⟨kind, b⟩ s else s

/-- Send a CONTROL message into the ring: to every member over both ports, to one over the shorter working path; one that a failed link
keeps from the shorter path is counted as rerouted (R374, R375). -/
def sendRing (msg dst scope id : Nat) (body : Bytes) (s : State) : State :=
  let b := controlBytes msg (ownId s) dst scope id body
  if dst = 0xFF then flitTo 56 5 b (flitTo 48 5 b s)
  else
    let side := sideTo s dst
    flitTo (sideFirst side) 5 b (if !openChain s && decide (hopsTo s (1 - side) dst < hopsTo s side dst) then bump 12 15 s else s)

/-- Send a CONTROL message on some groups. -/
def sendOver (groups : List Nat) (msg dst scope id : Nat) (body : Bytes) (s : State) : State :=
  groups.foldl (fun t l => flitTo l 5 (controlBytes msg (ownId s) dst scope id body) t) s

/-- Send a CONTROL message on every spur in use. -/
def sendSpurs (msg dst scope id : Nat) (body : Bytes) (s : State) : State := sendOver (spursUp s) msg dst scope id body s

/-! Groups for units of deepened graphs (R364) -/

/-- Reliable flits that a group has still to deliver. -/
def flitsHeld (s : State) (first : Nat) : List Flit := (graftOf s first).held.map (·.2) ++ (graftOf s first).waiting

/-- Whether a group has still to deliver a flit of a graph's units. -/
def carries (s : State) (first g : Nat) : Bool :=
  (flitsHeld s first).any (fun f => (f.kind == 3 || f.kind == 4) && fld f.payload 0 1 == g)

/-- The group that a graph's units take over a side: the port's, or its auxiliary group while that has less to deliver. A graph's units
change the group only when none of them is under way, so that they arrive in order. (DESIGN CHOICE, log entry 110) -/
def dataGroup (s : State) (side g : Nat) : Nat :=
  let port := sideFirst side
  match auxGroup s side with
  | none => port
  | some a =>
    if !graftUp s a then port
    else if carries s a g then a
    else if carries s port g then port
    else if (flitsHeld s a).length < (flitsHeld s port).length then a else port

/-! The coordinator's account of a commit (R381) -/

/-- trellis_id and device_id of a member as this device numbers its members. -/
def memberName (s : State) (k : Nat) : Nat × Nat :=
  if s.trel.st = tsManager then (k / 16, k % 16) else (match s.trel.identity with | some i => i.trellis | none => 0, k)

/-- The members of a commit that have not applied it, as COMMIT_PARTIAL names them (Table 14.11). -/
def partialBytes (s : State) (t : TwoPhase) : Bytes :=
  let left := t.members.filter (fun k => !t.applied.contains k)
  leBytes 2 left.length ++ (left.map (fun k => leBytes 1 (memberName s k).1 ++ leBytes 1 (memberName s k).2)).flatten

/-- The commit is over: its ticket, if this device still holds it, ends. A coordinator that is no member of it shows how it ended: APPLIED,
MISSED when P_c was reached, else ABORTED. (DEDUCED, log entry 70) -/
def coordEnd (status : Nat) (result : Bytes) (s : State) : State := match s.trel.coord with
  | none => s
  | some t =>
    let own := s.trel.st != tsManager && t.members.contains (ownId s) && s.trel.phase != 1
    let phase := if own then s.trel.phase else if status = stOk then 3 else if t.reached then 4 else 5
    let s1 := setTrel { s.trel with coord := none, phase := phase } s
    match t.ticket with
    | some n => endTicket n status result true s1
    | none => s1

/-- The result of a commit's ticket: commit_id, applied, missed, P_c. -/
def commitResult (t : TwoPhase) : Bytes :=
  leBytes 4 t.id ++ leBytes 2 t.applied.length ++ leBytes 2 (t.members.length - t.applied.length) ++ leInt 8 (t.pc.getD 0)

/-- The deepened graphs whose cut list differs between two images: their two devices no longer agree. -/
def splitGraphs (a b : Image) : List Nat := (List.range 64).filter (fun g =>
  decide (fld (settingIn a 0x0901 g []) 0x10 1 ≠ 0 ∨ fld (settingIn b 0x0901 g []) 0x10 1 ≠ 0)
    && decide (settingIn a 0x0900 g [] ≠ settingIn b 0x0900 g []))

/-- The deepened graphs of an image, each with its peer_device. -/
def deepened (img : Image) : List (Nat × Nat) := (List.range 64).filterMap (fun g =>
  let b := settingIn img 0x0901 g []
  if fld b 1 1 = 1 && decide (fld b 0x10 1 ≠ 0) then some (g, fld b 0x11 1) else none)

/-- Deepened graphs are suspended on both devices while one of the two has missed a commit that changed the cut list and the other has not,
and go on when the two agree again (R383). -/
def settleSplit (s : State) : State :=
  let changed := if s.trel.diverged then splitGraphs s.cfg.active (nextImage s) else splitGraphs s.cfg.previous s.cfg.active
  (deepened s.cfg.active).foldl (fun t e =>
    let x := tget {} t.fab.graphs e.1
    let put (y : GraphSt) : State := { t with fab := { t.fab with graphs := tput t.fab.graphs e.1 y } }
    if s.trel.diverged != (memberOf s e.2).diverged && (x.split || changed.contains e.1) then
      (if x.split then t else
        let u := put { x with split := true, rerun := none, reruns := [] }
        if x.suspended then u else raise 0x0704 4 e.1 0 0 u)
    else if x.split then put { x with split := false, anew := true } else t) s

/-- APPLIED of a member, as the coordinator and the peers of its deepened graphs hear it: outcome 0 APPLIED, 1 MISSED. -/
def noteOutcome (d outcome : Nat) (s : State) : State := settleSplit (setMember d { memberOf s d with diverged := outcome != 0 } s)

/-- APPLIED of a member reaches the coordinator. The ticket ends OK when all have applied. -/
def takeApplied (k id generation outcome : Nat) (s : State) : State :=
  let s0 := noteOutcome k outcome (setMember k { memberOf s k with generation := generation } s)
  match s.trel.coord with
  | none => s0
  | some t =>
    if t.id ≠ id || !t.members.contains k || t.applied.contains k then s0
    else if outcome ≠ 0 then setTrel { s0.trel with coord := some { t with missed := k :: t.missed.filter (· != k) } } s0
    else
      let u := { t with applied := k :: t.applied }
      let s1 := setTrel { s0.trel with coord := some u } s0
      if u.applied.length = u.members.length then
        raise 0x0A09 0 id (u.pc.getD 0) 0 (coordEnd stOk (commitResult u) s1)
      else s1

/-- Answer a coordinator: the master, or over the spurs a manager (R381). A master that coordinates takes its own APPLIED at once. -/
def sendAnswer (msg scope id : Nat) (body : Bytes) (s : State) : State :=
  if scope = 1 && s.trel.st == tsMaster then sendSpurs msg 0xFF 1 id body s
  else if s.trel.master = ownId s then (if msg = 10 then takeApplied (ownId s) id (fld body 0 4) (fld body 4 1) s else s)
  else sendRing msg s.trel.master scope id body s

/-! A commit that is missed (R49, R383) -/

/-- Suspend graphs (R271). -/
def suspendGraphs (gs : List Nat) (s : State) : State :=
  gs.foldl (fun t g =>
    let x := tget {} t.fab.graphs g
    if x.suspended || x.run.isNone then t
    else raise 0x0704 4 g 0 0 { t with fab := { t.fab with graphs := tput t.fab.graphs g { x with
      suspended := true, rerun := none, reruns := [] } } }) s

/-- A device reports the outcome of a commit to its coordinator (R381), and to the peers of its deepened graphs, which are suspended or go on
with it (R383). (DESIGN CHOICE, log entry 111) -/
def reportOutcome (id outcome : Nat) (s : State) : State :=
  let body := leBytes 4 s.cfg.generation ++ leBytes 1 outcome
  let peers := (deepened s.cfg.active ++ deepened s.cfg.previous ++ deepened (nextImage s)).map (·.2)
  let told := (List.range (ringSize s)).filter (fun d => peers.contains d && d != ownId s && d != s.trel.master)
  settleSplit (told.foldl (fun t d => sendRing 10 d s.trel.scope id body t) (sendAnswer 10 s.trel.scope id body s))

/-- A trellis commit that the device has not applied at its P_c: CONFIG_DIVERGED, and MISSED (R383). -/
def divergeCommit (id : Nat) (pc : Int) (s : State) : State :=
  reportOutcome id 1 (raise 0x0A08 3 s.cfg.generation pc id (bump 12 13 (setTrel { s.trel with diverged := true, phase := 4, prep := none } s)))

/-- The master position reached P_c before preparation was complete: the commit is not applied and its image stays staged (R49). A
trellis commit that is missed leaves the device diverged (R383). -/
def missCommit (s : State) : State := match s.cfg.commit with
  | none => s
  | some c =>
    let pc := c.pc.getD 0
    let s1 := raise 0x0002 2 s.cfg.generation pc 0 { s with cfg := { s.cfg with commit := none } }
    match c.trellis with
    | none => s1
    | some id => divergeCommit id pc s1

/-! Links (R170, R375) -/

/-- A deepened graph whose peer a failed link joined goes on the other way round the ring: ORIGIN forwards again from the oldest row
whose results have not all returned. In an open chain it is suspended. -/
def rerouteGraph (g : Nat) (s : State) : State :=
  let x := tget {} s.fab.graphs g
  match x.run with
  | none => s
  | some r =>
    if r.plan.role = 0 then s
    else if openChain s then suspendGraphs [g] s
    else match r.plan.role, x.unreturned with
      | 1, q :: _ =>
        let k : Rerun := { restart := q, tile := 0, slot := 0, engine := 0, code := 0, last := r.lastG.getD q, clipped := 0, since := dcNow s
                           quiet := true, reroute := true }
        { s with fab := { s.fab with graphs := tput s.fab.graphs g (if x.rerun.isSome then { x with reruns := x.reruns ++ [k] }
            else { x with rerun := some k }) } }
      | _, _ => s

/-- A group's reliable flits go to another group. -/
def moveFlits (first other : Nat) (s : State) : State :=
  (flitsHeld s first).foldl (fun t f => sendFlit other f t) (setGraft first { graftOf s first with held := [], waiting := [] } s)

/-- A Graft link has failed: the path changes, reliable flits take the other way, deepened graphs are rerouted (R375). What an auxiliary
group has still to deliver goes to its port (R364). -/
def linkFailed (first : Nat) (s : State) : State :=
  let side := sideOf first
  if isAux s first then moveFlits first (sideFirst (dataSide s first)) s
  else if side = 2 || !formed s then s
  else
    let peer := neighbour s side
    let clear (m : Member) : Member := if side = 0 then { m with heardEast := none } else { m with heardWest := none }
    let s1 := setTrel { s.trel with
      broken := s.trel.broken ||| 2 ^ side, members := s.trel.members.map (fun e => (e.1, clear e.2))
      links := tdel s.trel.links first } s
    let s2 := raise 0x0A02 2 side 0 0 (bump 12 8 s1)
    let s4 := if openChain s then s2 else bumpBy 12 15 (flitsHeld s first).length (moveFlits first (sideFirst (1 - side)) s2)
    (s4.fab.graphs.map (·.1)).foldl (fun t g =>
      match (tget {} t.fab.graphs g).run with
      | some r => if r.plan.peer = peer then rerouteGraph g t else t
      | none => t) s4

/-- A Graft link has come up. -/
def linkCameUp (first : Nat) (s : State) : State :=
  let side := sideOf first
  let s1 := setTrel { s.trel with links := tdel s.trel.links first } s
  if side < 2 && bitOf s.trel.broken side then setTrel { s1.trel with broken := s1.trel.broken - 2 ^ side } s1 else s1

/-! Calibration (R20, R412) -/

/-! Targets (Table 16.2): class × 256 + index -/

def calLane : Nat := 0
def calQuad : Nat := 1
def calTrg : Nat := 2
def calPps : Nat := 3
def calTdc : Nat := 4

/-- Targets of a class. -/
def calCount (c : Nat) : Nat := match c with
  | 0 => 64
  | 1 => 16
  | 2 => 64
  | 3 => 1
  | 4 => 17
  | _ => 0

/-- Every target, ascending. -/
def calTargets : List Nat := (List.range 5).flatMap (fun c => (List.range (calCount c)).map (· + 256 * c))

/-- The trims of a target: 16 offsets, CTLE, receive and transmit termination on a lane; 256 entries on a TDC; else one code. -/
def calCodes (k : Nat) : Nat := if k / 256 = calLane then 19 else if k / 256 = calTdc then 256 else 1

/-- A target before its first trims: codes of 0. (DESIGN CHOICE, log entry 73) -/
def calDefault (k : Nat) : CalTarget :=
  let codes : List Int := (List.range (calCodes k)).map (fun _ => 0)
  { active := codes, idle := if k / 256 = calTrg || k / 256 = calPps then codes else [] }

/-- A calibration target. -/
def calTarget (s : State) (k : Nat) : CalTarget := tget (calDefault k) s.cal.targets k

/-- Set a calibration target. -/
def setCal (k : Nat) (x : CalTarget) (s : State) : State := { s with cal := { s.cal with targets := tset (calDefault k) s.cal.targets k x } }

/-- A trim that waits for a lane's idle block is discarded (R20). -/
def discardLaneTrim (l : Nat) (s : State) : State :=
  let x := calTarget s l
  if x.waiting.isSome then setCal l { x with waiting := none, deferred := false } s else s

/-- What a target is doing (Table 16.9): 0 IN_SERVICE, 1 CALIBRATING, 2 APPLY_PENDING, 3 DEFERRED. -/
def calState (x : CalTarget) : Nat := if x.running.isSome then 1 else if x.waiting.isSome then (if x.deferred then 3 else 2) else 0

/-- The CAL.GET_STATUS response of a target (Table 16.9). -/
def calStatus (s : State) (k : Nat) : Bytes :=
  let x := calTarget s k
  leBytes 1 (calState x) ++ leBytes 1 x.outcome ++ leBytes 1 x.fields.length ++ zeros 1 ++ leInt 2 x.tempNow ++ leInt 2 x.lastTemp
    ++ leBytes 4 x.count ++ leBytes 4 x.rejects ++ leBytes 8 x.lastDc ++ leBytes 8 (x.lastTv0 / 1000000000 % 2 ^ 48)
    ++ leBytes 4 (x.lastTv0 % 1000000000) ++ leBytes 4 x.third ++ zeros 8

/-- A calibration of a target ends with an outcome: what CAL.GET_STATUS reports of it, and the end of the tickets that it serves (R417). -/
def calEnded (k outcome status : Nat) (s : State) : State :=
  let x := calTarget s k
  let y := { x with
    running := none, outcome := outcome, tickets := [], due := !x.waits.isEmpty, lastDc := dcNow s
    lastTv0 := (viewNow s 0 / 2 ^ 32).toNat }
  let s1 := setCal k y s
  let s2 := { s1 with cal := { s1.cal with latest := some k } }
  x.tickets.foldl (fun t n => endTicket n status (calStatus s2 k) true t) s2

/-- The quad of a lane, and the lanes of a quad. -/
def quadTarget (l : Nat) : Nat := 256 * calQuad + l / 4
def quadLanes (q : Nat) : List Nat := (List.range 4).map (· + 4 * q)

/-- A lane comes back from a calibration to the state that it left. A Graft pair that was restriped out retrains, as its partner does, and
is re-admitted (R155, R168, R169). -/
def calReturnLane (l : Nat) (s : State) : State :=
  modLane l (fun y => if y.st = lsCalibrating then { y with st := y.calFrom, trainStart := if y.calFrom = lsRetraining then dcNow s else y.trainStart }
    else y) s

/-- A calibration ends ABANDONED, and its lanes come back. -/
def calAbandon (k : Nat) (lanes : List Nat) (s : State) : State :=
  if (calTarget s k).running.isNone then s else calEnded k 4 0x42 (lanes.foldl (fun t l => calReturnLane l t) s)

/-- A commit changes a lane that calibrates, alone or with its quad, or whose trim waits: the calibration is abandoned (outcome 4), the trim
discarded, no reject counted (R20, R412, R417). -/
def calibrationAbandoned (l : Nat) (s : State) : State :=
  calAbandon (quadTarget l) (quadLanes (l / 4)) (calAbandon l [l] (discardLaneTrim l s))

end Sys2Proof.Machine
end

