-- ==== Sys2Proof/Machine/Fabric.lean ====
section
/-! DEFINITION. Engines and tiles: shadow checks, known-answer tests, retirement, migration and re-runs (R267 to R272, R319). -/

namespace Sys2Proof.Machine

/-! Engines, slots and tiles (Table 1.3). Slots are tile × 16 + slot. -/

/-- The spare of a tile. -/
def spareEngine (tile : Nat) : Nat := tile * 17 + 16

/-- The engine that a slot was built with. -/
def slotEngine (slot : Nat) : Nat := slot / 16 * 17 + slot % 16

/-- Set the fabric. -/
def setFab (f : Fab) (s : State) : State := { s with fab := { s.fab with fab := f } }

/-- Whether an engine is retired. -/
def retiredEngine (s : State) (e : Nat) : Bool := s.fab.fab.retired.contains e

/-- Whether a tile has its spare. -/
def hasSpare (s : State) (tile : Nat) : Bool := !retiredEngine s (spareEngine tile) && (tfind s.fab.fab.spareAt tile).isNone

/-- The engine that runs a slot: its own, or the tile's spare after a migration; none on a lost slot. -/
def engineAt (s : State) (slot : Nat) : Option Nat :=
  let tile := slot / 16
  if tfind s.fab.fab.spareAt tile = some (slot % 16) then (if retiredEngine s (spareEngine tile) then none else some (spareEngine tile))
  else if retiredEngine s (slotEngine slot) then none
  else some (slotEngine slot)

/-- The slot of a tile that an engine runs. -/
def slotOfEngine (s : State) (e : Nat) : Option Nat := ((List.range 16).map (· + e / 17 * 16)).find? (fun k => engineAt s k == some e)

/-- The graph that a slot runs. -/
def graphOnSlot (s : State) (slot : Nat) : Option Nat := (s.fab.fab.placed.find? (fun e => e.2.contains slot)).map (·.1)

/-- The counters of a tile (Table 10.18). -/
def tileCount (tile k : Nat) (s : State) : State := bump 9 (1024 + tile * 8 + k) s

/-- Raise an event that carries INJECTED when a fault injection led to it (R432). -/
def raiseFrom (injected : Bool) (code severity object : Nat) (arg0 arg1 : Int) (s : State) : State :=
  let t := raise code severity object arg0 arg1 { s with ev := { s.ev with injecting := injected } }
  { t with ev := { t.ev with injecting := false } }

/-- Retire an engine. -/
def retire (e : Nat) (s : State) : State :=
  if retiredEngine s e then s
  else tileCount (e / 17) 4 (setFab { s.fab.fab with retired := s.fab.fab.retired ++ [e] } s)

/-- A slot is lost: its graph is suspended, and an armed commit that planned it is missed (R271). (DEDUCED, log entry 62) -/
def loseSlot (slot : Nat) (injected : Bool) (s : State) : State :=
  let s1 := setFab { s.fab.fab with lost := s.fab.fab.lost ++ [slot] } s
  let s2 := match graphOnSlot s slot with
    | some g => raiseFrom injected 0x0704 4 (g + slot / 16 * 256 + slot % 16 * 65536) 0 0
        (setGraph g { graphOf s1 g with suspended := true, rerun := none, reruns := [] } s1)
    | none => s1
  match s2.cfg.commit with
  | some c => if !c.applying && s2.fab.fab.planned.any (fun e => e.2.contains slot) then missCommit s2 else s2
  | none => s2

/-! Re-runs (R269, R270, R277) -/

/-- A re-run of a graph falls due: from the last row of the slot that passed a check, less history_rows, and never before the graph's
start; rows before that which were unchecked are clipped. During another re-run of the graph it waits for the end of that. -/
def startRerun (g tile slot engine code : Nat) (injected quiet : Bool) (s : State) : State := match (graphOf s g).run with
  | none => s
  | some run =>
    let img := s.cfg.active
    let pitch : Int := ((graphGrid img run.plan).2 : Int)
    let k := tile * 16 + slot
    let ok := tfind run.passed k
    let want := (ok.getD run.startG) - (run.plan.hist : Int) * pitch
    let clipped := if ok.isSome then 0 else tget 0 run.unchecked k
    let r : Rerun := { restart := max want run.startG, tile := tile, slot := slot, engine := engine, code := code
                       last := run.lastG.getD run.startG, clipped := clipped, since := dcNow s, injected := injected, quiet := quiet }
    let x := graphOf s g
    setGraph g (if x.rerun.isSome then { x with reruns := x.reruns ++ [r] } else { x with rerun := some r }) s

/-- The row of a line stream, rebuilt from the look-back buffer, or made as the gate would make it (R225). -/
def rebuildOrMake (img : Image) (n : Nat) (g : Int) (s : State) : Made := match rebuildLine img n g s with
  | some m => m
  | none => (madeRow img n g none s).1

/-- The rows of a graph's sources at a position, rebuilt for a re-run. -/
def rerunRows (img : Image) (p : Plan) (g : Int) (s : State) : List Row :=
  p.srcs.filterMap (fun src =>
    if src < 128 then some (rebuildOrMake img src g s).row
    else (stitchRow img (src - 128) ((stitchCfg img (src - 128)).members.map (fun n => rebuildOrMake img n g s)) s).1)

/-- A row is re-run: on ORIGIN it is forwarded again (Table 10.18). -/
def countRerun (p : Plan) (s : State) : State :=
  let t := bump 9 (p.graph * 16 + 1) s
  if p.role = 1 then bump 9 (p.graph * 16 + 6) t else t

/-- Contexts that a re-run's row lacks are fetched while the row is held (R307). -/
def fetchHeld (miss : List (Nat × Nat)) (s : State) : State :=
  if miss.isEmpty then s else touchCache miss (bumpBy 10 1024 miss.length (bump 10 1025 s))

/-- Re-run one row of a graph: a period that ended before it closes again, the lines it reads are counted, and its engines are busy. -/
def rerunRow (old : OpsSt) (g : Nat) (first pos : Int) (s0 : State) : State := match (graphOf s0 g).run with
  | none => s0
  | some run0 =>
    let c := closeAgain (some pos) 256 (run0, s0)
    let run := c.1
    let p := run.plan
    let x := graphOf c.2 g
    let s := countRerun p (setGraph g { x with busy := x.busy + p.cycles } c.2)
    let m0 := old.metas.find? (fun m => m.g == pos)
    let gen := match m0 with | some m => m.generation | none => s.cfg.generation
    let digest := match m0 with | some m => m.digest | none => 0
    let img := genImage s gen
    let rows := rerunRows img p pos s
    let m := metaOf (graphGrid img p) gen digest rows
    let before := run.ops
    let run' := { run with
      ops := passRow p run.prime m rows before, lastG := some pos, snaps := ((pos, before) :: run.snaps).take (keepSnaps p) }
    let miss := match labels p with | some k => missingContexts s p k run' | none => []
    afterRow p true [] before run' (fetchHeld miss (setRun g run' (noteReads img p.srcs pos (pos == first) s)))

/-- Records of the rows that are re-run are void: REGIONS_RERUN, and their pending marks are withdrawn (R319). -/
def voidRecords (g : Nat) (restart : Int) (injected : Bool) (s : State) : State := match (graphOf s g).run with
  | none => s
  | some run =>
    let void := (run.records.filter (fun e => decide (restart ≤ e.2))).map (·.1)
    match void with
    | [] => s
    | v :: t =>
      let lo := t.foldl min v
      let hi := t.foldl max v
      let s1 := setRun g { run with records := run.records.filter (fun e => decide (e.2 < restart)) } s
      let s2 := setMarks (s1.trig.marks.filter (fun m => m.asserted.isSome || !void.contains m.region)) s1
      raiseFrom injected 0x0803 2 g lo hi (bumpBy 10 (g * 16 + 13) void.length s2)

/-- The event of a re-run (Table 17.5). -/
def rerunEvent (g : Nat) (r : Rerun) (first : Int) (s : State) : State :=
  if r.quiet then s
  else raiseFrom r.injected r.code (if r.code = 0x0703 then 2 else 3) (r.engine + g * 65536 + r.slot * 16777216) first r.last s

/-- The periods that had closed by the last row of a re-run close again. -/
def settleAgain (g : Nat) (s : State) : State := match (graphOf s g).run with
  | none => s
  | some run =>
    let c := closeAgain none 256 (run, s)
    setRun g c.1 c.2

/-- Run a re-run through: contexts and operators go back to the restart row, closings that will come again are dropped, the rows are
run, differing outputs are delivered again, and void records are reported. (DEDUCED, log entry 62) -/
def rerunGraph (g : Nat) (r : Rerun) (s : State) : State := match (graphOf s g).run with
  | none => s
  | some run =>
    let again := (run.snaps.filter (fun e => decide (r.restart ≤ e.1))).reverse
    match again with
    | [] => rerunEvent g r r.restart s
    | (first, before) :: _ =>
      let p := run.plan
      let old := run.ops
      let run0 := { run with
        ops := before, waiting := run.waiting.filter (fun w => decide (w.row.n1 < before.count))
        snaps := run.snaps.filter (fun e => decide (e.1 < r.restart)), lastG := (run.snaps.find? (fun e => decide (e.1 < r.restart))).map (·.1) }
      let s1 := setRgn { s.fab.rgn with closing := s.fab.rgn.closing.filter (fun c => !comesAgain g before c) } (setRun g run0 s)
      let s2 := if p.role = 2 then setGraph g { graphOf s1 g with rerunTo := some r.last, await := some first, fwd := [] } (toPeer g 4 3 0 first [] s1)
        else settleAgain g (again.foldl (fun t e => rerunRow old g first e.1 t) s1)
      let s3 := bumpBy 9 (g * 16 + 4) r.clipped (bump 9 (g * 16 + 2) s2)
      rerunEvent g r first (voidRecords g first r.injected s3)

/-- ORIGIN forwards the crossing values of a row again. -/
def reforwardRow (p : Plan) (run : Run) (first pos : Int) (a : OpsSt × State) : OpsSt × State :=
  let x := graphOf a.2 p.graph
  let s := countRerun p (setGraph p.graph { x with busy := x.busy + p.cycles } (noteReads
    (genImage a.2 (match run.ops.metas.find? (fun m => m.g == pos) with | some m => m.generation | none => a.2.cfg.generation))
    p.srcs pos (pos == first) a.2))
  let m0 := run.ops.metas.find? (fun m => m.g == pos)
  let gen := match m0 with | some m => m.generation | none => s.cfg.generation
  let img := genImage s gen
  let rows := rerunRows img p pos s
  let ops := passRow p run.prime (metaOf (graphGrid img p) gen (match m0 with | some m => m.digest | none => 0) rows) rows a.1
  (ops, forward p false 0 a.1 ops s)

/-- ORIGIN forwards again from the oldest row whose results have not all returned (R375). -/
def reforward (g : Nat) (r : Rerun) (s : State) : State := match (graphOf s g).run with
  | none => s
  | some run => match (run.snaps.filter (fun e => decide (r.restart ≤ e.1))).reverse with
    | [] => s
    | (q, before) :: rest => (((q, before) :: rest).foldl (fun a e => reforwardRow run.plan run q e.1 a) (before, s)).2

/-- The work of RERUN_COMPLETE. (DEDUCED, log entry 62) -/
def rerunComplete (g : Nat) (s : State) : State := match (graphOf s g).rerun with
  | none => s
  | some r =>
    let s1 := setGraph g { graphOf s g with rerun := none } s
    let s2 := if r.reroute then reforward g r s1 else rerunGraph g r s1
    let x := graphOf s2 g
    match x.reruns with
    | [] => s2
    | q :: rest => if x.rerun.isSome then s2 else setGraph g { x with rerun := some q, reruns := rest } s2

/-! Checks and tests (R267, R268) -/

/-- Begin the known-answer tests of a slot's engine and the spare. -/
def startTest (tile slot : Nat) (row : Option Int) (injected : Option Bool) (s : State) : State :=
  tileCount tile 2 (setFab { s.fab.fab with
    tests := tput s.fab.fab.tests tile { slot := slot, row := row, since := dcNow s, injected := injected } } s)

/-- The work of SHADOW_CHECK: the spare of a tile has re-executed a slice of a row on one slot; `same` says that the CRCs agree, but
for an injected mismatch (R432). -/
def shadowCheck (tile slot : Nat) (row : Int) (same : Bool) (s : State) : State :=
  let k := tile * 16 + slot
  match graphOnSlot s k with
  | none => s
  | some g => match (graphOf s g).run with
    | none => s
    | some run =>
      let late := match run.lastG with | some q => decide (q < row) | none => true
      if 32 ≤ tile || 16 ≤ slot || late || !hasSpare s tile || (tfind s.fab.fab.tests tile).isSome || (graphOf s g).rerun.isSome
          || (graphOf s g).stopped then s
      else
        let inj := match s.fault.inject with
          | some i => if engineAt s k == some i.engine then some i.fails else none
          | none => none
        if same && inj.isNone then
          let best := max row ((tfind run.passed k).getD row)
          tileCount tile 0 (setRun g { run with passed := tput run.passed k best } s)
        else
          let s1 := if inj.isSome then { s with fault := { s.fault with inject := none } } else s
          startTest tile slot (some row) inj (tileCount tile 1 s1)

/-- Row SHADOW_CHECK. -/
def execShadowCheck (tile slot : Nat) (row : Int) (same : Bool) (s : State) : Host.Outcome State Fault Refusal :=
  done (shadowCheck tile slot row same s)

/-- The fault handling of an engine's uncorrectable error (R268, R271). -/
def faultOf (e : Nat) (s : State) : State :=
  let tile := e / 17
  if retiredEngine s e then s
  else match slotOfEngine s e with
    | none => startTest tile 16 none none s
    | some k => if hasSpare s tile then startTest tile (k % 16) none none s else loseSlot k false (retire e s)

/-- A tile's uncorrectable errors that came while it was under test are handled in order, until the next test begins; at most `fuel`. -/
def nextFault (tile : Nat) : Nat → State → State
  | 0, s => s
  | k + 1, s => match s.fab.fab.testsDue.find? (fun e => e / 17 == tile) with
    | none => s
    | some e =>
      let t := faultOf e (setFab { s.fab.fab with testsDue := s.fab.fab.testsDue.erase e } s)
      if (tfind t.fab.fab.tests tile).isSome then t else nextFault tile k t

/-- The work of ENGINE_ECC_ERROR: a corrected error is counted; an uncorrectable one starts the tests, or without a spare retires the
engine and costs its slot (R268, R271, R421). One that comes while its tile is under test is handled after that. -/
def engineEcc (e : Nat) (uncorrectable : Bool) (s : State) : State :=
  let tile := e / 17
  if 544 ≤ e || retiredEngine s e then s
  else if !uncorrectable then bump 14 2 (tileCount tile 5 s)
  else
    let s1 := bump 14 3 (tileCount tile 6 s)
    if (tfind s.fab.fab.tests tile).isSome then setFab { s1.fab.fab with testsDue := s1.fab.fab.testsDue ++ [e] } s1
    else faultOf e s1

/-- Row ENGINE_ECC_ERROR. -/
def execEngineEccError (engine : Nat) (uncorrectable : Bool) (s : State) : Host.Outcome State Fault Refusal :=
  done (engineEcc engine uncorrectable s)

/-- The rows of a slot are re-run, or the event of an engine without a graph is raised at once. -/
def rerunSlot (tile slot engine code : Nat) (injected : Bool) (s : State) : State := match graphOnSlot s (tile * 16 + slot) with
  | some g => if (graphOf s g).run.isSome then startRerun g tile slot engine code injected false s
      else raiseFrom injected code (if code = 0x0703 then 2 else 3) (engine + g * 65536 + slot * 16777216) 0 0 s
  | none => raiseFrom injected code (if code = 0x0703 then 2 else 3) (engine + 0xFF * 65536 + slot * 16777216) 0 0 s

/-- The slot engine is retired and the spare takes its slot. (DEDUCED, log entry 62) -/
def migrate (tile slot engine : Nat) (injected : Bool) (s : State) : State :=
  let s1 := retire engine s
  rerunSlot tile slot engine 0x0701 injected (setFab { s1.fab.fab with spareAt := tput s1.fab.fab.spareAt tile slot } s1)

/-- The outcome of the known-answer tests (Table 10.10). (DEDUCED, log entry 62) -/
def testOutcome (tile : Nat) (k : Kat) (slotOk spareOk : Bool) (s : State) : State :=
  let inj := k.injected.isSome
  if k.slot = 16 then
    (if spareOk then s else raiseFrom inj 0x0702 3 (spareEngine tile) 0 0 (retire (spareEngine tile) s))
  else match engineAt s (tile * 16 + k.slot) with
    | none => s
    | some e => match slotOk, spareOk with
      | false, true => migrate tile k.slot e inj s
      | true, false => raiseFrom inj 0x0702 3 (spareEngine tile) 0 0 (retire (spareEngine tile) s)
      | false, false => loseSlot (tile * 16 + k.slot) inj (retire (spareEngine tile) (retire e s))
      | true, true =>
        let s1 := tileCount tile 3 s
        let recent := match tfind s.fab.fab.transients e with
          | some t => decide (since s t < secTicks 3600)
          | none => false
        if recent then migrate tile k.slot e inj s1
        else rerunSlot tile k.slot e 0x0703 inj (setFab { s1.fab.fab with transients := tput s1.fab.fab.transients e (dcNow s) } s1)

/-- The work of KNOWN_ANSWER_TEST_DONE, 3.0 µs after the tests began; an injected fault fixes their outcome (R432).
(DEDUCED, log entry 62) -/
def testDone (tile : Nat) (slotOk spareOk : Bool) (s : State) : State := match tfind s.fab.fab.tests tile with
  | none => s
  | some k =>
    if since s k.since < usTicks 3 then s
    else
      let s1 := setFab { s.fab.fab with tests := tdel s.fab.fab.tests tile } s
      nextFault tile s1.fab.fab.testsDue.length (match k.injected with
        | some fails => testOutcome tile k (!fails) true s1
        | none => testOutcome tile k slotOk spareOk s1)

/-- Row KNOWN_ANSWER_TEST_DONE. -/
def execKnownAnswerTestDone (tile : Nat) (slotOk spareOk : Bool) (s : State) : Host.Outcome State Fault Refusal :=
  done (testDone tile slotOk spareOk s)

end Sys2Proof.Machine
end

