-- ==== Sys2Proof/Machine/Sprint.lean ====
section
/-! DEFINITION. Sprint (R273 to R275) and the GRAPH commands that read the fabric (R258, R265, R272). -/

namespace Sys2Proof.Machine

/-! Temperature -/

/-- The highest die temperature, 1/16 °C: sensors 0 to 2 (Table 17.5). -/
def dieTemp (s : State) : Int := match s.fault.temps.take 3 with
  | [] => 0
  | t :: l => l.foldl max t

/-! Sprint -/

/-- Set the sprint part. -/
def setSprint (x : Sprint) (s : State) : State := { s with fab := { s.fab with sprint := x } }

/-- ms of the present sprint. -/
def sprintMs (s : State) : Nat := if s.fab.sprint.on then since s s.fab.sprint.since / 625000 else 0

/-- ms of sprint in the last 600 s. -/
def sprintWindowMs (s : State) : Nat := sprintTicks s (secTicks 600) / 625000

/-- ms of sprint in the device's life. -/
def sprintLifeMs (s : State) : Nat := s.fab.sprint.lifetimeMs + sprintMs s

/-- 8,000 h in ms. -/
def sprintLife : Nat := 28800000000

/-- The first condition of Table 10.12 that bars an entry. (DEDUCED, log entry 63) -/
def sprintBar (s : State) : Option Nat :=
  let x := s.fab.sprint
  if 120000 ≤ sprintWindowMs s then some 3
  else if 1440 ≤ dieTemp s then some 4
  else if sprintLife ≤ sprintLifeMs s then some 5
  else if s.fault.throttle || s.fault.throttled then some 6
  else if sprintMode s.cfg.active = 0 || (match x.exitAt with | some t => decide (since s t < secTicks 1) | none => false) then some 7
  else none

/-- Whether a bed has held a stream in CATCH_UP through tile backpressure for auto_hold_us. -/
def bedHolds (s : State) (b : Nat) : Bool := match (bedSt s b).heldAt with
  | none => false
  | some t => (bedStreams s.cfg.active b).any (fun n =>
    let x := streamSt s n
    x.st == 2 && decide (usTicks (autoHoldUs s.cfg.active) ≤ min (since s t) (since s x.catchUpSince)))

/-- The AUTO condition: a re-run in progress, or a bed that has held a stream in CATCH_UP through tile backpressure for auto_hold_us
(R273). -/
def autoWanted (s : State) : Bool :=
  s.fab.graphs.any (fun e => e.2.rerun.isSome) || (List.range 8).any (bedHolds s)

/-- Whether the mode asks for a sprint. -/
def sprintWanted (s : State) : Bool :=
  let m := sprintMode s.cfg.active
  if m = 1 then autoWanted s else m == 2 && s.fab.sprint.manual.isSome

/-- Whether the device stands between two position rows: no grid has emitted a part of its position's rows (R18).
(DEDUCED, log entry 63) -/
def atRowBoundary (s : State) : Bool := s.ing.gates.all (fun e => match e.2 with | some g => g.beds.isEmpty | none => true)

/-- The device enters sprint, at a position-row boundary (R18, R274). -/
def enterSprint (s : State) : State :=
  let x := s.fab.sprint
  if x.on || !sprintWanted s || (sprintBar s).isSome then s
  else raise 0x0705 0 0 0 0 (bump 9 1280 (setSprint { x with
    on := true, since := dcNow s, entries := x.entries + 1, idleAt := none, mode := sprintMode s.cfg.active, counted := 0 } s))

/-- The work of SPRINT_START: amid the rows of a position the entry waits for the next boundary. -/
def sprintStart (s : State) : State :=
  if atRowBoundary s then enterSprint s
  else if s.fab.sprint.on || !sprintWanted s || (sprintBar s).isSome then s
  else setSprint { s.fab.sprint with asked := 1 } s

/-- Row SPRINT_START. -/
def execSprintStart (s : State) : Host.Outcome State Fault Refusal := done (sprintStart s)

/-- Whether a sprint has ended by itself: the AUTO condition for 1 ms, the MANUAL duration, or GRAPH.SPRINT_NOW with 0. -/
def sprintOver (s : State) : Bool :=
  let x := s.fab.sprint
  if x.mode = 1 then !autoWanted s && (match x.idleAt with | some t => decide (msTicks 1 ≤ since s t) | none => false)
  else match x.manual with
    | none => true
    | some ms => decide (ms ≤ sprintMs s)

/-- The cause that ends a sprint now, the lowest of Table 10.12. (DEDUCED, log entry 63) -/
def sprintCause (s : State) : Option Nat :=
  if sprintMode s.cfg.active = s.fab.sprint.mode && sprintOver s then some 1
  else if 30000 ≤ sprintMs s then some 2
  else if 120000 ≤ sprintWindowMs s then some 3
  else if 1440 ≤ dieTemp s then some 4
  else if sprintLife ≤ sprintLifeMs s then some 5
  else if s.fault.throttled then some 6
  else if sprintMode s.cfg.active != s.fab.sprint.mode then some 7
  else none

/-- The record of sprints once the present one, if any, has ended. -/
def sprintPast (s : State) : Sprint :=
  let x := s.fab.sprint
  if !x.on then { x with manual := none, idleAt := none, asked := 0 }
  else { x with
    on := false, past := ((x.since, dcNow s) :: x.past).filter (fun e => decide (since s e.2 < secTicks 600)), exitAt := some (dcNow s)
    lifetimeMs := x.lifetimeMs + sprintMs s, manual := none, idleAt := none, asked := 0, counted := 0 }

/-- The device leaves sprint where a condition of Table 10.12 ends it, at a position-row boundary (R18, R274). -/
def leaveSprint (s : State) : State :=
  let x := s.fab.sprint
  if !x.on then s
  else match sprintCause s with
    | none => s
    | some c =>
      let ms := sprintMs s
      let s1 := bumpBy 9 1281 (ms - x.counted) (setSprint { sprintPast s with lastExit := c } s)
      raise 0x0706 0 c ms 0 (if 2 ≤ c && c ≤ 6 then bump 9 1282 s1 else s1)

/-- The work of SPRINT_END: amid the rows of a position the exit waits for the next boundary. -/
def sprintEnd (s : State) : State :=
  if atRowBoundary s then leaveSprint s
  else if s.fab.sprint.on && (sprintCause s).isSome then setSprint { s.fab.sprint with asked := 2 } s
  else s

/-- Row SPRINT_END. -/
def execSprintEnd (s : State) : Host.Outcome State Fault Refusal := done (sprintEnd s)

/-- What a position-row boundary does to the engine clock, in its place in the order of R19: the throttle follows its thermal step and ends
a sprint at the same boundary (R424), and a change that waited takes place if its conditions hold still (R18). -/
def clockChange (s : State) : State :=
  let s1 := { s with fault := { s.fault with throttled := s.fault.throttle } }
  if s1.fault.throttled && s1.fab.sprint.on then leaveSprint s1
  else
    let s2 := if s1.fab.sprint.asked = 0 then s1 else setSprint { s1.fab.sprint with asked := 0 } s1
    if s1.fab.sprint.asked = 1 then enterSprint s2 else if s1.fab.sprint.asked = 2 then leaveSprint s2 else s2

/-- The time since which the AUTO condition has been clear, as time passes. (DESIGN CHOICE, log entry 3; DEDUCED, log entry 63) -/
def sprintTick (s : State) : State :=
  let x := s.fab.sprint
  if !x.on || x.mode != 1 then s
  else if autoWanted s then (if x.idleAt.isNone then s else setSprint { x with idleAt := none } s)
  else if x.idleAt.isSome then s else setSprint { x with idleAt := some (dcNow s) } s

/-- GRAPH.SPRINT_NOW (Table 10.15, R274). -/
def sprintNow (s : State) (_q : Req) (p : Bytes) : Reply :=
  let ms := fld p 0 4
  if !(decide (ms ≤ 30000) && zeroRange p 4 4) then reply stBadArg s
  else if sprintMode s.cfg.active ≠ 2 then reply stBadState s
  else if ms = 0 then reply stOk (setSprint { s.fab.sprint with manual := none } s)
  else match (if s.fab.sprint.on then none else sprintBar s) with
    | some c => ⟨0x49, leBytes 1 c ++ zeros 7, 0, s⟩
    | none => reply stOk (setSprint { s.fab.sprint with manual := some (sprintMs s + ms) } s)

/-- Row GRAPH_SPRINT_NOW. -/
def execGraphSprintNow (io : HostIo) (s : State) : Host.Outcome State Fault Refusal :=
  done (serve { code := 0x0912, len := some 8 } io sprintNow s)

/-- GRAPH.GET_SPRINT response (Table 10.17). -/
def sprintStatus (s : State) (_p : Bytes) : Bytes :=
  let x := s.fab.sprint
  let st := if sprintLife ≤ sprintLifeMs s then 2 else if x.on then 1 else if sprintMode s.cfg.active = 0 then 3 else 0
  leBytes 1 st ++ leBytes 1 x.lastExit ++ zeros 2 ++ leBytes 4 (sprintMs s) ++ leBytes 4 (sprintWindowMs s) ++ zeros 4
    ++ leBytes 8 (sprintLifeMs s / 1000) ++ leBytes 8 x.entries

/-- Row GRAPH_GET_SPRINT. -/
def execGraphGetSprint (io : HostIo) (s : State) : Host.Outcome State Fault Refusal :=
  done (serve { code := 0x0913, len := some 0 } io (query (fun _ _ => none) sprintStatus) s)

/-! The fabric as reported (Tables 10.16 and 10.17) -/

/-- State of a graph of the active configuration. -/
def graphState (s : State) (g : Nat) : Nat :=
  let x := graphOf s g
  if x.stopped then 4 else if x.rerun.isSome then 3 else if x.run.isSome then 2
  else if !x.inq.isEmpty then 5 else 1

/-- A whole quotient rounded, its rounding free where the spec gives none. -/
def freeNat (q : Rat) : Nat := (freeRound q).toNat

/-- One graph of GRAPH.GET_HEADROOM. load_max_permille is to the nearest, as Table 10.8's 919 of 918.96 is (DEDUCED).
(DEDUCED, log entry 58) -/
def headroomGraph (state busy : Nat) (slots : List Nat) (p : Plan) : Bytes :=
  let tiles := (slots.map (· / 16)).foldl (fun l t => if l.contains t then l else l ++ [t]) []
  leBytes 1 p.graph ++ leBytes 1 state ++ leBytes 1 p.engines ++ leBytes 1 tiles.length ++ leBytes 2 (p.load * 1000 + 1 / 2).floor.toNat
    ++ leBytes 2 busy ++ leBytes 4 (freeNat (p.cost * 1000)) ++ leBytes 4 (freeNat ((p.cols : Rat) * p.rate / 1000000))
    ++ leBytes 2 p.hist ++ leBytes 2 p.halo ++ leBytes 4 (freeNat p.rerunNs) ++ leBytes 4 p.mem ++ zeros 4

/-- The header of GRAPH.GET_HEADROOM. -/
def headroomHeader (s : State) (used n : Nat) : Bytes :=
  let usable := 512 - s.fab.fab.lost.length
  leBytes 2 usable ++ leBytes 2 used ++ leBytes 2 ((List.range 32).filter (hasSpare s)).length ++ leBytes 2 s.fab.fab.retired.length
    ++ leBytes 4 ((usable - used) * 40) ++ leBytes 4 n ++ zeros 16

/-- GRAPH.GET_HEADROOM (R265): the active configuration as placed, or a plan of the staged image. -/
def headroom (s : State) (_q : Req) (p : Bytes) : Reply :=
  let which := fld p 0 1
  if !(decide (which < 2) && zeroRange p 1 7) then reply stBadArg s
  else
    let img := if which = 0 then s.cfg.active else nextImage s
    let a := if which = 0 then ⟨(plansOf img (List.range 64)).1, s.fab.fab.placed, none⟩ else admitGraphs s img
    let shown := a.plans.filter (fun q => (tfind a.slots q.graph).isSome)
    let used := sumBy (fun q => (tget [] a.slots q.graph).length) shown
    let one (q : Plan) : Bytes :=
      let st := if which = 0 || (bindCfg s.cfg.active q.graph).enable then graphState s q.graph else 0
      headroomGraph st (if which = 0 then (graphOf s q.graph).lastBusy else 0) (tget [] a.slots q.graph) q
    ⟨(match a.fail with | some e => e.2 | none => stOk), headroomHeader s used shown.length ++ shown.flatMap one, 0, s⟩

/-- Row GRAPH_GET_HEADROOM. -/
def execGraphGetHeadroom (io : HostIo) (s : State) : Host.Outcome State Fault Refusal :=
  done (serve { code := 0x0910, len := some 8 } io headroom s)

/-- One engine of GRAPH.GET_ENGINES. -/
def engineEntry (s : State) (e : Nat) : Bytes :=
  let slot := slotOfEngine s e
  let g := slot.bind (graphOnSlot s)
  let recent := match tfind s.fab.fab.transients e with | some t => decide (since s t < secTicks 3600) | none => false
  let st := if retiredEngine s e then 3 else match slot with
    | none => 2
    | some _ => if g.isSome then 1 else 0
  leBytes 1 st ++ leBytes 1 (if st = 3 then 0xFF else match slot with | some k => k % 16 | none => 16) ++ leBytes 1 (g.getD 0xFF)
    ++ leBytes 1 (b2n recent)

/-- GRAPH.GET_ENGINES response. -/
def engineTable (s : State) : Bytes := (List.range 544).flatMap (engineEntry s)

/-- Row GRAPH_GET_ENGINES. -/
def execGraphGetEngines (io : HostIo) (s : State) : Host.Outcome State Fault Refusal :=
  done (serve { code := 0x0911, len := some 0 } io (query (fun _ _ => none) (fun s _ => engineTable s)) s)

/-- GRAPH.READ_CUT_LIST: an active or staged cut list to resp_addr. -/
def readCutList (s : State) (q : Req) (p : Bytes) : Reply :=
  let g := fld p 0 1
  if !(respIndirect q.flags && decide (g < 64) && decide (fld p 1 1 < 2) && zeroRange p 2 6) then reply stBadArg s
  else replyOk (settingIn (if fld p 1 1 = 0 then s.cfg.active else nextImage s) 0x0900 g []) s

/-- Row GRAPH_READ_CUT_LIST. -/
def execGraphReadCutList (io : HostIo) (s : State) : Host.Outcome State Fault Refusal :=
  done (serve { code := 0x0914, len := some 8 } io readCutList s)

end Sys2Proof.Machine
end

