-- ==== Sys2Proof/Machine/Regions.lean ====
section
/-! DEFINITION. Closed regions: records, tiles and action rules, and the RGN commands (R107, R307, R309, R312, R315 to R322). -/

namespace Sys2Proof.Machine

/-! Contexts that were fetched (R307) -/

/-- The work of CONTEXT_FETCH_DONE: the contexts that a held row lacks are in cache, and the row goes on. -/
def contextFetchDone (g : Nat) (s : State) : State :=
  let x := graphOf s g
  if !x.held then s
  else
    let s1 := setGraph g { x with held := false } s
    let fetched (p : Plan) (run : Run) : State := match labels p with
      | some k => touchCache (missingContexts s p k run) s1
      | none => s1
    match x.run, x.inq, x.fwd with
    | some run, _, u :: _ => match nextGroup run.plan (sameStart s g run.plan u x.fwd) with
      | some (e, us) => fetched run.plan (runWith s e us run)
      | none => s1
    | some run, r :: _, [] => match sourceRows run.plan r with
      | some rows =>
        let m := metaOf (graphGrid (genImage s r.generation) run.plan) r.generation r.digest rows
        fetched run.plan { run with ops := passRow run.plan run.prime m rows run.ops }
      | none => s1
    | _, _, _ => s1

/-- Row CONTEXT_FETCH_DONE. (DESIGN CHOICE, log entry 61) -/
def execContextFetchDone (graph : Nat) (s : State) : Host.Outcome State Fault Refusal := done (contextFetchDone graph s)

/-! Records (Table 12.1) -/

/-- What is known of a classified region: its record fields from area on (38 bytes from 0x18, cls and rflags apart), its tag. -/
structure RegRec where
  graph : Nat
  cls : Nat
  rflags : Nat
  area : Nat
  len : Nat
  col0 : Nat
  col1 : Nat
  feats : List Int
  xMin : Int
  xMax : Int
  pos0 : Int
  pos1 : Int
  flags : Nat
  head : Nat
  stream : Nat
  generation : Nat
  digest : Nat
  paramSet : Nat
  dc : Nat
  pitch : Nat
  /-- the numbers that the region's device gave it, the split that it continues and the split that ended it; 0 for none -/
  own : Nat
  continues : Nat
  split : Nat
  settings : Bytes
  deriving DecidableEq, Repr

/-- region_id (R316). -/
def regionId (g seq : Nat) : Nat := g * 2 ^ 56 + seq

/-- The 64 bytes of a record. -/
def recordBytes (id cont : Nat) (r : RegRec) : Bytes :=
  let b := leBytes 8 id ++ leBytes 8 cont ++ leInt 4 r.xMin ++ leInt 4 r.xMax ++ leBytes 4 r.area ++ leBytes 4 r.len ++ leBytes 2 r.col0
    ++ leBytes 2 r.col1 ++ leBytes 1 r.cls ++ leBytes 1 r.graph ++ leBytes 2 (r.rflags % 65536) ++ r.feats.flatMap (leInt 4)
  b ++ leBytes 4 (crc32c b)

/-- The unit of a record. -/
def recordUnit (s : State) (id cont : Nat) (r : RegRec) : DUnit :=
  { src := ⟨2, r.graph, 0, r.cls⟩, tagType := 2, flags := r.flags, head := r.head, stream := r.stream, generation := r.generation
    startPos := r.pos0, endPos := r.pos1, deviceCount := r.dc, tvSelNs := tvAt s r.dc, tvEpoch := tvEpochAt s r.dc, paramSet := r.paramSet
    shortDigest := r.digest, deviceId := tagDevice s, trellisId := tagTrellis s, payload := [.raw (recordBytes id cont r)] }

/-! Tiles (R320, R321) -/

/-- The columns of a stream whose centre lies in a cross-strip range of µm: first and number. -/
def tileColumns (img : Image) (n : Nat) (lo hi : Int) : Option (Nat × Nat) := match streamCfg img n with
  | none => none
  | some d =>
    let on := (List.range d.columns).filter (fun c => decide (lo * 1000000 ≤ columnPm img n c) && decide (columnPm img n c ≤ hi * 1000000))
    match on.head?, on.getLast? with
    | some a, some b => some (a, b + 1 - a)
    | _, _ => none

/-- The streams that give a tile its sub-tiles: selected, with at least one column in range. -/
def tileStreams (img : Image) (mask : Nat) (lo hi : Int) : List Nat := (setBits 128 mask).filter (fun n => (tileColumns img n lo hi).isSome)

/-- The tile cut of a region. -/
def tileOf (img : Image) (id : Nat) (r : RegRec) (now : Nat) : TileCut :=
  let c := rgnCfgOf r.settings
  let lo := r.xMin - (c.marginUm : Int)
  let hi := r.xMax + (c.marginUm : Int)
  let reach : Int := (c.marginNm + r.pitch : Nat)
  { graph := r.graph, region := id, head := r.head, stream := r.stream, generation := r.generation, digest := r.digest
    paramSet := r.paramSet, rerun := bitOf r.rflags 8, rangeStart := r.pos0 - reach, rangeEnd := r.pos1 + reach, xLo := lo, xHi := hi
    streams := tileStreams img c.streams lo hi, queuedAt := now }

/-- The tile cuts that the FIFO holds. -/
def tileFifo : Nat := 4096

/-! Action rules (R107) -/

/-- The outputs of a matching rule whose band overlaps the region's extent. -/
def ruleActs (img : Image) (c : RuleCfg) (r : RegRec) : List Nat :=
  (setBits 16 c.actMask).filter (fun a =>
    let x := actCfg img a
    decide (r.xMin < x.bandHi) && decide (x.bandLo ≤ r.xMax))

/-- Whether a rule matches a region. -/
def ruleMatches (c : RuleCfg) (r : RegRec) : Bool :=
  c.enable && (match c.graph with | some g => g == r.graph | none => true) && bitOf c.classMap r.cls && decide (c.minArea ≤ r.area)

/-- Run the action rules on a region: in ascending rule, marks on each selected output. -/
def runRules (id : Nat) (r : RegRec) (s : State) : State :=
  (List.range 64).foldl (fun t k =>
    let img := posImage t
    let c := ruleCfg img k
    if !ruleMatches c r then t
    else (ruleActs img c r).foldl (fun t a =>
      let x := actCfg img a
      (scheduleMark a x.length (r.pos0 + (c.distance : Int) - (x.lead : Int)) (r.pos1 + (c.distance : Int) + (x.trail : Int)) c.fireLate id t).2)
      (bump 5 576 t)) s

/-! Emitting a classified region (R315 to R319) -/

/-- The tile of a record goes into the FIFO, when its class asks for one: whether it is queued. No tile is queued in thermal STOP
(R425). -/
def queueTile (id : Nat) (r : RegRec) (s : State) : Bool × State :=
  let c := rgnCfgOf r.settings
  if !(c.tiles && bitOf c.classes r.cls) || s.fault.stop then (false, s)
  else if tileFifo ≤ s.fab.rgn.tiles.length then (false, bump 10 (r.graph * 16 + 12) s)
  else (true, setRgn { s.fab.rgn with tiles := s.fab.rgn.tiles ++ [tileOf (genImage s r.generation) id r (dcNow s)] } s)

/-- The key of a split of a start of a graph. -/
def splitKey (start split : Nat) : Nat := start * 2 ^ 40 + split

/-- The region_id of the record that a region continues (R312, Table 12.1): 0 where it continues none, or one that was withheld. -/
def continuesFrom (start : Nat) (r : RegRec) (s : State) : Nat :=
  if bitOf r.rflags 2 then tget 0 (graphOf s r.graph).ids (splitKey start r.continues) else 0

/-- Remember the record of a split head for the region that continues it. -/
def noteHead (start id : Nat) (r : RegRec) (s : State) : State :=
  if bitOf r.rflags 1 then
    setGraph r.graph { graphOf s r.graph with ids := tput (graphOf s r.graph).ids (splitKey start r.split) id } s
  else s

/-- The records that a start of a graph has emitted (R316). -/
def emittedBy (x : GraphSt) (start : Nat) : Nat := if x.start = start then x.seq else tget 0 x.past start

/-- Emit or withhold the record of a classified region of a start of its graph, queue its tile, and run the action rules. -/
def emitRegion (start : Nat) (r : RegRec) (s : State) : State :=
  let g := r.graph
  let x := graphOf s g
  let limit := (rgnCfgOf r.settings).limit
  if limit != 0 && decide (limit ≤ x.records) then
    let s1 := bump 10 (g * 16 + 8) (if x.limitRaised then s else raise 0x0802 1 g limit 0 (setGraph g { x with limitRaised := true } s))
    runRules 0 r (noteHead start 0 r s1)
  else
    let n := emittedBy x start + 1
    let id := regionId g n
    let s1 := setGraph g (if x.start = start then { x with
      seq := n, records := x.records + 1
      run := x.run.map (fun run => { run with records := (id, r.pos1) :: run.records.take 65535 }) }
      else { x with past := tset 0 x.past start n, records := x.records + 1 }) s
    let t := queueTile id r s1
    let r' := { r with rflags := r.rflags + 64 * b2n t.1 }
    let s2 := bump 10 (g * 16 + 1) (handUnit (recordUnit t.2 id (continuesFrom start r s) r') t.2)
    runRules id r' (noteHead start id r s2)

/-- A closed region, classified (R303 to R305, R318). -/
def classify (c : Closed) : RegRec :=
  let a := c.region.acc
  let f := features a
  let sel := (rgnCfgOf c.settings).select
  { graph := c.graph, cls := classOf c.classifier f, rflags := c.rflags, area := a.area, len := (a.row1 - a.row0 + 1).toNat, col0 := a.col0
    col1 := a.col1, feats := sel.map (nthD 0 f), xMin := c.xMin, xMax := c.xMax, pos0 := a.pos0, pos1 := a.pos1
    flags := a.flags ||| (if 1 < a.gens.length then 128 else 0) ||| (if bitOf c.rflags 8 then 8 else 0), head := c.head, stream := c.stream
    generation := a.generation, digest := a.digest, paramSet := a.paramSet, dc := c.dc, pitch := c.pitch, own := c.region.id
    continues := c.region.continues, split := c.region.split, settings := c.settings }

/-- Whether closure discards a region without a record: too small, or without a core member (R302, R315). -/
def tooSmall (c : Closed) : Bool := decide (c.region.acc.area < c.minArea)
def noCore (c : Closed) : Bool := c.core && !bitOf c.region.acc.polarity 1

/-- The work of REGION_CLOSE: the oldest closed region. TARGET sends the record to ORIGIN, which numbers it and acts on it (R277, R316). -/
def regionClose (s : State) : State := match s.fab.rgn.closing with
  | [] => s
  | c :: rest =>
    let s1 := setRgn { s.fab.rgn with closing := rest } s
    if tooSmall c then bump 10 (c.graph * 16 + 2) s1
    else if noCore c then s1
    else
      let r := classify c
      if c.target then
        let u := recordUnit s1 (regionId c.graph (if r.split = 0 then r.own else r.split)) (if c.region.tail then regionId c.graph r.continues else 0) r
        let b := unitBytes u
        bump 9 (c.graph * 16 + 7) (toPeer c.graph 4 2 0 r.pos0 (tagBytes u b.length ++ b) s1)
      else emitRegion c.start r s1

/-- What ORIGIN remembers of a row at a position. -/
def originMeta (s : State) (g : Nat) (pos : Int) : Option RowMeta := match (graphOf s g).run with
  | some run => run.ops.metas.find? (fun m => m.g == pos)
  | none => none

/-- The generation under which ORIGIN made the row at a position. -/
def originGeneration (s : State) (g : Nat) (pos : Int) : Nat := match originMeta s g pos with
  | some m => m.generation
  | none => s.cfg.generation

/-- A record that TARGET returned, as ORIGIN takes it: the tag of its row, then the record; columns are placed on ORIGIN's strip. -/
def returnedRecord (s : State) (g : Nat) (b : Bytes) : RegRec :=
  let gen := originGeneration s g (sfld b 0x18 8)
  let img := genImage s gen
  let q := b.drop 64
  let src := (bindCfg img g).srcs.headD 0
  let p := match (graphOf s g).run with | some run => some run.plan | none => none
  let fx := match p with
    | some p => (match labels { p with role := 0 } with
      | some k => (match shapeOf p.cut.ops (labelInput p k) with | some sh => sh.fx | none => 1)
      | none => 1)
    | none => 1
  let cols := match p with | some p => p.cols | none => 1
  let x := columnBounds img src (fld q 0x20 2 * fx) (min (cols - 1) ((fld q 0x22 2 + 1) * fx - 1))
  { graph := g, cls := fld q 0x24 1, rflags := fld q 0x26 2, area := fld q 0x18 4, len := fld q 0x1C 4, col0 := fld q 0x20 2
    col1 := fld q 0x22 2, feats := (List.range 5).map (fun i => sfld q (0x28 + 4 * i) 4), xMin := x.1, xMax := x.2
    pos0 := sfld b 0x10 8, pos1 := sfld b 0x18 8, flags := fld b 3 1, head := (if src < 128 then streamHead img src else 0xFFFF)
    stream := src, generation := gen, digest := fld b 0x34 4, paramSet := fld b 0x32 2, dc := dcNow s
    pitch := (match p with | some p => (graphGrid img p).2 | none => 0), own := fld q 0 8 % 2 ^ 56, continues := fld q 8 8 % 2 ^ 56
    split := fld q 0 8 % 2 ^ 56
    settings := rgnBytes img g }

/-- ORIGIN acts on a record that TARGET returned: it numbers it. -/
def takeRecord (g : Nat) (b : Bytes) (s : State) : State := emitRegion (graphOf s g).start (returnedRecord s g b) s

/-! Cutting a tile (R320 to R322, Table 12.3) -/

/-- Whether the index no longer tells of a line of a stream at or beyond a position: it was overwritten long before (R322). -/
def forgotFrom (s : State) (img : Image) (n : Nat) (a : Int) : Bool := match tfind s.ing.lb.forgotten n with
  | some p => decide (a ≤ p + downOffset img n)
  | none => false

/-- A sub-tile as cut: its payload, the lines it has and lacks, and the flags of its lines. -/
structure SubTile where
  chunks : List Chunk
  lines : Nat
  /-- lines in range that are left out (R322) -/
  missing : List LbLine
  /-- lines in range of which the index no longer tells -/
  forgot : Bool
  clipped : Bool
  flags : Nat
  rebuilt : List LbLine
  deriving DecidableEq, Repr

/-- The lines of a stream in a range of the strip, in ascending position, overwritten ones too. -/
def tileLines (s : State) (img : Image) (n : Nat) (a b : Int) : List LbLine :=
  (s.ing.lb.lines.filter (fun l => l.stream == n && l.pos.isSome && decide (a ≤ stripPos img l) && decide (stripPos img l ≤ b))).foldl
    (fun acc l => insertByPos l acc) []

/-- Cut one sub-tile. -/
def cutSub (s : State) (img : Image) (t : TileCut) (n : Nat) : SubTile :=
  let col := (tileColumns img n t.xLo t.xHi).getD (0, 0)
  let c0 := if 4096 < col.2 then col.1 + (col.2 - 4096) / 2 else col.1
  let cn := min 4096 col.2
  let all := tileLines s img n t.rangeStart t.rangeEnd
  let inRange := all.take 4096
  let good := inRange.filter (fun l => !overwritten s l)
  let missing := inRange.filter (overwritten s)
  let fmt := match streamCfg img n with | some c => c.format | none => 0
  let bits := containerBits fmt
  let ws := match streamCfg img n with | some c => formatDepth c.format | none => 8
  let reb (l : LbLine) : Bool := readsRebuilt s l
  let entry (l : LbLine) : List Chunk :=
    [.raw (arrivalRecord l), .pix ws bits false ((((linePixels l).drop c0).take cn).map Int.ofNat)]
  let header : List Chunk := [.raw (leBytes 1 n ++ leBytes 1 fmt ++ leBytes 2 c0 ++ leBytes 2 cn ++ zeros 2 ++ leBytes 4 good.length
    ++ leBytes 4 missing.length), .lineLen ws bits cn, .raw (zeros 12)]
  { chunks := header ++ good.flatMap entry, lines := good.length, missing := missing
    forgot := forgotFrom s img n t.rangeStart
    clipped := decide (4096 < col.2) || decide (4096 < all.length)
    flags := good.foldl (fun m l => m ||| (l.flags &&& 0x2F) ||| (if reb l then 64 else 0)) 0
    rebuilt := good.filter reb }

/-- The bytes of a stretch of a tile in the streams' own containers: a line's pixels are padded to 8 bytes (Table 12.3). -/
def tileBytes (c : Chunk) : Nat := match c with
  | .pix _ _ _ _ => pad8 (nativeBytes c).length
  | _ => (nativeBytes c).length

/-- Cut a tile: its unit, which goes straight into a furrow, and what the cut counts. -/
def cutTile (t : TileCut) (expired : Bool) (s : State) : DUnit × State :=
  let img := genImage s t.generation
  let subs := (t.streams.take 16).map (cutSub s img t)
  let missing := sumBy (·.missing.length) subs
  let lines := sumBy (·.lines) subs
  let clipped := decide (16 < t.streams.length) || subs.any (·.clipped)
  let part := missing != 0 || lines == 0 || subs.any (·.forgot)
  let flags := subs.foldl (fun m x => m ||| x.flags) 0 ||| (if part then 16 else 0) ||| (if t.rerun then 8 else 0)
  let head : Bytes := leBytes 8 t.region ++ leBytes 2 subs.length ++ leBytes 2 (b2n clipped + 2 * b2n expired) ++ leBytes 4 missing
    ++ leInt 8 t.rangeStart ++ leInt 8 t.rangeEnd ++ leInt 4 t.xLo ++ leInt 4 t.xHi ++ zeros 24
  let u : DUnit :=
    { src := ⟨3, t.graph, 0, 0⟩, tagType := 3, flags := flags, head := t.head, stream := t.stream, generation := t.generation
      startPos := t.rangeStart, endPos := t.rangeEnd, deviceCount := dcNow s, tvSelNs := tvAt s (dcNow s), tvEpoch := s.time.sel.epoch
      paramSet := t.paramSet, shortDigest := t.digest, deviceId := tagDevice s, trellisId := tagTrellis s
      payload := .raw head :: subs.flatMap (·.chunks) }
  let bytes := sumBy tileBytes u.payload
  let g := t.graph
  let s1 := bumpBy 10 (g * 16 + 14) bytes (bumpBy 10 (g * 16 + 11) missing (bump 10 (g * 16 + 9) 
    ((subs.flatMap (·.rebuilt)).foldl (fun t l => countRebuilt l t)
      (((t.streams.take 16).zip subs).foldl (fun u e => countOverwritten e.1 e.2.missing u) s))))
  let s2 := if part then bump 10 (g * 16 + 10) s1 else s1
  (u, setRgn { s2.fab.rgn with tileBytes := s2.fab.rgn.tileBytes + bytes } s2)

/-- Whether every selected stream holds a line at or beyond a tile's range end (R321). -/
def tileReady (s : State) (t : TileCut) : Bool :=
  let img := genImage s t.generation
  t.streams.all (fun n => match (streamSt s n).newest with
    | some p => decide (t.rangeEnd ≤ p + (match streamCfg img n with | some c => (geomCfg img c.head).down | none => 0))
    | none => false)

/-! Commands (Table 12.11) -/

/-- RGN.GET_STATUS response. -/
def rgnStatus (s : State) (_p : Bytes) : Bytes :=
  let img := s.cfg.active
  let free := poolSize - sumBy (fun k => (rgnCfg img k).quota) (List.range 64) - pooledElsewhere s img 64
  let r := s.fab.rgn
  leBytes 4 (contextsInUse s) ++ leBytes 4 r.lastPeak ++ leBytes 4 free ++ leBytes 2 r.tiles.length ++ zeros 2 ++ leBytes 4 r.lastTileMbs
    ++ leBytes 4 r.lastClosures ++ zeros 8

/-- Row RGN_GET_STATUS. -/
def execRgnGetStatus (io : HostIo) (s : State) : Host.Outcome State Fault Refusal :=
  done (serve { code := 0x0A10, len := some 0 } io (query (fun _ _ => none) rgnStatus) s)

/-- The checks of RGN.GET_GRAPH and RGN.FLUSH: a graph that is RUNNING, RERUNNING or PRIMING. -/
def rgnGraphCheck (s : State) (p : Bytes) : Option Nat :=
  let g := fld p 0 1
  let st := graphState s g
  if !(decide (g < 64) && zeroRange p 1 7) then some stBadArg
  else if !(bindCfg s.cfg.active g).enable || st = 1 || st = 4 then some 0x43
  else none

/-- RGN.GET_GRAPH response. -/
def rgnGraph (s : State) (p : Bytes) : Bytes :=
  let g := fld p 0 1
  let x := graphOf s g
  let open' := openRegions x
  let oldest := (open'.map (fun e => e.2.acc.pos0)).min?
  leBytes 4 open'.length ++ leBytes 4 (rgnCfg s.cfg.active g).quota ++ leBytes 8 (regionId g (x.seq + 1)) ++ leInt 8 (oldest.getD 0)
    ++ leBytes 4 x.records ++ zeros 4

/-- Row RGN_GET_GRAPH. -/
def execRgnGetGraph (io : HostIo) (s : State) : Host.Outcome State Fault Refusal :=
  done (serve { code := 0x0A11, len := some 8 } io (query rgnGraphCheck rgnGraph) s)

/-- RGN.FLUSH: every open region closes at the next row boundary (R312); between two rows that is now, in a re-run when it ends. -/
def rgnFlush (s : State) (_q : Req) (p : Bytes) : Reply := match rgnGraphCheck s p with
  | some st => reply st s
  | none =>
    let g := fld p 0 1
    let x := graphOf s g
    let n := (openRegions x).length
    let s1 := setGraph g { x with flush := true } s
    let s2 := match x.run with
      | some run => if x.rerun.isSome || x.held then s1 else (flushRun g run s1).2
      | none => s1
    replyOk (leBytes 4 n ++ zeros 4) s2

/-- Row RGN_FLUSH. -/
def execRgnFlush (io : HostIo) (s : State) : Host.Outcome State Fault Refusal :=
  done (serve { code := 0x0A12, len := some 8 } io rgnFlush s)

end Sys2Proof.Machine
end

