-- ==== Sys2Proof/Machine/Lane.lean ====
section
/-! DEFINITION. The serial lanes: reference inputs, adaptation, training, locks, the Graft link's receiver, test loops,
and the LANE commands (chapter 6). -/

namespace Sys2Proof.Machine

/-! Ports -/

/-- A lane of a port that goes down: to AUTONEG, or to ALIGNING without AN (R160). One that calibrates goes there when its calibration
ends. -/
def Lane.portDown (x : Lane) : Lane :=
  let y := if x.set.an then { x with st := lsAutoneg, locked := false, tries := 0 } else x.align
  if x.st = lsCalibrating then { y with st := lsCalibrating, calFrom := y.st } else y

/-- A lane in AUTONEG advertises exactly its mode and FEC value (R146). -/
def advertise (l : Nat) (s : State) : State :=
  let x := laneOf s l
  if x.st = lsAutoneg then emit (.advertise l x.set.mode x.set.fec) s else s

/-- Set a lane that may enter AUTONEG. -/
def enterLane (l : Nat) (x : Lane) (s : State) : State := advertise l (setLane l x s)

/-- A lane's state, or the one that a calibration took it out of. -/
def Lane.service (x : Lane) : Nat := if x.st = lsCalibrating then x.calFrom else x.st

/-- A field port goes down: every lane of it that is in service returns to AUTONEG or ALIGNING (R160), and its heads see a
link loss. -/
def dropPort (first : Nat) (s : State) : State :=
  let lanes := (laneGroup s first).filter (fun l =>
    let st := (laneOf s l).service
    st == lsUp || st == lsAligning || st == lsTraining)
  portWentDown first (lanes.foldl (fun t l => enterLane l (laneOf t l).portDown t) s)

/-! Reference inputs (R143) -/

/-- The lanes a reference input serves. -/
def refclkLanes (input : Nat) : List Nat := if input < 4 then (List.range 16).map (· + 16 * input) else []

/-- A lane leaves service: out of its Graft group's maps, or its port goes down. -/
def laneOutOfService (l : Nat) (s : State) : State :=
  let x := laneOf s l
  if x.set.mode == modeGraft then
    if bitOf (graftOf s x.set.first).rxMap (l - x.set.first) then restripeOut l s else s
  else if x.service == lsUp then dropPort x.set.first s
  else s

/-- Row REFCLK_LOST: every lane the input serves enters FAULT with REFCLK_LOST. -/
def execRefclkLost (input : Nat) (s : State) : Host.Outcome State Fault Refusal :=
  done ((refclkLanes input).foldl (fun t l =>
    modLane l (fun x => { x.flag flRefclkLost true with st := lsFault, locked := false }) (laneOutOfService l t)) s)

/-! Adaptation (R149 to R152) -/

/-- Whether a lane's receiver adapts: TX_ASSISTED, in service, and not frozen. -/
def Lane.adapts (x : Lane) : Bool :=
  !x.eq.fixed && (x.st == lsUp || x.st == lsTraining || x.st == lsRetraining || x.st == lsAligning) && !x.has flFrozen

/-- Whether a window's density of level changes is below 30 % (65,536 UIs). -/
def lowDensity (transitions : Nat) : Bool := decide (transitions * 100 < 30 * 65536)

/-- Row ADAPTATION_FREEZE: low density in a 65,536-UI window, or 4,096 consecutive idle or control blocks. -/
def execAdaptationFreeze (lane transitions idleRun : Nat) (s : State) : Host.Outcome State Fault Refusal :=
  done (
    let x := laneOf s lane
    if x.adapts && (lowDensity transitions || decide (4096 ≤ idleRun)) then
      bump 2 (lane * 16 + 8) (setLane lane (x.flag flFrozen true) s)
    else s)

/-- Row ADAPTATION_RESUME: a window of enough density that contains a data block. -/
def execAdaptationResume (lane transitions : Nat) (dataBlock : Bool) (s : State) : Host.Outcome State Fault Refusal :=
  done (
    let x := laneOf s lane
    if x.has flFrozen && !lowDensity transitions && dataBlock then setLane lane (x.flag flFrozen false) s else s)

/-- The wander bound (R150). -/
def wander : Int := 6

/-- A tap's value: 0 to 23 the FFE taps, 24 the DFE, 25 the CTLE (Table 6.16). -/
def coefGet (c : Coeffs) (tap : Nat) : Int :=
  if tap < 24 then nthD 0 c.ffe tap else if tap = 24 then c.dfe else (c.ctle : Int)

/-- Set a tap, within the codes it has. -/
def coefPut (c : Coeffs) (tap : Nat) (v : Int) : Coeffs :=
  if tap < 24 then { c with ffe := c.ffe.set tap (clampInt (-128) 127 v) }
  else if tap = 24 then { c with dfe := clampInt (-128) 127 v }
  else { c with ctle := (clampInt 0 31 v).toNat }

/-- The coefficients that adaptation has reached, each within ±6 steps of its anchor once anchors have been recorded (R150). -/
def Lane.boundedCoeffs (x : Lane) (c : Coeffs) : Coeffs :=
  (List.range 26).foldl (fun r t => coefPut r t (
    if x.hasAnchor then clampInt (coefGet x.anchor t - wander) (coefGet x.anchor t + wander) (coefGet c t) else coefGet c t)) {}

/-- Take what a lane's adaptation has reached since it was last seen. -/
def Lane.adaptTo (x : Lane) (c : Coeffs) : Lane :=
  if x.adapts then
    let b := x.boundedCoeffs c
    let off := (List.range 26).filter (fun t => bitOf x.atBound t && decide ((coefGet b t - coefGet x.anchor t).natAbs < 6))
    { x with coeffs := b, atBound := off.foldl (fun m t => m - 2 ^ t) x.atBound }
  else x

/-- Row BOUND_HIT: a coefficient holds at its bound; the third hit in a period sets MARGIN_DEGRADED and raises
LANE_MARGIN once (R150, R151). (DESIGN CHOICE, log entry 48) -/
def execBoundHit (lane tap : Nat) (upper : Bool) (s : State) : Host.Outcome State Fault Refusal :=
  done (
    let x := laneOf s lane
    if !(x.adapts && x.hasAnchor && decide (tap < 26)) then s else
      let y := { x.flag flWander true with
        coeffs := coefPut x.coeffs tap (coefGet x.anchor tap + if upper then wander else -wander)
        atBound := x.atBound ||| 2 ^ tap, hits := min 255 (x.hits + 1) }
      let s1 := bump 2 (lane * 16 + 9) (setLane lane y s)
      if y.hits < 3 || y.marginRaised then s1
      else raise 0x0401 2 lane y.atBound 0 (setLane lane { y.flag flMargin true with marginRaised := true } s1))

/-- A period boundary restarts the bound-hit counts (R151). -/
def lanePeriod (s : State) : State :=
  { s with lane := { s.lane with
    lanes := (List.range 64).foldl (fun t l =>
      tmod (laneDefault l) t l (fun x => { x with hits := 0, marginRaised := false })) s.lane.lanes } }

/-- Anchors taken: WANDER and MARGIN_DEGRADED clear (R150, R152). -/
def Lane.anchored (x : Lane) (now : Nat) : Lane :=
  { (x.flag flWander false).flag flMargin false with
    anchor := x.coeffs, hasAnchor := true, atBound := 0, anchorDc := now, reanchor := false }

/-- A Graft lane pair leaves its maps for a full retrain: a trim that waits for the lane is discarded, and the retrain counted (R152, R168,
Table 6.18). -/
def retrainOut (l : Nat) (s : State) : State := bump 2 (l * 16 + 10) (restripeOut l (discardLaneTrim l s))

/-- A lane is re-anchored or retrained (R152): a Graft lane of a group with another active lane retrains in full, any other
re-anchors at its next idle or control block. -/
def retrainLane (l : Nat) (s : State) : State :=
  let x := laneOf s l
  if x.eq.fixed || x.st != lsUp then s
  else if x.set.mode == modeGraft && decide (2 ≤ activeLanes (graftOf s x.set.first).txMap) then
    retrainOut l s
  else setLane l { x with reanchor := true } s

/-- Row REANCHOR: an idle or control block comes while a re-anchor is due; it discards a trim that waits for that block (R152). -/
def execReanchor (lane : Nat) (now : Coeffs) (s : State) : Host.Outcome State Fault Refusal :=
  done (
    let x := laneOf s lane
    if x.reanchor && x.st == lsUp then
      bump 2 (lane * 16 + 10) (setLane lane ((x.adaptTo now).anchored (dcNow s)) (discardLaneTrim lane s))
    else s)

/-! Training (R154 to R156) -/

/-- A change that a request code asks of a tap: the tap after it and the answer (Table 6.4). -/
def tapRequest (code top v : Nat) : Nat × Nat :=
  if code = 1 then (if top ≤ v then (v, 3) else (v + 1, 1))
  else if code = 2 then (if v = 0 then (v, 2) else (v - 1, 1))
  else (v, 0)

/-- The taps after a control field, and the status field's answers without RX_READY. The main tap is 64 - pre - post, so
a request for it alone is not updated; a preset sets every tap. -/
def applyControl (control pre post : Nat) : Nat × Nat × Nat :=
  let preset := bitsOf control 6 2
  if preset = 1 then (0, 0, 0x15)
  else if preset = 2 then (4, 12, 0x15)
  else
    let a := tapRequest (bitsOf control 0 2) 16 pre
    let b := tapRequest (bitsOf control 4 2) 24 post
    (a.1, b.1, a.2 + 16 * b.2)

/-- Whether a lane is in an attempt with training frames. -/
def Lane.framing (x : Lane) : Bool :=
  x.set.mode == modeGraft && !x.eq.fixed && (x.st == lsTraining || (x.st == lsRetraining && !x.trained))

/-- Row TRAINING_FRAME_RX: the partner's requests move the taps and are answered, its RX_READY is counted while this side
sends it too, and a position other than the lane's own is LANE_ORDER and FAULT (R155, R156). `wish` is this side's own
control field and `satisfied` its RX_READY. -/
def execTrainingFrameRx (lane control status identity wish : Nat) (satisfied : Bool) (s : State) :
    Host.Outcome State Fault Refusal :=
  done (
    let x := laneOf s lane
    if !x.framing then s
    else if bitsOf identity 8 8 != lanePosition x lane then setLane lane { x.flag flLaneOrder true with st := lsFault, locked := false } s
    else
      let r := applyControl control x.pre x.post
      let run := if bitOf status 8 && satisfied then min 32 (x.readyRun + 1) else 0
      emit (.trainFrame lane wish (r.2.2 + 256 * b2n satisfied) (lane + 256 * lanePosition x lane))
        (setLane lane { x with pre := r.1, post := r.2.1, readyRun := run } s))

/-- Row TRAINING_END: after 32 frames with RX_READY both ways, or by the PHY's procedure, the coefficients are the anchors
and the lane aligns; a retrained Graft lane waits for its re-admission (R150, R155, Table 6.5). The PHY's training has moved a field
lane's taps by the partner's requests, within their ranges (R153). -/
def execTrainingEnd (lane : Nat) (now : Trained) (s : State) : Host.Outcome State Fault Refusal :=
  done (
    let x := laneOf s lane
    let graft := x.set.mode == modeGraft
    if !(if graft then x.framing && x.readyRun == 32 else x.st == lsTraining) then s else
      let y := ({ x with
        coeffs := now.coeffs, pre := if graft then x.pre else min 16 now.pre, post := if graft then x.post else min 24 now.post
        trainingMs := since s x.trainStart / msTicks 1, tries := 0, readyRun := 0 }).anchored (dcNow s)
      let z := if x.st == lsRetraining then { y with trained := true } else y.align
      let s1 := setLane lane z s
      if graft then emit (.marker lane (markerBlock (lanePosition x lane) (graftOf s x.set.first))) s1 else s1)

/-- Row TRAINING_TIMEOUT: a Graft attempt that lasts 100 ms, or a failure of the PHY's training; the third in a row is
TRAIN_FAIL and FAULT (R154, R155). -/
def execTrainingTimeout (lane : Nat) (s : State) : Host.Outcome State Fault Refusal :=
  done (
    let x := laneOf s lane
    let graft := x.set.mode == modeGraft
    if !(if graft then x.framing && decide (msTicks 100 ≤ since s x.trainStart) else x.st == lsTraining) then s
    else if 2 ≤ x.tries then setLane lane { x.flag flTrainFail true with st := lsFault, tries := 0, locked := false } s
    else if graft then setLane lane { x with tries := x.tries + 1, trainStart := dcNow s, readyRun := 0 } s
    else enterLane lane { x with st := lsAutoneg, tries := x.tries + 1 } s)

/-- Row AUTONEG_RESOLVED: the port's lanes go on to TRAINING, or to ALIGNING where none is done; without a common mode
they stay with AN_NO_COMMON (R146). `partner` is what the partner advertises, modes with FEC values; only the configured mode with its
FEC value is common. (DEDUCED, log entry 90) -/
def execAutonegResolved (lane : Nat) (partner : List (Nat × Nat)) (s : State) : Host.Outcome State Fault Refusal :=
  done ((laneGroup s lane).foldl (fun t l =>
    let x := laneOf t l
    if x.st != lsAutoneg then t
    else if !partner.contains (x.set.mode, x.set.fec) then setLane l (x.flag flAnNoCommon true) t
    else
      let y := x.flag flAnNoCommon false
      setLane l (if y.trains then y.train (dcNow t) else y.align) t) s)

/-- Row SIGNAL_ENERGY_CHANGE: NO_SIGNAL follows the energy at the receiver (Table 6.5). -/
def execSignalEnergyChange (lane : Nat) (present : Bool) (s : State) : Host.Outcome State Fault Refusal :=
  done (modLane lane (fun x =>
    let y := { x with energy := present }
    if x.st == lsOff then y else y.flag flNoSignal (!present)) s)

/-- The steps 13 and 14 of a cold start, as its host brings the lanes up: the commit of lanes that applies, then every committed lane UP
(Table 15.10). -/
def coldStage (stage : Nat) (s : State) : State :=
  let x := s.start
  if x.kind = 0 && x.ready && x.stage + 1 = stage
  then { s with start := { x with
    stage := stage, durationMs := x.durationMs + since s x.stageDc / msTicks 1, stageDc := (x.stageDc + since s x.stageDc / msTicks 1 * msTicks 1) % 2 ^ 64 } }
  else s

/-- Step 14 once every lane that has a mode is UP. -/
def lanesUp (s : State) : State :=
  let on := (List.range 64).filter (fun l => (laneSet (posImage s) l).mode != 0)
  if s.start.stage = 13 && !on.isEmpty && on.all (fun l => (laneOf s l).st == lsUp) then coldStage 14 s else s

/-! Locks (R158 to R160) -/

/-- Lock of one lane: NO_LOCK clears. -/
def Lane.lock (x : Lane) : Lane := { x.flag flNoLock false with locked := true }

/-- A lane enters UP. -/
def Lane.goUp (x : Lane) (now : Nat) : Lane := { x with st := lsUp, upSince := now, anchorDc := if x.anchorDc = 0 then now else x.anchorDc }

/-- A group whose lanes are all locked comes up: a field port, or a Graft group with every lane in both maps and its
round trip measured (Table 6.5, R163). -/
def groupLocked (first roundTripPs : Nat) (s : State) : State :=
  let c := (laneOf s first).set
  let lanes := groupLanes c
  if !(lanes.all (fun l => (laneOf s l).st == lsAligning && (laneOf s l).locked)) then s
  else
    let s1 := lanes.foldl (fun t l => modLane l (fun x => x.goUp (dcNow t)) t) s
    if c.mode == modeGraft then
      let full := 2 ^ c.lanes - 1
      lanesUp (linkCameUp first (setTxMap first full (setGraft first { ({} : Graft) with
        rxMap := full, partnerMap := full, roundTripPs := roundTripPs, measuredPs := roundTripPs, progressAt := dcNow s } s1)))
    else lanesUp (portCameUp first s1)

/-- Row BLOCK_LOCK: 64 consecutive valid sync headers, or the alignment markers of a FEC lane; a lane with MANUAL_LOCK
waits for the host (R158, R159). -/
def execBlockLock (lane roundTripPs : Nat) (s : State) : Host.Outcome State Fault Refusal :=
  done (
    let x := laneOf s lane
    let manual := x.set.manual && x.set.fec == 0
    if !x.energy || manual || x.locked then s
    else if x.st == lsAligning then groupLocked x.set.first roundTripPs (setLane lane x.lock s)
    else if x.st == lsRetraining && (x.trained || x.eq.fixed) then
      setLane lane x.lock (setGraft x.set.first { graftOf s x.set.first with measuredPs := roundTripPs } s)
    else s)

/-- Row LOCK_LOSS: a Graft pair in a map is restriped out, a multi-lane port goes down whole, any other lane aligns again (R158,
R160, R168). `invalid` is the sync headers found invalid. -/
def execLockLoss (lane invalid : Nat) (s : State) : Host.Outcome State Fault Refusal :=
  done (
    let x := laneOf s lane
    if !(x.st == lsUp || (x.locked && (x.st == lsAligning || x.st == lsRetraining))) then s else
      let s1 := bump 2 (lane * 16 + 1) (bumpBy 2 (lane * 16) invalid s)
      if x.set.mode == modeGraft then
        let mapped := bitOf (graftOf s1 x.set.first).txMap (lane - x.set.first) || bitOf (graftOf s1 x.set.first).rxMap (lane - x.set.first)
        if x.st == lsUp || mapped then retrainOut lane (setGraft x.set.first { graftOf s1 x.set.first with nak := true } s1) else setLane lane { x.flag flNoLock true with locked := false } s1
      else if x.st != lsUp then setLane lane x.align s1
      else if 2 ≤ x.set.lanes then dropPort x.set.first s1
      else portWentDown x.set.first (setLane lane x.align s1))

/-! The Graft link's receiver (R161 to R170) -/

/-- What this device's own transmit map becomes on seeing the partner's rx_map: lanes the partner no longer receives leave
it and retrain, lanes it receives again join it (R168, R169). A lane that this side has not brought back to lock is not the one that the
partner's map, still on its way, speaks of. -/
def followMap (first partner : Nat) (s : State) : State :=
  let g := graftOf s first
  let gone := (setBits 8 g.txMap).filter (fun k => !bitOf partner k)
  let s1 := gone.foldl (fun t k => retrainOut (first + k) t) s
  let g1 := graftOf s1 first
  let back := (setBits 8 partner).filter (fun k =>
    let x := laneOf s1 (first + k)
    (laneGroup s1 first).contains (first + k) && !bitOf g1.txMap k && (x.st == lsUp || (x.sendsBlocks && x.locked)))
  setTxMap first (back.foldl (fun m k => m + 2 ^ k) g1.txMap) s1

/-- A good flit's acknowledgement: held flits up to ack_seq leave the buffer (R163). -/
def takeAck (first ack : Nat) (s : State) : State :=
  let g := graftOf s first
  if g.held.any (fun e => e.1 == ack) then
    let left := (g.held.dropWhile (fun e => e.1 != ack)).drop 1
    sendWaiting first replayWindow (setGraft first { g with held := left, timeouts := 0, progressAt := dcNow s } s)
  else s

/-- A flit's content reaches the device; a reserved type is counted (R162). -/
def takePayload (first : Nat) (f : Flit) (s : State) : State :=
  if 6 ≤ f.kind then bump 2 (1024 + first * 8 + 7) s
  else if f.kind = 0 then s
  else
    let g := graftOf s first
    setGraft first { g with inbox := g.inbox ++ [f] } s

/-- A good flit's sequence: in order it is taken and acknowledged, past a gap it is discarded and NAK is due (R163). -/
def takeSequenced (first seq : Nat) (f : Flit) (s : State) : State :=
  let g := graftOf s first
  let ahead := (seq + 256 - (g.lastRx + 1) % 256) % 256
  if ahead = 0 then takePayload first f (setGraft first { g with lastRx := seq } s)
  else if ahead < 128 then setGraft first { g with nak := true } s
  else s

/-- The replay timeout: twice the round trip measured at link-up plus 1 µs (R163), in ticks of 1,600 ps. (DESIGN CHOICE, log entry 49) -/
def replayTimeout (g : Graft) : Nat := ceilDiv (2 * g.roundTripPs + 1000000) 1600

/-- Row REPLAY_TIMEOUT (R163). -/
def execReplayTimeout (first : Nat) (s : State) : Host.Outcome State Fault Refusal :=
  done (
    let g := graftOf s first
    if g.held.isEmpty || g.failed || decide (since s g.progressAt < replayTimeout g) then s
    else replayFrom first g.held (setGraft first { g with timeouts := g.timeouts + 1, progressAt := dcNow s }
      (bump 2 (1024 + first * 8 + 4) s)))

/-- Row ALIGNMENT_MARKER: the scheduled marker of every 16,384 blocks (R167). (DESIGN CHOICE, log entry 49) -/
def execAlignmentMarker (first : Nat) (s : State) : Host.Outcome State Fault Refusal :=
  done (if (laneOf s first).set.mode == modeGraft then sendMarkers first s else s)

/-- Row LANE_READMISSION: a lane that has retrained and locked has shown two markers deskewed within 64 ns; it joins
rx_map and is UP (R169). A failed group lives again with its first lane. -/
def execLaneReadmission (lane : Nat) (s : State) : Host.Outcome State Fault Refusal :=
  done (
    let x := laneOf s lane
    let first := x.set.first
    let g := graftOf s first
    let back := (x.st == lsRetraining && (x.trained || x.eq.fixed)) || (x.st == lsAligning && g.rxMap != 0)
    if !(x.set.mode == modeGraft && x.locked && back) then s else
      let s1 := setLane lane (x.goUp (dcNow s)) s
      let anew := g.failed || decide (g.rxMap = 0)
      let s2 := setGraft first { g with
        rxMap := g.rxMap ||| 2 ^ (lane - first), failed := false, emptySince := none
        timeouts := if anew then 0 else g.timeouts, progressAt := if anew then dcNow s else g.progressAt
        roundTripPs := if anew then g.measuredPs else g.roundTripPs } s1
      let s3 := bump 2 (1024 + first * 8 + 6) s2
      lanesUp (if anew then
        linkCameUp first (setTxMap first (2 ^ (lane - first))
          ((laneGroup s3 first).foldl (fun t l => modLane l (fun y => y.flag flLinkFail false) t) s3))
      else putFlit first 0 ⟨0, []⟩ s3))

/-- Whether R170 declares a group failed. -/
def graftLost (s : State) (g : Graft) : Bool :=
  g.txMap == 0 || g.rxMap == 0 || decide (4 ≤ g.timeouts)
    || (match g.emptySince with | some t => decide (usTicks 1 ≤ since s t) | none => false)

/-- A lane of a failed group: LINK_FAIL, and RETRAINING whatever it did; a test of it ends, a calibration is abandoned. A lane without
its reference clock stays in FAULT (R143, R170). -/
def failLane (l : Nat) (s : State) : State :=
  let s1 := if (laneOf s l).st = lsCalibrating then calibrationAbandoned l s else discardLaneTrim l s
  let x := (laneOf s1 l).flag flLinkFail true
  if x.has flRefclkLost then setLane l x s1
  else if (x.st = lsRetraining && (laneOf s l).st ≠ lsCalibrating) || x.st = lsOff then setLane l x s1
  else
    let y := if x.st = lsTest then { x with set := laneSet (posImage s) l, eq := eqSet (posImage s) l, waits := false, test := {} } else x
    bump 2 (l * 16 + 10) (setLane l { y.flag flNoLock true with
      st := lsRetraining, trained := false, locked := false, tries := 0, readyRun := 0, trainStart := dcNow s, reanchor := false } s1)

/-- A Graft group fails: LINK_FAIL and the event, and every lane of the group goes to RETRAINING (R170). -/
def failGraft (first : Nat) (s : State) : State :=
  let g := graftOf s first
  let s1 := setGraft first { g with failed := true, txMap := 0, rxMap := 0, emptySince := none, timeouts := 0 } s
  let s2 := (laneGroup s1 first).foldl (fun t l => failLane l t) s1
  linkFailed first (raise 0x0404 3 first 0 0 s2)

/-- Row GRAFT_LINK_FAIL. -/
def execGraftLinkFail (first : Nat) (s : State) : Host.Outcome State Fault Refusal :=
  done (
    let g := graftOf s first
    if (laneOf s first).set.mode != modeGraft || g.failed || g = {} || !graftLost s g then s else failGraft first s)

/-! Test patterns (R171 to R175) -/

/-- Whether a lane is under test. -/
def Lane.testing (x : Lane) : Bool := x.st == lsTest

/-- What a lane's receiver and decoder have measured since they were last read. -/
def takeTally (lane : Nat) (m : LaneTally) (s : State) : State :=
  let x := laneOf s lane
  if x.st == lsOff then s else
    let y := ({ x with snr := m.snr }).flag flHiBer (m.hiBer && x.set.mode != modeGraft)
    let z := if m.fecBad = 0 then y.flag flFecUncorrectable false else y.flag flFecUncorrectable true
    bumpBy 2 (lane * 16) m.badHeaders (bumpBy 2 (lane * 16 + 2) m.fecCorrected (bumpBy 2 (lane * 16 + 3) m.fecBad
      (bumpBy 2 (lane * 16 + 4) m.fecSymbols (setLane lane z s))))

/-- Add what a locked checker has seen. -/
def countPattern (lane bits errors : Nat) (s : State) : State :=
  let x := laneOf s lane
  if x.testing && x.test.locked then
    bumpBy 2 (lane * 16 + 6) errors (bumpBy 2 (lane * 16 + 5) bits (setLane lane { x with test := { x.test with
      bits := satAdd counterTop x.test.bits bits, errors := satAdd counterTop x.test.errors errors } } s))
  else s

/-- The exponents of a pattern's polynomial, its constant term apart (Table 6.10). -/
def patternPoly (c : Nat) : List Nat := match c with
  | 1 => [7, 6]
  | 2 => [9, 5]
  | 3 | 7 => [13, 12, 2, 1]
  | 4 => [15, 14]
  | 5 => [23, 18]
  | 6 | 8 => [31, 28]
  | _ => []

/-- What a lane's line transmitter carries in its test (Table 6.9): in NEAR_PARALLEL nothing, in FAR the received data, otherwise the
generator, or with the generator off its own signal in NEAR_SERIAL and nothing in NONE. -/
def lineTest (l : Nat) (s : State) : State :=
  let x := laneOf s l
  let t := x.test
  let source := if t.loop = 2 then 1 else if t.loop = 3 then 3 else if t.gen ≠ 0 then 2 else if t.loop = 1 then 0 else 1
  emit (.lineTest l source (if source = 2 then patternPoly t.gen else []) (source == 2 && bitOf t.flags 1) (modePam4 x.set.mode)) s

/-- At a period boundary each lane's tallies and its checker's counts are brought up to date (R57, R174, Table 6.18).
(DESIGN CHOICE, log entry 48) -/
def laneLatch (s : State) : State :=
  draw (s.lane.lanes.foldl (fun t e =>
    let c := Config.laneChecked s.draws e.1
    countPattern e.1 c.1 (min c.1 c.2) (takeTally e.1 (Config.laneTally s.draws e.1) t)) s)

/-- Row CHECKER_LOCK: 64 consecutive bits without error (R174). -/
def execCheckerLock (lane : Nat) (s : State) : Host.Outcome State Fault Refusal :=
  done (modLane lane (fun x =>
    if x.testing && x.test.chk != 0 then { x with test := { x.test with locked := true } } else x) s)

/-- Row CHECKER_RESYNC: more than 25 % of a 4,096-bit window in error drops lock (R174). -/
def execCheckerResync (lane errors : Nat) (s : State) : Host.Outcome State Fault Refusal :=
  done (
    let x := laneOf s lane
    if !(x.testing && x.test.locked && decide (1024 < errors) && decide (errors ≤ 4096)) then s else
      bump 2 (lane * 16 + 7) (modLane lane (fun y => { y with test := { y.test with
        locked := false, resyncs := y.test.resyncs + 1 } }) (countPattern lane 4096 errors s)))

/-! Commands (Tables 6.11 to 6.17) -/

/-- Row LANE_SET_LANE. -/
def execLaneSetLane (io : HostIo) (s : State) : Host.Outcome State Fault Refusal :=
  done (serve { code := 0x0200, len := some 16 } io (stage 0x0200 (fun p => fld p 0 1) laneCheck) s)

/-- Row LANE_SET_EQ. -/
def execLaneSetEq (io : HostIo) (s : State) : Host.Outcome State Fault Refusal :=
  done (serve { code := 0x0201, len := some 16 } io (stage 0x0201 (fun p => fld p 0 1) eqCheck) s)

/-- The lane a request names, where the bytes from `off` to 8 are 0. -/
def laneArg (p : Bytes) (off : Nat) : Bool := decide (fld p 0 1 < 64) && zeroRange p off (8 - off)

/-- The active lanes of a lane's group, a bit per lane index. -/
def activeMapOf (s : State) (l : Nat) : Nat :=
  let x := laneOf s l
  if x.set.mode == modeGraft then (graftOf s x.set.first).txMap * 2 ^ x.set.first
  else ((groupLanes x.set).filter (fun k => (laneOf s k).st == lsUp)).foldl (fun m k => m + 2 ^ k) 0

/-- LANE.GET_STATUS response (Table 6.15). -/
def laneStatus (s : State) (l : Nat) : Bytes :=
  let x := laneOf s l
  let graft := x.set.mode == modeGraft
  leBytes 1 x.st ++ leBytes 1 x.set.mode ++ leBytes 1 x.set.fec ++ leBytes 1 (b2n x.eq.fixed)
    ++ leBytes 4 x.live ++ leBytes 4 x.sticky ++ leBytes 1 x.set.first ++ leBytes 1 x.set.lanes
    ++ leBytes 1 (if graft then activeLanes (graftOf s x.set.first).txMap else b2n (x.st == lsUp)) ++ leBytes 1 x.slip
    ++ leBytes 8 (activeMapOf s l) ++ leInt 2 (clampInt (-32768) 32767 x.snr) ++ leBytes 1 x.hits ++ [0]
    ++ leBytes 4 x.trainingMs ++ leBytes 8 x.upSince ++ leBytes 8 x.anchorDc
    ++ leBytes 8 (if graft then (graftOf s x.set.first).roundTripPs else 0) ++ zeros 8

/-- Row LANE_GET_STATUS; `tally` is what the lane asked of has measured by then. (DESIGN CHOICE, log entry 48) -/
def execLaneGetStatus (io : HostIo) (tally : LaneTally) (s : State) : Host.Outcome State Fault Refusal :=
  done (serve { code := 0x0210, len := some 8 } io (fun s _ p =>
    if laneArg p 1 then
      let s1 := takeTally (fld p 0 1) tally s
      replyOk (laneStatus s1 (fld p 0 1)) s1
    else reply stBadArg s) s)

/-- LANE.GET_EQ response (Table 6.16). -/
def laneEq (s : State) (l : Nat) : Bytes :=
  let x := laneOf s l
  leBytes 1 x.coeffs.ctle ++ leInt 1 x.coeffs.dfe ++ leBytes 1 x.pre ++ leBytes 1 x.post ++ leBytes 1 x.anchor.ctle
    ++ leInt 1 x.anchor.dfe ++ zeros 2 ++ x.coeffs.ffe.flatMap (leInt 1) ++ leBytes 4 x.atBound ++ zeros 4
    ++ x.anchor.ffe.flatMap (leInt 1)

/-- Row LANE_GET_EQ; `now` is where adaptation has brought the coefficients of the lane asked of. -/
def execLaneGetEq (io : HostIo) (now : Coeffs) (s : State) : Host.Outcome State Fault Refusal :=
  done (serve { code := 0x0211, len := some 8 } io (fun s _ p =>
    if laneArg p 1 then
      let s1 := modLane (fld p 0 1) (fun x => x.adaptTo now) s
      replyOk (laneEq s1 (fld p 0 1)) s1
    else reply stBadArg s) s)

/-- A lane out of FAULT starts its mode again, unless its reference clock is lost (Table 6.5, R143). -/
def leaveFault (l : Nat) (s : State) : State :=
  let x := laneOf s l
  if x.st == lsFault && !x.has flRefclkLost && !s.fault.stop then enterLane l (x.start (dcNow s)) (discardLaneTrim l s) else s

/-- LANE.RETRAIN (R152): a lane in FAULT starts again; FULL on a field lane takes its port down; otherwise the lane is
re-anchored or retrained. (DESIGN CHOICE, log entry 48) -/
def retrainCmd (s : State) (_q : Req) (p : Bytes) : Reply :=
  let l := fld p 0 1
  if !(decide (l < 64) && decide (fld p 1 1 < 2) && zeroRange p 2 6) then reply stBadArg s
  else
    let x := laneOf s l
    if x.st == lsFault then reply stOk (leaveFault l s)
    else if bitOf (fld p 1 1) 0 && isFieldLane l && x.set.mode != modeGraft then
      reply stOk (bump 2 (l * 16 + 10) (dropPort x.set.first (discardLaneTrim l s)))
    else reply stOk (retrainLane l s)

/-- Row LANE_RETRAIN. -/
def execLaneRetrain (io : HostIo) (s : State) : Host.Outcome State Fault Refusal :=
  done (serve { code := 0x0212, len := some 8 } io retrainCmd s)

/-- The search span of a lane: 33 positions on PAM4 lanes, 66 on NRZ lanes (R159). -/
def slipSpan (x : Lane) : Nat := if modePam4 x.set.mode then 33 else 66

/-- Whether the host may search a lane's boundary (R159). -/
def manualReady (x : Lane) : Bool := x.set.mode != 0 && x.set.fec == 0 && x.set.manual && x.st == lsAligning

/-- Row LANE_BIT_SLIP; `errors` are the invalid sync headers of the 4,096 blocks that follow the slip. -/
def execLaneBitSlip (io : HostIo) (errors : Nat) (s : State) : Host.Outcome State Fault Refusal :=
  done (serve { code := 0x0213, len := some 8 } io (fun s _ p =>
    let l := fld p 0 1
    let x := laneOf s l
    let n := min errors 4096
    if !(decide (l < 64) && zeroRange p 2 6 && decide (fld p 1 1 < slipSpan x)) then reply stBadArg s
    else if !manualReady x then reply 0x41 s
    else
      let at1 := (x.slip + fld p 1 1) % slipSpan x
      replyOk (leBytes 1 at1 ++ zeros 3 ++ leBytes 4 n) (bumpBy 2 (l * 16) n (setLane l { x with slip := at1 } s))) s)

/-- Row LANE_LOCK_HERE; `errors` are the invalid sync headers of the 64 blocks checked: 16 lose lock (R158, R159). -/
def execLaneLockHere (io : HostIo) (errors roundTripPs : Nat) (s : State) : Host.Outcome State Fault Refusal :=
  done (serve { code := 0x0214, len := some 8 } io (fun s _ p =>
    let l := fld p 0 1
    let x := laneOf s l
    if !laneArg p 1 then reply stBadArg s
    else if !manualReady x then reply 0x41 s
    else if 16 ≤ errors || !x.energy then reply 0x43 (bumpBy 2 (l * 16) (min errors 64) s)
    else reply stOk (groupLocked x.set.first roundTripPs (setLane l x.lock (bumpBy 2 (l * 16) errors s)))) s)

/-- Whether a pattern is allowed on a lane (R173). -/
def patternAllowed (x : Lane) (c : Nat) : Bool :=
  c == 0 || (modeNrz x.set.mode && decide (c ≤ 6)) || (modePam4 x.set.mode && decide (c ≤ 8))

/-- A test ends: the lane starts the mode in force, with a commit that waited (R172, R175). -/
def endTest (l : Nat) (s : State) : State :=
  let x := laneOf s l
  let y := { x with set := laneSet (posImage s) l, eq := eqSet (posImage s) l, waits := false, test := {} }
  let s1 := if y.set.mode = x.set.mode && y.set.lanes = x.set.lanes && y.eq.fixed = x.eq.fixed then s else discardLaneTrim l s
  enterLane l (y.start (dcNow s)) (emit (.lineTest l 0 [] false (modePam4 y.set.mode)) s1)

/-- LANE.SET_TEST (R171 to R175). A lane with REFCLK_LOST leaves FAULT for no test (R143): BAD_STATE. A lane that calibrates goes to TEST
and its calibration runs on to its end. (DESIGN CHOICE, log entry 91) -/
def setTest (s : State) (_q : Req) (p : Bytes) : Reply :=
  let l := fld p 0 1
  let loop := fld p 1 1
  let gen := fld p 2 1
  let chk := fld p 3 1
  let fl := fld p 4 1
  let force := bitOf fl 0
  let x := laneOf s l
  let graft := x.set.mode == modeGraft
  let first := x.set.first
  let inGroup := graft && graftUp s first && bitOf (graftOf s first).txMap (l - first)
  let test : LaneTest := { loop := loop, gen := gen, chk := chk, flags := fl }
  if !(fieldsOk p [⟨0, 1, 0, 63, false⟩, ⟨1, 1, 0, 3, false⟩, ⟨2, 1, 0, 8, false⟩, ⟨3, 1, 0, 8, false⟩, ⟨4, 1, 0, 7, false⟩]
      [(5, 3)] && (loop != 3 || gen == 0)) then reply stBadArg s
  else if applying s then reply stBusy s
  else if loop == 0 && gen == 0 && chk == 0 then reply stOk (if x.testing then endTest l s else s)
  else if !(patternAllowed x gen && patternAllowed x chk) then reply 0x45 s
  else if x.testing then reply stOk (lineTest l (setLane l { x with test := test } s))
  else if x.has flRefclkLost then reply stBadState s
  else if !force && (graftUp s first && graft || (!graft && portCarriesHead s first)) then reply 0x40 s
  else if inGroup && decide (activeLanes (graftOf s first).txMap ≤ 1) then reply 0x44 s
  else
    let s1 := if inGroup then restripeOut l s else if !graft && x.service == lsUp then dropPort first s else s
    reply stOk (lineTest l (modLane l (fun y => { y with st := lsTest, locked := false, test := test }) s1))

/-- Row LANE_SET_TEST. -/
def execLaneSetTest (io : HostIo) (s : State) : Host.Outcome State Fault Refusal :=
  done (serve { code := 0x0215, len := some 8 } io setTest s)

/-- Row LANE_GET_TEST; `bits` and `errors` are what a locked checker has seen since it was last read (R174). -/
def execLaneGetTest (io : HostIo) (bits errors : Nat) (s : State) : Host.Outcome State Fault Refusal :=
  done (serve { code := 0x0216, len := some 8 } io (fun s _ p =>
    if !laneArg p 1 then reply stBadArg s
    else
      let s1 := countPattern (fld p 0 1) bits errors s
      let t := (laneOf s1 (fld p 0 1)).test
      replyOk (leBytes 8 t.bits ++ leBytes 8 t.errors ++ leBytes 4 t.resyncs ++ leBytes 1 (b2n t.locked) ++ zeros 11) s1) s)

/-- Row LANE_CLEAR_FLAGS. -/
def execLaneClearFlags (io : HostIo) (s : State) : Host.Outcome State Fault Refusal :=
  done (serve { code := 0x0217, len := some 8 } io (fun s _ p =>
    if !(decide (fld p 0 1 < 64) && zeroRange p 1 3 && decide (fld p 4 4 < 8192)) then reply stBadArg s
    else reply stOk (modLane (fld p 0 1) (fun x => { x with
      sticky := (x.sticky ^^^ (x.sticky &&& fld p 4 4)) }) s)) s)

/-! Commits (R157, R172, R400) -/

/-- Whether what a W2 kept of the lanes still stands: 60 s after mailbox ready it is discarded (R400). -/
def keptLanes (s : State) : Bool := match s.start.keptAt with
  | some t => decide (since s t < secTicks 60)
  | none => false

/-- A commit reaches a lane: a changed mode, FEC or group restarts it in the first state of its new mode, a lane in FAULT
starts again, a lane in TEST keeps its settings until the test ends, and values a W2 kept are taken up when the commit
gives the lane the same settings, and discarded otherwise (R157, R172, R400). In thermal STOP a lane stays OFF (R425). A trim that waits is
discarded when the commit changes the lane's mode, duty or equalisation mode (R20), and CTLE_FIXED ends a training (Tables 6.3, 6.5).
`touched` says that the commit names the lane. -/
def commitLane (l : Nat) (new : Image) (touched : Bool) (s : State) : State :=
  let before := laneOf s l
  let c := laneSet new l
  let e := eqSet new l
  if before.st == lsTest then setLane l { before with waits := before.waits || touched } s
  else
    let changed := before.set.mode != c.mode || before.set.fec != c.fec || before.set.first != c.first || before.set.lanes != c.lanes
    let s0 := if changed || before.eq.fixed != e.fixed then calibrationAbandoned l s else s
    let x := laneOf s0 l
    let y := { x with set := c, eq := e, kept := none }
    if x.has flRefclkLost then setLane l y s0
    else if changed || (x.st == lsFault && touched) then
      let s1 := if changed then laneOutOfService l s0 else s0
      let z := ({ y with slip := 0 }).start (dcNow s)
      let w := match x.kept with
        | some k => if keptLanes s && k.set = c && k.eq = e && !e.fixed then { z with
            coeffs := k.coeffs, anchor := k.anchor, hasAnchor := k.hasAnchor, pre := k.pre, post := k.post } else z
        | none => z
      enterLane l (if s.fault.stop then { w with st := lsOff } else w) s1
    else if x.eq = e then setLane l y s
    else if x.eq.fixed == e.fixed && x.eq.ctle == e.ctle && x.eq.pre == e.pre && x.eq.post == e.post then setLane l y s
    else if e.fixed && x.st == lsTraining then setLane l y.loadTaps.align s0
    else setLane l y.loadTaps s0

/-- What a commit does to the lanes; a Graft group whose lanes changed starts from nothing. A commit that carries LANE.SET_EQ alone is no
commit of the lane that takes it out of FAULT. (DESIGN CHOICE, log entry 108) -/
def laneCommit (old new staged : Image) (s : State) : State :=
  let touched := (List.range 64).filter (fun l =>
    (tfind staged (settingKey 0x0200 l)).isSome || (tfind staged (settingKey 0x0201 l)).isSome)
  let s1 := touched.foldl (fun t l => commitLane l new (tfind staged (settingKey 0x0200 l)).isSome t) s
  let firsts := touched.filter (fun l =>
    let a := laneSet old l
    a.mode == modeGraft && a.first == l && ((laneSet new l).mode != modeGraft || (laneSet new l).first != l))
  let s2 := firsts.foldl (fun t g => setGraft g {} t) s1
  if (touched.filter (fun l => (tfind staged (settingKey 0x0200 l)).isSome)).isEmpty then s2 else coldStage 13 s2

end Sys2Proof.Machine
end

