-- ==== Sys2Proof/Machine/TimeCfg.lean ====
section
/-! DEFINITION. The settings of the TIME family: request layouts, reset values and checks (Tables 5.10 to 5.12). -/

namespace Sys2Proof.Machine

/-- A field of a request where 0 selects a default. -/
def orDefault (v d : Nat) : Nat := if v = 0 then d else v

/-- 0, or a value in a range. -/
def zeroOr (v lo hi : Nat) : Bool := v == 0 || (decide (lo ≤ v) && decide (v ≤ hi))

/-! TIME.SET_VIEW (Table 5.10) -/

/-- A view's settings: source 0 FREE, 1 PTP, 2 HOST_FEED, 3 PPS_IN (Table 5.2). -/
structure ViewCfg where
  source : Nat
  port : Nat
  partner : Option Nat
  stepNs : Nat
  slewPpb : Nat
  kp : Nat
  ki : Nat
  asymNs : Nat
  qualMs : Nat
  clk10Freq : Bool
  deriving DecidableEq, Repr

/-- Reset value: FREE, without a partner. -/
def viewReset (v : Nat) : Bytes := leBytes 32 (v + 0xFF000000)

/-- A view's settings in an image. -/
def viewCfg (img : Image) (v : Nat) : ViewCfg :=
  let p := settingIn img 0x0600 v (viewReset v)
  { source := fld p 1 1, port := fld p 2 1, partner := chanNum (fld p 3 1)
    stepNs := orDefault (fld p 4 4) 1000000, slewPpb := orDefault (fld p 8 4) 500000
    kp := orDefault (fld p 12 2) 0x8000, ki := orDefault (fld p 14 2) 0x2000, asymNs := fld p 16 4
    qualMs := orDefault (fld p 20 4) 16000, clk10Freq := bitOf (fld p 24 1) 0 }

/-- The checks of TIME.SET_VIEW: TV7 is fixed (R117), and answers 0x40 before the other fields are looked at.
(DESIGN CHOICE, log entry 99) -/
def viewCheck (_s : State) (p : Bytes) : Option Nat :=
  let v := fld p 0 1
  let src := fld p 1 1
  let a := fld p 16 4
  if v = 7 then some 0x40
  else orBadArg (decide (v < 7) && decide (src < 4) && inRangeIf (src == 1) (fld p 2 1) 0 48
    && (fld p 3 1 == 0xFF || (decide (fld p 3 1 < 7) && fld p 3 1 != v))
    && zeroOr (fld p 4 4) 1000 1000000000 && zeroOr (fld p 8 4) 1000 500000
    && (if src == 1 then zeroOr a 10 1000000 else a == 0) && zeroOr (fld p 20 4) 1000 600000
    && decide (fld p 24 1 < 2) && (src == 3 || fld p 24 1 == 0) && zeroRange p 25 7)

/-! TIME.SET_PTP_PORT (Table 5.11) -/

/-- A PTP port's settings: role 0 OFF, 1 SLAVE_ONLY, 2 MASTER_ONLY, 3 HOST (Table 5.3). -/
structure PtpCfg where
  role : Nat
  transport : Nat
  p2p : Bool
  domain : Nat
  logSync : Int
  logAnnounce : Int
  logDelay : Int
  announceTimeout : Nat
  oneStep : Bool
  priority1 : Nat
  priority2 : Nat
  mgmtIp : Bytes
  mgmtMac : Bytes
  deriving DecidableEq, Repr

/-- Reset value: the port OFF. -/
def ptpReset (n : Nat) : Bytes := leBytes 32 n

/-- A PTP port's settings in an image. -/
def ptpCfg (img : Image) (n : Nat) : PtpCfg :=
  let p := settingIn img 0x0601 n (ptpReset n)
  { role := fld p 1 1, transport := fld p 2 1, p2p := fld p 3 1 == 1, domain := fld p 4 1, logSync := sfld p 5 1
    logAnnounce := sfld p 6 1, logDelay := sfld p 7 1, announceTimeout := fld p 8 1, oneStep := bitOf (fld p 9 1) 0
    priority1 := fld p 10 1, priority2 := fld p 11 1, mgmtIp := ((p.drop 12).take 4).reverse
    mgmtMac := (p.drop 16).take 6 }

/-- The checks of TIME.SET_PTP_PORT. A role whose feature is not accepted is refused (Tables 5.3, 5.9). -/
def ptpCheck (s : State) (p : Bytes) : Option Nat :=
  let port := fld p 0 1
  let role := fld p 1 1
  if !(fieldsOk p [⟨0, 1, 0, 48, false⟩, ⟨1, 1, 0, 3, false⟩, ⟨2, 1, 0, 1, false⟩, ⟨3, 1, 0, 1, false⟩,
      ⟨4, 1, 0, 127, false⟩, ⟨5, 1, -7, 1, true⟩, ⟨6, 1, -3, 4, true⟩, ⟨7, 1, -7, 4, true⟩, ⟨8, 1, 2, 10, false⟩,
      ⟨9, 1, 0, 1, false⟩] [(22, 10)]
    && (role == 2 || zeroRange p 9 3) && ((port == 48 && fld p 2 1 == 0) || zeroRange p 12 4)
    && (port == 48 || zeroRange p 16 6)) then some stBadArg
  else if (role == 2 && (!feature s 1 || port == 48)) || (role == 3 && !feature s 12) then some 0x44
  else none

/-! TIME.SET_SELECT and TIME.SET_PPS (Table 5.12) -/

/-- The selection settings. -/
structure SelCfg where
  primary : Nat
  backup : Option Nat
  auto : Bool
  revertive : Bool
  slewNs : Nat
  holdS : Nat
  deriving DecidableEq, Repr

/-- Reset value: TV7, no backup (R118). -/
def selReset : Bytes := leBytes 16 0xFF07

/-- The selection settings of an image. -/
def selCfg (img : Image) : SelCfg :=
  let p := settingIn img 0x0602 0 selReset
  ⟨fld p 0 1, chanNum (fld p 1 1), bitOf (fld p 2 1) 0, bitOf (fld p 2 1) 1, orDefault (fld p 4 2) 1000,
    orDefault (fld p 6 2) 60⟩

/-- The checks of TIME.SET_SELECT. -/
def selCheck (_s : State) (p : Bytes) : Option Nat :=
  orBadArg (fieldsOk p [⟨0, 1, 0, 7, false⟩, ⟨2, 1, 0, 3, false⟩, ⟨4, 2, 0, 1000, false⟩] [(3, 1), (8, 8)]
    && (fld p 1 1 == 0xFF || (decide (fld p 1 1 < 8) && fld p 1 1 != fld p 0 1))
    && (if bitOf (fld p 2 1) 1 then zeroOr (fld p 6 2) 10 3600 else fld p 6 2 == 0))

/-- The PPS settings: PPS_OUT mode 0 OFF, 1 PPS, 2 CLK10; view 8 is TV_SEL. -/
structure PpsCfg where
  inOn : Bool
  inFalling : Bool
  outMode : Nat
  outView : Nat
  clk10In : Bool
  widthMs : Nat
  deriving DecidableEq, Repr

/-- Reset value: everything off. -/
def ppsReset : Bytes := zeros 16

/-- The PPS settings of an image. -/
def ppsCfg (img : Image) : PpsCfg :=
  let p := settingIn img 0x0603 0 ppsReset
  ⟨bitOf (fld p 0 1) 0, bitOf (fld p 0 1) 1, fld p 1 1, fld p 2 1, fld p 3 1 == 1, fld p 4 2⟩

/-- The checks of TIME.SET_PPS. -/
def ppsCheck (_s : State) (p : Bytes) : Option Nat :=
  orBadArg (fieldsOk p [⟨0, 1, 0, 3, false⟩, ⟨1, 1, 0, 2, false⟩, ⟨2, 1, 0, 8, false⟩, ⟨3, 1, 0, 1, false⟩] [(6, 10)]
    && inRangeIf (fld p 1 1 == 1) (fld p 4 2) 1 500)

/-- What CFG.COMMIT checks of a view: no two views name one port, and a PTP view's port is SLAVE_ONLY (Table 5.9). -/
def timeValidate (img : Image) (code obj : Nat) : Option Nat :=
  if code != 0x0600 then none else
    let c := viewCfg img obj
    if c.source = 1 && ((ptpCfg img c.port).role != 1 || (List.range 7).any (fun v =>
        v != obj && (viewCfg img v).source == 1 && (viewCfg img v).port == c.port)) then some 0x41
    else none

end Sys2Proof.Machine
end

