-- ==== Sys2Proof/Machine/Time.lean ====
section
/-! DEFINITION. Time views, TV_SEL, the servo, path qualification, PTP ports, the transmit timestamp queues, PPS and
CLK10, and the TIME commands (chapter 5). -/

namespace Sys2Proof.Machine

/-- A view's settings in force. -/
def viewSet (s : State) (v : Nat) : ViewCfg := viewCfg (posImage s) v

/-- The selection settings in force. -/
def selSet (s : State) : SelCfg := selCfg (posImage s)

/-- Change TV_SEL. -/
def modSel (f : TvSel → TvSel) (s : State) : State := { s with time := { s.time with sel := f s.time.sel } }

/-- A value of ns with 32 fraction bits as a rational. -/
def nsRat (v : Int) : Rat := (v : Rat) / (4294967296 : Rat)

/-- The travel of a clock over a sub-tick of 6.25 ps at a rate, ns (R113). -/
def subTravel (sub : Nat) (rate : Int) : Rat :=
  (sub : Rat) * (625 : Rat) / (100000 : Rat) * ((1 : Rat) + (rate : Rat) / (1099511627776 : Rat))

/-- A view's value at a tick and sub-tick, ns (R113, R114). -/
def viewTime (s : State) (v dc sub : Nat) : Rat := nsRat (viewAt (view s v) dc) + subTravel sub (rateAt (view s v) dc)

/-- TV_SEL at a tick and sub-tick, ns. -/
def tvSelTime (s : State) (dc sub : Nat) : Rat := nsRat (tvSelAt s dc) + subTravel sub (rateAt (tvSelThen s dc).1 dc)

/-- Change TV_SEL or the views at a tick: what TV_SEL was before stays known for the ticks before it (R118). -/
def remember (at' : Nat) (f : State → State) (s : State) : State :=
  let t := f s
  let w := view s s.time.sel.view
  let m : View := { baseDc := w.baseDc, baseNs := w.baseNs, rate := w.rate, heldRate := w.heldRate, phaseUntil := w.phaseUntil }
  let w' := view t t.time.sel.view
  if t.time.sel = s.time.sel && m = { baseDc := w'.baseDc, baseNs := w'.baseNs, rate := w'.rate, heldRate := w'.heldRate
                                      phaseUntil := w'.phaseUntil }
  then t else { t with time := { t.time with past := ⟨at', m, s.time.sel⟩ :: t.time.past } }

/-! PPS_OUT (R139) -/

/-- The value PPS_OUT follows: a view, or TV_SEL at 8. -/
def ppsOutValue (s : State) : Int :=
  let v := (ppsCfg (posImage s)).outView
  if v = 8 then tvSelAt s (dcNow s) else viewNow s v

/-- The view that PPS_OUT's clock runs on. -/
def ppsOutView (s : State) : View :=
  let v := (ppsCfg (posImage s)).outView
  view s (if v = 8 then s.time.sel.view else v)

/-- The rate at which the selection bias moves toward 0 at a tick, in units of 2^-40. -/
def biasRate (t : TvSel) (dc : Nat) : Int :=
  let r : Int := freeRound (((t.slewRate : Nat) : Rat) * (1099511627776 : Rat) / (1000000000 : Rat))
  let b := biasAt t dc
  if b = 0 then 0 else if 0 < b then -r else r

/-- The rate that PPS_OUT's clock runs on at a tick: with TV_SEL, that of the slewing bias too. -/
def ppsOutRateAt (s : State) (dc : Nat) : Int :=
  rateAt (ppsOutView s) dc + (if (ppsCfg (posImage s)).outView = 8 then biasRate s.time.sel dc else 0)

/-- The rate now. -/
def ppsOutRate (s : State) : Int := ppsOutRateAt s (dcNow s)

/-- The device time, ps on the delay lines' grid of 10 ps, at which PPS_OUT's clock is `x` (2^-32 ns) past its present value. -/
def ppsOutPs (s : State) (x : Int) : Nat :=
  let ps := nsRat x * (1000 : Rat) / ((1 : Rat) + (ppsOutRate s : Rat) / (1099511627776 : Rat))
  (10 * freeRound (((psNow s : Nat) : Rat) / (10 : Rat) + ps / (10 : Rat))).toNat

/-- The ticks still to come at which PPS_OUT's clock changes its rate with no command: phase_ppb ends, or the bias reaches 0. -/
def ppsOutTurns (s : State) : List Nat :=
  let phase := (ppsOutView s).phaseUntil.toList
  let t := s.time.sel
  let settled := (ahead s ((biasAt t (dcNow s)).natAbs * 10 ^ 10 / (t.slewRate * 16 * 2 ^ 32) + 1))
  let bias := if (ppsCfg (posImage s)).outView = 8 && biasRate t (dcNow s) != 0 then [settled] else []
  let turns := (phase ++ bias).filter (fun u => !reached s u)
  turns.mergeSort (fun a b => decide (ticksFrom (dcNow s) a ≤ ticksFrom (dcNow s) b))

/-- The next rising edge of a 10 MHz wave of a clock that stands at `x` at a device time in ps, and the clock's rate from there. -/
def clk10Edge (ps : Nat) (x rate : Int) : Nat × Int :=
  let cell : Int := 100 * 2 ^ 32
  let wait := nsRat ((cell - x % cell) % cell) * (1000 : Rat) / ((1 : Rat) + (rate : Rat) / (1099511627776 : Rat))
  ((10 * freeRound (((ps : Nat) : Rat) / (10 : Rat) + wait / (10 : Rat))).toNat, rate)

/-- The 10 MHz wave of PPS_OUT from now on: its stretches of one rate, each from the first rising edge in it. -/
def clk10Wave (s : State) : List (Nat × Int) :=
  clk10Edge (psNow s) (ppsOutValue s) (ppsOutRate s) :: (ppsOutTurns s).map (fun u =>
    clk10Edge (psNow s + ticksFrom (dcNow s) u * 1600)
      ((if (ppsCfg (posImage s)).outView = 8 then tvSelAt s u else viewAt (ppsOutView s) u)) (ppsOutRateAt s (u + 1)))

/-- In CLK10 mode the wave is aligned to its view from its next rising edge on. -/
def clk10Align (s : State) : State :=
  if (ppsCfg (posImage s)).outMode != 2 || s.fault.stop then s else
    emit (.clk10 (clk10Wave s)) { s with pins := tset false s.pins 512 true }

/-- A change of the views or of TV_SEL at a tick: its past is kept, and a CLK10 wave whose clock changed is re-aligned. -/
def remap (at' : Nat) (f : State → State) (s : State) : State :=
  let t := remember at' f s
  if clk10Wave t = clk10Wave s then t else clk10Align t

/-! Steps and rates (R114, R116, R121) -/

/-- Rebase a view at the present tick: its value does not change. -/
def rebased (w : View) (dc : Nat) : View := { w with baseDc := dc, baseNs := viewAt w dc, rate := rateAt w dc }

/-- A frequency in ppb as a rate in units of 2^-40, never beyond 1,000 ppm (R114). -/
def rateOfPpb (x : Rat) : Int :=
  clampInt (-1099511627) 1099511627 (freeRound (x * (1099511627776 : Rat) / (1000000000 : Rat)))

/-- Run a view on new frequencies from the present tick; phase_ppb ends after `ticks`, when given. -/
def withFreq (w : View) (dc : Nat) (freq phase : Rat) (ticks : Option Nat) : View :=
  let b := rebased w dc
  { b with freq := freq, phase := phase, rate := rateOfPpb (freq + phase), heldRate := rateOfPpb freq
           phaseUntil := ticks.map (fun t => (dc + t) % 2 ^ 64) }

/-- Step a view to a value (ns with 32 fraction bits) at a tick: its epoch and, when it is selected, the selection epoch
advance; outstanding action commands are degraded (R104, R116, R118, R121). -/
def stepViewAt (v : Nat) (val : Int) (at' : Nat) (s : State) : State :=
  let w := view s v
  let old := viewAt w at'
  let e := (w.epoch + 1) % 65536
  let s1 := remap at' (fun t =>
    let u := setView v { rebased w at' with baseNs := val, epoch := e } t
    if t.time.sel.view = v then modSel (fun q => { q with epoch := (q.epoch + 1) % 65536 }) u else u) s
  let s2 := bump 6 (512 + v * 4) s1
  raise 0x0301 1 v ((val - old) / 2 ^ 32) e (if s.time.sel.view = v then gevDegradeAll s2 else s2)

/-- Step a view now. -/
def stepView (v : Nat) (val : Int) (s : State) : State := stepViewAt v val (dcNow s) s

/-- Run a view on new frequencies from now, keeping its other fields as `f` leaves them. -/
def refreq (v : Nat) (freq phase : Rat) (ticks : Option Nat) (f : View → View) (s : State) : State :=
  remap (dcNow s) (fun t => setView v (f (withFreq (view t v) (dcNow t) freq phase ticks)) t) s

/-! Selection (R129 to R131) -/

/-- D of the settings: backup minus primary, ns; 0 without a backup. -/
def selD (s : State) : Int := match (selSet s).backup with
  | some b => (viewNow s b - viewNow s (selSet s).primary) / 2 ^ 32
  | none => 0

/-- Move the selection to a view: seamlessly, the bias taking up the difference, or with a step and a new selection
epoch (R130, R131). Cause: 0 LOST, 1 ASYMMETRY, 2 REVERT, 3 COMMAND. -/
def selectView (v : Nat) (step : Bool) (cause : Nat) (s : State) : State :=
  let t := s.time.sel
  let bias := if step then 0 else tvSelAt s (dcNow s) - viewNow s v
  let t' : TvSel := { t with view := v, biasNs := bias, biasDc := dcNow s, slewing := decide (bias ≠ 0)
                             epoch := if step then (t.epoch + 1) % 65536 else t.epoch, slewRate := (selSet s).slewNs }
  raise 0x0303 1 (t.view + v * 256) (selD s) cause (bump 6 544 (gevDegradeAll (remap (dcNow s) (modSel (fun _ => t')) s)))

/-- With AUTO, a lost or suspect primary hands the selection to a LOCKED backup (R130). -/
def autoSelect (v cause : Nat) (s : State) : State :=
  let c := selSet s
  match c.backup with
  | some b => if c.auto && c.primary == v && s.time.sel.view == v && (view s b).locked then selectView b false cause s else s
  | none => s

/-- Keep the tick since when the primary has been LOCKED without ASYMMETRY_SUSPECT. -/
def healthStep (s : State) : State :=
  let w := view s (selSet s).primary
  if w.locked && !w.suspect then
    (if s.time.sel.healthySince.isNone then modSel (fun t => { t with healthySince := some (dcNow s) }) s else s)
  else modSel (fun t => { t with healthySince := none }) s

/-- SELECT_REVERT (R131). -/
def selectRevert (s : State) : State :=
  let c := selSet s
  match s.time.sel.healthySince with
  | some t =>
    let w := view s c.primary
    if c.revertive && c.backup == some s.time.sel.view && w.locked && !w.suspect && decide (secTicks c.holdS ≤ since s t)
    then selectView c.primary false 2 s else s
  | none => s

/-- Row SELECT_REVERT. -/
def execSelectRevert (s : State) : Host.Outcome State Fault Refusal := done (selectRevert s)

/-- SELECTION_BIAS_SETTLED: the slewing bias has reached 0 and SEL_SLEWING clears (R130). -/
def biasSettled (s : State) : State :=
  if s.time.sel.slewing && biasAt s.time.sel (dcNow s) == 0
  then remap (dcNow s) (modSel (fun t => { t with biasNs := 0, biasDc := dcNow s, slewing := false })) s else s

/-- Row SELECTION_BIAS_SETTLED. -/
def execSelectionBiasSettled (s : State) : Host.Outcome State Fault Refusal := done (biasSettled s)

/-! The servo (R121) -/

/-- A rational kept within bounds. -/
def clampRat (lo hi x : Rat) : Rat := if x < lo then lo else if hi < x then hi else x

/-- A gain in 0.16 fixed point. -/
def gain (k : Nat) : Rat := (k : Rat) / (65536 : Rat)

/-- The ticks since a view's previous measurement, if it came before this one. -/
def measuredTicks (w : View) (at' : Nat) : Option Nat :=
  w.measuredAt.bind (fun t => if 0 < ticksFrom t at' && decide (ticksFrom t at' < 2 ^ 63) then some (ticksFrom t at') else none)

/-- One offset measurement `m` (view minus source, ns) taken at tick `at'`: a step beyond the threshold, the PI servo
otherwise. With CLK10_FREQ the servo corrects phase only (R138). A measurement at or before the tick of the previous one follows no
other, so its t is the free `Config.firstInterval`. (DESIGN CHOICE, log entry 86) -/
def servo (v : Nat) (m : Rat) (at' : Nat) (s : State) : State :=
  let c := viewSet s v
  let w := view s v
  let took (x : View) : View := { x with offset := m, measuredAt := some at', locked := true, holdover := false, lost := false }
  if (c.stepNs : Rat) < m.abs then
    let s1 := refreq v w.freq 0 none took s
    healthStep (stepView v (viewNow s1 v - (m * (4294967296 : Rat)).floor) s1)
  else
    let ticks := measuredTicks w at'
    let t : Rat := match ticks with
      | some n => (n : Rat) * (16 : Rat) / (10000000000 : Rat)
      | none => Config.firstInterval s.draws
    let freq := if c.source = 3 && c.clk10Freq then w.freq else clampRat (-500000) 500000 (w.freq - gain c.ki * m / t)
    let phase := clampRat (-(c.slewPpb : Rat)) (c.slewPpb : Rat) (-(gain c.kp) * m / t)
    let hold := match ticks with
      | some n => n
      | none => (t * (625000000 : Rat)).floor.toNat
    healthStep (draw (refreq v freq phase (some hold) took s))

/-- Keep a sample of view minus partner while both are LOCKED, over the last qual_time_ms (R132): one at each of the view's own
measurements, the oldest given up as new ones come. (DESIGN CHOICE, log entry 87) -/
def drefSample (v : Nat) (s : State) : State :=
  let c := viewSet s v
  match c.partner with
  | some q =>
    let w := view s v
    if w.locked && (view s q).locked then
      let kept := w.drefs.filter (fun e => decide (since s e.1 < msTicks c.qualMs))
      setView v { w with drefs := (dcNow s, viewNow s v - viewNow s q) :: kept } s
    else s
  | none => s

/-- A source is heard again: the view is no longer lost, and leaves HOLDOVER unless it is ASYMMETRY_SUSPECT (R122, R133). -/
def heard (w : View) : View := { w with lost := false, holdover := w.suspect && w.holdover }

/-- A measurement reaches a view: recorded while frozen, ignored while ASYMMETRY_SUSPECT, else to the servo
(R121, R133). The first one after a loss ends the loss in each case (R122). -/
def takeMeasurement (v : Nat) (m : Rat) (at' : Nat) (s : State) : State :=
  let w := view s v
  if w.frozen then setView v (heard { w with offset := m, recorded := w.recorded ++ [(at', m)] }) s
  else if w.suspect then setView v { w with offset := m, lost := false } s
  else drefSample v (servo v m at' s)

/-- Views that qualify against a partner note that it is no longer LOCKED (R134). -/
def partnerLost (v : Nat) (s : State) : State :=
  (List.range 7).foldl (fun t q =>
    let w := view t q
    if w.frozen && (viewSet t q).partner == some v then setView q { w with partnerHeld := false } t else t) s

/-- A new filtered mean path delay: a change beyond asym_threshold_ns freezes the view and starts qualification (R132). A further
one during qualification starts it again, with the offsets recorded from there on. (DESIGN CHOICE, log entry 45) -/
def pathDelay (v ps : Nat) (s : State) : State :=
  let c := viewSet s v
  let w := view s v
  let moved : Int := match w.pathPs with | some old => (ps : Int) - (old : Int) | none => 0
  if c.source = 1 && c.asymNs != 0 && decide (c.asymNs * 1000 < moved.natAbs) then
    let held := match c.partner with | some q => (view s q).locked | none => false
    let s1 := refreq v w.freq 0 none (fun x => { x with
      pathPs := some ps, frozen := true, locked := false, recorded := [], qualEnd := some (ahead s (msTicks c.qualMs))
      partnerHeld := held }) s
    raise 0x0304 1 v moved 0 (bump 6 (512 + v * 4 + 2) (healthStep (partnerLost v s1)))
  else setView v { w with pathPs := some ps } s

/-- SERVO_MEASUREMENT: a view takes an offset of its source, ps, and where the source is PTP a filtered mean path
delay, ps. -/
def servoMeasurement (v : Nat) (offsetPs : Int) (path : Option Nat) (s : State) : State :=
  if v < 7 && (viewSet s v).source != 0 then
    let s1 := match path with | some ps => pathDelay v ps s | none => s
    takeMeasurement v ((offsetPs : Rat) / (1000 : Rat)) (dcNow s) s1
  else s

/-- Row SERVO_MEASUREMENT. -/
def execServoMeasurement (v : Nat) (offsetPs : Int) (path : Option Nat) (s : State) : Host.Outcome State Fault Refusal :=
  done (servoMeasurement v offsetPs path s)

/-! Loss of a source (R122) -/

/-- An interval of 2^log seconds, in ticks. -/
def logTicks (log : Int) : Nat := if 0 ≤ log then secTicks (2 ^ log.toNat) else secTicks 1 / 2 ^ (-log).toNat

/-- A PTP port's state. -/
def ptpPort (s : State) (n : Nat) : PtpPort := tget {} s.time.ptp n

/-- Set a PTP port's state. -/
def setPtpPort (n : Nat) (x : PtpPort) (s : State) : State := { s with time := { s.time with ptp := tset {} s.time.ptp n x } }

/-- Whether some ticks have passed since an optional event; since one that never came, none have, so that a source that has delivered
nothing since its commit is not lost. (DESIGN CHOICE, log entry 100) -/
def sinceAtLeast (s : State) (t : Option Nat) (n : Nat) : Bool := match t with
  | some u => decide (n ≤ since s u)
  | none => false

/-- The Announce timeout of a PTP port. -/
def announceLost (s : State) (n : Nat) : Bool :=
  let c := ptpCfg (posImage s) n
  sinceAtLeast s (ptpPort s n).lastAnnounce (c.announceTimeout * logTicks c.logAnnounce)

/-- Whether a view's source is lost (Table 5.2): a HOST_FEED view's by the moment of the last TIME.FEED_OFFSET. -/
def sourceLost (s : State) (v : Nat) : Bool :=
  let c := viewSet s v
  match c.source with
  | 1 => announceLost s c.port || sinceAtLeast s (ptpPort s c.port).lastSync (4 * logTicks (ptpCfg (posImage s) c.port).logSync)
  | 2 => sinceAtLeast s (view s v).fedAt (secTicks 4)
  | 3 => sinceAtLeast s s.time.ppsLast (msTicks 1500)
  | _ => false

/-- Count a SLAVE_ONLY port's Announce timeout, once for each (Table 5.14). -/
def announceExpire (s : State) (n : Nat) : State :=
  let x := ptpPort s n
  if (ptpCfg (posImage s) n).role = 1 && announceLost s n && !x.timedOut
  then bump 6 (n * 8 + 3) (setPtpPort n { x with timedOut := true } s) else s

/-- VIEW_LOST: HOLDOVER on freq_ppb alone, the event, and with AUTO the move of the selection. A view that is in HOLDOVER already,
as ASYMMETRY_SUSPECT, loses its source too; it enters HOLDOVER no second time. -/
def viewLost (v : Nat) (s : State) : State :=
  let w := view s v
  if v < 7 && !w.lost && sourceLost s v then
    let s1 := refreq v w.freq 0 none (fun x => { x with holdover := true, locked := false, lost := true }) s
    let s2 := if (viewSet s v).source = 1 then announceExpire s1 (viewSet s v).port else s1
    let s3 := if w.holdover then s2 else bump 6 (512 + v * 4 + 1) s2
    autoSelect v 0 (healthStep (raise 0x0302 2 v 0 0 (partnerLost v s3)))
  else s

/-- Row VIEW_LOST. -/
def execViewLost (v : Nat) (s : State) : Host.Outcome State Fault Refusal := done (viewLost v s)

/-! Qualification (R133, R134) -/

/-- The mean of a list of rationals; of none, the free `Config.emptyMean`. (DESIGN CHOICE, log entry 88) -/
def meanRat (s : State) (l : List Rat) : Rat :=
  if l.isEmpty then Config.emptyMean s.draws else l.foldl (· + ·) 0 / (l.length : Rat)

/-- e of R133, ns. Where qualification recorded no offset, or no sample of view minus partner was kept, the mean is a free value.
(DESIGN CHOICE, log entry 88) -/
def qualE (s : State) (v q : Nat) : Rat :=
  let w := view s v
  (nsRat (viewNow s v) - meanRat s (w.recorded.map (·.2)))
    - (nsRat (viewNow s q) + meanRat (draw s) (w.drefs.map (fun d => nsRat d.2)))

/-- The path is accepted: the recorded offsets go to the servo under R121. A suspect view ignores them (R133), and a view whose source
is lost stays in HOLDOVER, on the freq_ppb that they leave: they came before the loss (R122). -/
def acceptPath (v : Nat) (s : State) : State :=
  let w := view s v
  let s1 := setView v { w with frozen := false, recorded := [], qualEnd := none } s
  if w.suspect then s1 else
    let s2 := w.recorded.foldl (fun t e => servo v e.2 e.1 t) s1
    if w.lost then healthStep (refreq v (view s2 v).freq 0 none (fun x => { x with holdover := true, locked := false, lost := true }) s2)
    else s2

/-- QUALIFICATION_END. -/
def qualificationEnd (v : Nat) (s : State) : State :=
  let w := view s v
  let c := viewSet s v
  let beyond := match w.qualEnd with | some t => reached s t | none => false
  if !(w.frozen && beyond) then s else
  match (if w.partnerHeld then c.partner.filter (fun q => (view s q).locked) else none) with
  | some q =>
    let e := qualE s v q
    let ps := freeRound (e * (1000 : Rat))
    let s0 := draw (draw s)
    if e.abs ≤ (c.asymNs : Rat) then raise 0x0305 0 v ps 0 (acceptPath v s0)
    else
      let s1 := setView v { w with frozen := false, suspect := true, holdover := true, locked := false, recorded := []
                                   qualEnd := none } s0
      let s2 := if w.holdover then s1 else bump 6 (512 + v * 4 + 1) s1
      autoSelect v 1 (healthStep (raise 0x0306 2 v ps 0 (bump 6 (512 + v * 4 + 3) s2)))
  | none =>
    let s1 := acceptPath v s
    raise 0x0307 2 v 0 0 (setView v { view s1 v with unverified := true } s1)

/-- Row QUALIFICATION_END. -/
def execQualificationEnd (v : Nat) (s : State) : Host.Outcome State Fault Refusal := done (qualificationEnd v s)

/-! The PTP engine (R125 to R127) -/

/-- Whether the engine uses a message of this kind at all (Table 5.4): profile 0 and 1 are the default profiles. A message over the
transport that the port is not set to is discarded like one of another domain. (DESIGN CHOICE, log entry 109) -/
def ptpSupported (c : PtpCfg) (m : PtpMsg) : Bool :=
  m.transport == c.transport && m.domain == c.domain && !m.unicast && !m.secured && m.kind != 0xC && m.kind != 0xD && decide (m.profile < 2)

/-- The device's own port identity: clockIdentity and portNumber (R125). (DESIGN CHOICE, log entry 11) -/
def ownPortId (port : Nat) : Nat := Config.eui64 * 65536 + port + 1

/-- Whether one master data set is better than another (default BMCA). (PRESUMED, log entry 46) -/
def betterMaster (a b : PtpMaster) : Bool :=
  let key (m : PtpMaster) : List Nat :=
    [m.priority1, m.clockClass, m.accuracy, m.variance, m.priority2, m.grandmaster, m.stepsRemoved, m.portId]
  decide (key a < key b)

/-- The best master heard on a port. (PRESUMED, log entry 46) -/
def bestMaster (x : PtpPort) : Option PtpMaster := x.masters.foldl (fun acc m => match acc with
  | some b => if betterMaster m b then some m else some b
  | none => some m) none

/-- A port's state with the masters whose Announce has not timed out. -/
def liveMasters (s : State) (c : PtpCfg) (x : PtpPort) : PtpPort :=
  { x with masters := x.masters.filter (fun e => decide (since s e.heardAt < c.announceTimeout * logTicks c.logAnnounce)) }

/-- The view that takes its offsets from a PTP port. -/
def viewOfPort (s : State) (port : Nat) : Option Nat :=
  (List.range 7).find? (fun v => (viewSet s v).source == 1 && (viewSet s v).port == port)

/-- A 2^-16 ns correction as ns. -/
def corrNs (c : Int) : Rat := (c : Rat) / (65536 : Rat)

/-- The view time of a tick on a port: that of the port's view, device time without one. -/
def portTime (s : State) (port dc sub : Nat) : Rat := viewTime s ((viewOfPort s port).getD 7) dc sub

/-- A Sync's t1, and the tick of its t2, are complete: with a known mean path delay the view takes a measurement, whose tick is that of
the message that completes it. (DESIGN CHOICE, log entry 101) -/
def syncDone (port : Nat) (t1 : Rat) (dc sub : Nat) (s : State) : State :=
  let s1 := setPtpPort port { ptpPort s port with t12 := some (t1, dc, sub), sync := none } s
  match viewOfPort s port with
  | some v => match (view s1 v).pathPs with
    | some d => takeMeasurement v (portTime s port dc sub - t1 - (d : Rat) / (1000 : Rat)) (dcNow s) s1
    | none => s1
  | none => s1

/-- A raw mean path delay goes through the filter to the port's view. -/
def rawDelay (port : Nat) (d : Rat) (s : State) : State := match viewOfPort s port with
  | some v => pathDelay v (Config.delayFilter (view s v).pathPs d) s
  | none => s

/-- A message on a SLAVE_ONLY port. (PRESUMED, log entry 46) -/
def slaveMessage (port : Nat) (c : PtpCfg) (m : PtpMsg) (s : State) : State :=
  let x := ptpPort s port
  let fromBest := match bestMaster (liveMasters s c x) with | some b => b.portId == m.sender | none => false
  match m.kind with
  | 0xB =>
    let d : PtpMaster := ⟨m.priority1, m.clockClass, m.accuracy, m.variance, m.priority2, m.grandmaster, m.stepsRemoved,
      m.sender, dcNow s⟩
    let others := (liveMasters s c x).masters.filter (fun e => e.portId != m.sender)
    let x1 := { x with masters := d :: others }
    let chosen := match bestMaster x1 with | some b => b.portId == m.sender | none => false
    setPtpPort port (if chosen then { x1 with lastAnnounce := some (dcNow s), timedOut := false } else x1) s
  | 0 =>
    if !fromBest then s else
      let s1 := setPtpPort port { x with lastSync := some (dcNow s) } s
      if m.twoStep then setPtpPort port { ptpPort s1 port with sync := some (m.seq, m.rxDc, m.rxSub, m.correction) } s1
      else syncDone port ((m.timeNs : Rat) + corrNs m.correction) m.rxDc m.rxSub s1
  | 8 => match x.sync with
    | some (q, dc, sub, cor) =>
      if fromBest && q == m.seq then
        syncDone port ((m.timeNs : Rat) + corrNs (cor + m.correction)) dc sub s
      else s
    | none => s
  | 9 => match x.delayReq, x.t12 with
    | some (q, dc, sub), some (t1, dc2, sub2) =>
      if fromBest && q == m.seq && m.requester == ownPortId port && !c.p2p then
        let t2 := portTime s port dc2 sub2
        let t3 := portTime s port dc sub
        let t4 := (m.timeNs : Rat) - corrNs m.correction
        rawDelay port (((t2 - t1) + (t4 - t3)) / (2 : Rat)) (setPtpPort port { x with delayReq := none } s)
      else s
    | _, _ => s
  | 3 => match x.delayReq with
    | some (q, dc, sub) =>
      if q == m.seq && m.requester == ownPortId port && c.p2p then
        if m.twoStep then
          setPtpPort port { x with pdelay := some (q, m.rxDc, m.rxSub, (m.timeNs : Rat), m.correction) } s
        else rawDelay port ((portTime s port m.rxDc m.rxSub - portTime s port dc sub - corrNs m.correction) / (2 : Rat))
          (setPtpPort port { x with delayReq := none } s)
      else s
    | none => s
  | 0xA => match x.delayReq, x.pdelay with
    | some (q, dc, sub), some (_, dc4, sub4, t2, cor) =>
      if q == m.seq && m.requester == ownPortId port then
        rawDelay port ((portTime s port dc4 sub4 - portTime s port dc sub - ((m.timeNs : Rat) - t2) - corrNs (cor + m.correction))
          / (2 : Rat)) (setPtpPort port { x with delayReq := none, pdelay := none } s)
      else s
    | _, _ => s
  | _ => s

/-- A time in messages: whole ns, and the rest of it in 2^-16 ns for the correctionField. -/
def timeParts (x : Rat) : Nat × Int := (x.floor.toNat, ((x - (x.floor : Rat)) * (65536 : Rat)).floor)

/-- The time a port stamps its own messages in: TV_SEL on a MASTER_ONLY port (R127), its view otherwise. -/
def stampTime (s : State) (port : Nat) (c : PtpCfg) (dc sub : Nat) : Rat :=
  if c.role = 2 then tvSelTime s dc sub else portTime s port dc sub

/-- What a port's messages come from (R126): its transport and domain, and its IPv4 and MAC addresses, a field port's from the CAM
settings and those of MGMT from TIME.SET_PTP_PORT. -/
def ptpSource (s : State) (port : Nat) : PtpSource :=
  let c := ptpCfg (posImage s) port
  let ip := if port = 48 then c.mgmtIp else match portCfg (posImage s) port with | some p => p.ipv4 | none => []
  let mac := if port = 48 then c.mgmtMac else match portCfg (posImage s) port with | some p => p.mac | none => []
  ⟨c.transport, c.domain, if c.transport = 0 then ip else [], mac⟩

/-- A message of a port goes out. -/
def sendPtp (port kind ns : Nat) (body : List Nat) (s : State) : State := sendFrame port (.ptp port (ptpSource s port) kind ns body) s

/-- A message that carries a sequence, a port identity, a correctionField and a time goes out. -/
def sendStamped (port kind : Nat) (t : Rat) (seq to' : Nat) (corr : Int) (s : State) : State :=
  sendPtp port kind (timeParts t).1 [seq, to', patternOf 64 corr] s

/-- Answers that both roles give: Delay_Resp on a master port, Pdelay_Resp where P2P is set. A one-step Pdelay_Resp carries the
turnaround time in its correctionField; a two-step one carries t2, and its follow-up the departure t3. (PRESUMED, log entry 46) -/
def answerMessage (port : Nat) (c : PtpCfg) (m : PtpMsg) (s : State) : State :=
  let t2 := stampTime s port c m.rxDc m.rxSub
  let t3 := stampTime s port c (dcNow s) m.txSub
  if m.kind = 1 && c.role = 2 && !c.p2p then sendStamped port 9 t2 m.seq m.sender (m.correction - (timeParts t2).2) s
  else if m.kind = 2 && c.p2p then
    if c.oneStep then sendStamped port 3 0 m.seq m.sender (m.correction + ((t3 - t2) * (65536 : Rat)).floor) s
    else
      sendStamped port 0xA t3 m.seq m.sender (m.correction + (timeParts t3).2)
        (sendStamped port 3 t2 m.seq m.sender (-(timeParts t2).2) s)
  else s

/-- The PTP frame record of a received frame (Table 13.14). -/
def ptpFrameRecord (s : State) (port : Nat) (m : PtpMsg) : Bytes :=
  leBytes 1 port ++ leBytes 1 m.rxSub ++ leBytes 2 m.frame.length ++ leBytes 2 (tvEpochAt s m.rxDc) ++ zeros 2
    ++ leBytes 8 m.rxDc ++ leBytes 8 (tvSelAt s m.rxDc / 2 ^ 32).toNat ++ padTo 8 m.frame

/-- Count a received Sync or Announce (Table 5.14). -/
def ptpCountRx (port : Nat) (m : PtpMsg) (s : State) : State :=
  if m.kind = 0 then bump 6 (port * 8) s else if m.kind = 0xB then bump 6 (port * 8 + 2) s else s

/-- PTP_MESSAGE_RX: a port OFF discards and counts; a HOST port passes the frame to the host (R135); an engine port uses
the message, answers it, or discards and counts it (R126). (PRESUMED, log entry 46) -/
def ptpMessage (port : Nat) (m : PtpMsg) (s : State) : State :=
  let c := ptpCfg (posImage s) port
  let discard := bump 6 (port * 8 + 4) s
  let s1 := ptpCountRx port m (announceExpire s port)
  match c.role with
  | 0 => discard
  | 3 => raiseWith 0x0F01 0 port 0 0 (ptpFrameRecord s port m) (some port) s1
  | 1 => if ptpSupported c m then answerMessage port c m (slaveMessage port c m s1) else discard
  | _ => if ptpSupported c m then answerMessage port c m s1 else discard

/-- Row PTP_MESSAGE_RX. -/
def execPtpMessageRx (port : Nat) (m : PtpMsg) (s : State) : Host.Outcome State Fault Refusal := done (ptpMessage port m s)

/-- The grandmaster data a MASTER_ONLY port announces (R127): copied with stepsRemoved + 1 while TV_SEL's view is LOCKED
to PTP; clockClass 7 in HOLDOVER; clockClass 248 and the port's own priorities otherwise. R127 names FREE and TV7 for the last; the
model takes every other state of the view for it too. (DESIGN CHOICE, log entry 105) -/
def announceData (s : State) (port : Nat) : List Nat :=
  let c := ptpCfg (posImage s) port
  let v := s.time.sel.view
  let w := view s v
  let own (cls : Nat) : List Nat := [c.priority1, cls, c.priority2, Config.eui64, 0]
  if v = 7 then own 248
  else if w.locked && (viewSet s v).source == 1 then
    match bestMaster (liveMasters s (ptpCfg (posImage s) (viewSet s v).port) (ptpPort s (viewSet s v).port)) with
    | some b => [b.priority1, b.clockClass, b.accuracy, b.variance, b.priority2, b.grandmaster, b.stepsRemoved + 1]
    | none => own 248
  else if w.holdover then own 7 else own 248

/-- PTP_MASTER_TRANSMIT: a MASTER_ONLY port sends its Announce or its Sync, serving TV_SEL. A Sync leaves at a sub-tick: a one-step
Sync carries its departure, a two-step one's Follow_Up does (R113, R128). -/
def ptpMasterTransmit (port : Nat) (sync : Option Nat) (s : State) : State :=
  let c := ptpCfg (posImage s) port
  let x := ptpPort s port
  if c.role != 2 then s else match sync with
  | none =>
    sendPtp port 0xB (tvSelNs s) (x.announceSeq :: announceData s port)
      (setPtpPort port { x with announceSeq := (x.announceSeq + 1) % 65536 } s)
  | some sub =>
    let s1 := setPtpPort port { x with nextSeq := (x.nextSeq + 1) % 65536 } s
    let t := tvSelTime s (dcNow s) sub
    if c.oneStep then sendStamped port 0 t x.nextSeq (ownPortId port) (timeParts t).2 s1
    else sendStamped port 8 t x.nextSeq (ownPortId port) (timeParts t).2 (sendStamped port 0 0 x.nextSeq (ownPortId port) 0 s1)

/-- Row PTP_MASTER_TRANSMIT. -/
def execPtpMasterTransmit (port : Nat) (sync : Option Nat) (s : State) : Host.Outcome State Fault Refusal :=
  done (ptpMasterTransmit port sync s)

/-- PTP_DELAY_REQ_SEND: a SLAVE_ONLY port sends Delay_Req or Pdelay_Req and notes its departure. A MASTER_ONLY port sends none.
(DESIGN CHOICE, log entry 104) -/
def ptpDelayReqSend (port sub : Nat) (s : State) : State :=
  let c := ptpCfg (posImage s) port
  let x := ptpPort s port
  if c.role != 1 then s else
    sendPtp port (if c.p2p then 2 else 1) 0 [x.nextSeq] (bump 6 (port * 8 + 1)
      (setPtpPort port { x with nextSeq := (x.nextSeq + 1) % 65536, delayReq := some (x.nextSeq, dcNow s, sub) } s))

/-- Row PTP_DELAY_REQ_SEND. -/
def execPtpDelayReqSend (port sub : Nat) (s : State) : Host.Outcome State Fault Refusal := done (ptpDelayReqSend port sub s)

/-! Transmit timestamp queues (R135 to R137) -/

/-- A port's queue. -/
def txq (s : State) (n : Nat) : Txq := tget {} s.time.txq n

/-- Set it. -/
def setTxq (n : Nat) (x : Txq) (s : State) : State := { s with time := { s.time with txq := tset {} s.time.txq n x } }

/-- Whether a port's queue block is live: the port is in HOST role, and the window's blocks answer. -/
def txqLive (s : State) (n : Nat) : Bool := (ptpCfg (posImage s) n).role == 3 && s.start.blocksUp

/-- TXQ_ENTRY: a timestamp of a PTP event message the host transmitted is queued, or dropped on a full queue (R136). -/
def txqPush (port seq kind domain sub : Nat) (s : State) : State :=
  let q := txq s port
  if 32 ≤ q.entries.length then
    bump 6 (port * 8 + 6) (setTxq port { q with overflow := true, drops := satAdd (2 ^ 32 - 1) q.drops 1 } s)
  else
    let e : TxqEntry := ⟨seq, kind, domain, sub, s.time.sel.view, dcNow s, tvSelNs s, s.time.sel.epoch⟩
    bump 6 (port * 8 + 5) (setTxq port { q with entries := q.entries ++ [e] } s)

/-- The words of a head entry: ENTRY0 and ENTRY1 to ENTRY6 (Table 5.7). -/
def txqWords (port : Nat) (e : TxqEntry) : List Nat :=
  let ns := e.tvNs
  [e.sequenceId + 65536 * e.messageType + 2 ^ 20 * e.domain + 2 ^ 31,
   port + 256 * e.subTick + 65536 * e.view, e.deviceCount % 2 ^ 32, e.deviceCount / 2 ^ 32, ns % 1000000000,
   ns / 1000000000 % 2 ^ 32, ns / 1000000000 / 2 ^ 32 % 65536 + 65536 * e.epoch]

/-- A read of ENTRY0 pops the head and latches its remaining words; on an empty queue it latches zeros (R137). -/
def txqEntry0Read (port : Nat) (s : State) : State :=
  if !txqLive s port then s else
    let q := txq s port
    match q.entries with
    | e :: rest => setTxq port { q with entries := rest, latched := txqWords port e } s
    | [] => setTxq port { q with latched := [] } s

/-- Row TXQ_ENTRY0_READ. -/
def execTxqEntry0Read (port : Nat) (s : State) : Host.Outcome State Fault Refusal := done (txqEntry0Read port s)

/-- A read of TXQ_DROPS returns and clears it (R7, R137). -/
def txqDropsRead (port : Nat) (s : State) : State :=
  if txqLive s port then setTxq port { txq s port with drops := 0 } s else s

/-- Row TXQ_DROPS_READ. -/
def execTxqDropsRead (port : Nat) (s : State) : Host.Outcome State Fault Refusal := done (txqDropsRead port s)

/-- A write of 1 to OVERFLOW clears it. -/
def txqOverflowClear (port : Nat) (s : State) : State :=
  if txqLive s port then setTxq port { txq s port with overflow := false } s else s

/-- Row TXQ_OVERFLOW_CLEAR. -/
def execTxqOverflowClear (port : Nat) (s : State) : Host.Outcome State Fault Refusal := done (txqOverflowClear port s)

/-! PPS and CLK10 (R138, R139) -/

/-- A PPS edge comes to a view it is the source of: it takes the seconds given for it, or is a measurement (R124). -/
def ppsToView (v sub : Nat) (t : State) : State :=
  if (viewSet t v).source != 3 then t else
    let w := view t v
    match w.ppsSeconds with
    | some sec => stepView v ((((sec * 1000000000 : Nat) : Rat) - subTravel sub (rateAt w (dcNow t))) * (4294967296 : Rat)).floor
        (healthStep (setView v (heard { w with ppsSeconds := none, locked := !w.suspect, measuredAt := some (dcNow t) }) t))
    | none =>
      let x := viewTime t v (dcNow t) sub
      let n : Int := (x / (1000000000 : Rat) + (1 : Rat) / (2 : Rat)).floor
      takeMeasurement v (x - (n : Rat) * (1000000000 : Rat)) (dcNow t) t

/-- PPS_IN_EDGE: an edge of the selected sense is a measurement of every PPS_IN view, or ignored and counted when less
than 500 ms after the last accepted one. A view whose seconds were set takes them at this edge (R124). -/
def ppsInEdge (falling : Bool) (sub : Nat) (s : State) : State :=
  let c := ppsCfg (posImage s)
  if !c.inOn || c.inFalling != falling then s
  else if (match s.time.ppsLast with | some t => decide (since s t < msTicks 500) | none => false) then bump 6 545 s
  else
    let s1 := { s with time := { s.time with ppsLast := some (dcNow s) } }
    (List.range 7).foldl (fun t v => ppsToView v sub t) s1

/-- Row PPS_IN_EDGE. -/
def execPpsInEdge (falling : Bool) (sub : Nat) (s : State) : Host.Outcome State Fault Refusal := done (ppsInEdge falling sub s)

/-- The frequency of the CLK10 input comes to a PPS view that takes it, in HOLDOVER too. (DESIGN CHOICE, log entry 102) -/
def clk10ToView (ppb : Rat) (v : Nat) (t : State) : State :=
  let c := viewSet t v
  if c.source = 3 && c.clk10Freq then
    let w := view t v
    let left := w.phaseUntil.bind (fun u => if reached t u then none else some (ticksFrom (dcNow t) u))
    refreq v ppb (if left.isSome then w.phase else 0) left id t
  else t

/-- The frequency of CLK10_IN relative to REFCLK_SYS in ppb: periods of 100 ns between two stamped rising edges, the second now (R113, R138). -/
def clk10Freq (s : State) (g : Clk10Edges) : Rat :=
  let ns := ((ticksFrom g.firstDc (dcNow s) : Nat) : Rat) * (16 : Rat) / (10 : Rat)
    + ((g.lastSub : Rat) - (g.firstSub : Rat)) * (625 : Rat) / (100000 : Rat)
  (((g.periods * 100 : Nat) : Rat) / ns - (1 : Rat)) * (1000000000 : Rat)

/-- CLK10_GATE: a 1 s gate of CLK10_IN ends with its stamped edges; PPS_IN views with CLK10_FREQ follow the frequency. -/
def clk10Gate (g : Clk10Edges) (s : State) : State :=
  if !(ppsCfg (posImage s)).clk10In || ticksFrom g.firstDc (dcNow s) < 2 then s else
    let x := clk10Freq s g
    (List.range 7).foldl (fun t v => clk10ToView x v t) { s with time := { s.time with clk10Ppb := sat32 (freeRound x) } }

/-- Row CLK10_GATE. -/
def execClk10Gate (g : Clk10Edges) (s : State) : Host.Outcome State Fault Refusal := done (clk10Gate g s)

/-- PPS_OUT_PULSE: at a second boundary of its view, a pulse of width_ms; each second number at most once and pulses at
least 500 ms apart (R139). The boundary lies within the tick just passed, and the edge stands where it lies. -/
def ppsOutPulse (s : State) : State :=
  let c := ppsCfg (posImage s)
  let x := ppsOutValue s
  let sec := (x / (1000000000 * 2 ^ 32)).toNat
  -- the boundary lies within the tick just passed: less than 1.6 ns × (1 + 1,000 ppm)
  let atBoundary := decide (x % (1000000000 * 2 ^ 32) < 6878818796)
  let fresh := match s.time.ppsOutSecond with | some n => decide (n < sec) | none => true
  let apart := match s.time.ppsOutAt with | some t => decide (msTicks 500 ≤ since s t) | none => true
  if c.outMode = 1 && !s.fault.stop && atBoundary && fresh && apart then
    let up := ppsOutPs s (-(x % (1000000000 * 2 ^ 32)))
    drivePin 512 false (up + c.widthMs * 1000000000) (drivePin 512 true up
      { s with time := { s.time with ppsOutSecond := some sec, ppsOutAt := some (dcNow s) } })
  else s

/-- Row PPS_OUT_PULSE. -/
def execPpsOutPulse (s : State) : Host.Outcome State Fault Refusal := done (ppsOutPulse s)

/-! View read blocks (R119, Table 5.1) -/

/-- The status bits [6:0] of a view. -/
def viewStatus (s : State) (v : Nat) : Nat :=
  let w := view s v
  b2n w.locked + 2 * b2n w.holdover + 4 * b2n (v != 7 && (viewSet s v).source == 0) + 8 * b2n w.frozen
    + 16 * b2n w.suspect + 32 * b2n w.unverified + 64 * b2n (v == 7)

/-- The words 0x00 to 0x1C of a block: view 0 to 7, or 8 for TV_SEL. -/
def viewBlock (s : State) (v : Nat) : List Nat :=
  let t := s.time.sel
  let x := if v = 8 then tvSelAt s (dcNow s) else viewNow s v
  let ns := (x / 2 ^ 32).toNat
  let sec := ns / 1000000000
  let epoch := if v = 8 then t.epoch else (view s v).epoch
  let status := if v = 8 then (if t.view = 7 then 0 else viewStatus s t.view) + 256 * t.view + 2048 * b2n t.slewing
    else viewStatus s v
  let rate := if v = 8 then rateAt (view s t.view) (dcNow s) else rateAt (view s v) (dcNow s)
  let off := if v = 8 then biasAt t (dcNow s) / 2 ^ 32 else freeRound (view s v).offset
  [dcNow s % 2 ^ 32, dcNow s / 2 ^ 32 % 2 ^ 32, ns % 1000000000, sec % 2 ^ 32, sec / 2 ^ 32 % 65536 + 65536 * epoch, status,
   patternOf 32 rate, patternOf 32 (sat32 off)]

/-- VIEW_BLOCK_READ: a read of DC_LO latches the block for the reading function; a VF has the TV_SEL block alone. -/
def viewBlockRead (f : Fn) (v : Nat) (s : State) : State :=
  if s.start.blocksUp && decide (v < 9) && (fnIsPf f || v == 8) then
    let r := fnRegs s f
    setFnRegs f { r with views := tput r.views v (viewBlock s v) } s
  else s

/-- Row VIEW_BLOCK_READ. (DEDUCED, log entry 17) -/
def execViewBlockRead (f : Fn) (v : Nat) (s : State) : Host.Outcome State Fault Refusal := done (viewBlockRead f v s)

/-- VIEW_STEP_APPLY: a TIME.STEP_VIEW reaches its tick (R124). -/
def viewStepApply (v : Nat) (s : State) : State :=
  let w := view s v
  match w.step with
  | some (t, ns) =>
    if reached s t then stepViewAt v ((ns * 2 ^ 32 : Nat) : Int) t (setView v { w with step := none } s) else s
  | none => s

/-- Row VIEW_STEP_APPLY. -/
def execViewStepApply (v : Nat) (s : State) : Host.Outcome State Fault Refusal := done (viewStepApply v s)

/-! What a commit does to the time part (R115, R131, R140) -/

/-- A view at a commit that carries it: a new source starts without a measurement, on the kept rate; a suspect view stays in HOLDOVER
(R133), and a step still to come stands only where TIME.STEP_VIEW could set it (R124). A new partner begins without samples. -/
def viewCommit (old new : Image) (v : Nat) (s : State) : State :=
  let a := viewCfg old v
  let b := viewCfg new v
  let w := view s v
  if a.source = b.source && a.port = b.port then
    (if a.partner = b.partner then s else setView v { w with partnerHeld := false, drefs := [] } s)
  else
    healthStep (partnerLost v (refreq v w.freq 0 none (fun x => { x with
      locked := false, holdover := x.suspect && x.holdover, lost := false, frozen := false, recorded := [], qualEnd := none
      measuredAt := none, fedAt := none, pathPs := none, drefs := [], ppsSeconds := none
      step := if b.source = 0 || b.source = 2 then x.step else none }) s))

/-- A commit of TIME.SET_SELECT moves the selection to its primary (R131), whatever it was before; the first one after a W2 does so
too (R115). -/
def selCommit (_old new : Image) (s : State) : State :=
  let b := selCfg new
  let t := s.time.sel
  let s1 := remap (dcNow s) (modSel (fun q => { q with
    biasNs := biasAt t (dcNow s), biasDc := dcNow s, slewRate := b.slewNs, kept := false })) s
  let s2 := if t.view = b.primary then s1 else selectView b.primary false 3 s1
  healthStep (modSel (fun q => { q with healthySince := none }) s2)

/-- A PTP port at a commit that changes its role starts anew; leaving HOST empties its queue. -/
def ptpCommit (old new : Image) (n : Nat) (s : State) : State :=
  if (ptpCfg old n).role = (ptpCfg new n).role then s else setTxq n {} (setPtpPort n {} s)

/-- PPS_OUT at a commit: a changed mode or view leaves the output low, and a CLK10 wave begins. The last second emitted, of whatever
view, stays the one that R139 compares with. (DESIGN CHOICE, log entry 107) -/
def ppsCommit (old new : Image) (s : State) : State :=
  let a := ppsCfg old
  let b := ppsCfg new
  if a.outMode = b.outMode && a.outView = b.outView then s else clk10Align (drivePin 512 false (psNow s) s)

/-- The time part at P_c. -/
def timeCommit (old new staged : Image) (s : State) : State :=
  staged.foldl (fun t e => match e.1 / 2 ^ 32 with
    | 0x0600 => viewCommit old new (e.1 % 2 ^ 32) t
    | 0x0601 => ptpCommit old new (e.1 % 2 ^ 32) t
    | 0x0602 => selCommit old new t
    | 0x0603 => ppsCommit old new t
    | _ => t) s

/-! Commands -/

/-- Row TIME_SET_VIEW. -/
def execTimeSetView (io : HostIo) (s : State) : Host.Outcome State Fault Refusal :=
  done (serve { code := 0x0600, len := some 32 } io (stage 0x0600 objByte viewCheck) s)

/-- Row TIME_SET_PTP_PORT. -/
def execTimeSetPtpPort (io : HostIo) (s : State) : Host.Outcome State Fault Refusal :=
  done (serve { code := 0x0601, len := some 32 } io (stage 0x0601 objByte ptpCheck) s)

/-- Row TIME_SET_SELECT. -/
def execTimeSetSelect (io : HostIo) (s : State) : Host.Outcome State Fault Refusal :=
  done (serve { code := 0x0602, len := some 16 } io (stage 0x0602 (fun _ => 0) selCheck) s)

/-- Row TIME_SET_PPS. -/
def execTimeSetPps (io : HostIo) (s : State) : Host.Outcome State Fault Refusal :=
  done (serve { code := 0x0603, len := some 16 } io (stage 0x0603 (fun _ => 0) ppsCheck) s)

/-- TIME.GET_VIEW response (Table 5.13). D of R129 is read as view minus partner, the one difference of the table.
(DEDUCED, log entry 106) -/
def getView (s : State) (p : Bytes) : Bytes :=
  let v := fld p 0 1
  let w := view s v
  let ns := (viewNow s v / 2 ^ 32).toNat
  let c := viewSet s v
  leBytes 8 (dcNow s) ++ leBytes 8 (ns / 1000000000 % 2 ^ 48) ++ leBytes 4 (ns % 1000000000) ++ leBytes 2 w.epoch
    ++ leBytes 2 (viewStatus s v) ++ leInt 4 (rateAt w (dcNow s)) ++ leInt 4 (sat32 (freeRound w.offset))
    ++ leInt 8 (match c.partner with | some q => (viewNow s v - viewNow s q) / 2 ^ 32 | none => 0)
    ++ leBytes 8 (if c.source = 1 then w.pathPs.getD 0 else 0)
    ++ leInt 4 (if (ppsCfg (posImage s)).clk10In then s.time.clk10Ppb else 0) ++ zeros 12

/-- Row TIME_GET_VIEW. -/
def execTimeGetView (io : HostIo) (s : State) : Host.Outcome State Fault Refusal :=
  done (serve { code := 0x0610, len := some 8 } io (query (fun _ p => orBadArg (decide (fld p 0 1 < 8) && zeroRange p 1 7))
    getView) s)

/-- TIME.STEP_VIEW (R117, R124). TV7 answers 0x40 before the reserved fields are looked at, and a second step that comes before the tick
of the first replaces it. (DESIGN CHOICE, log entries 99 and 103) -/
def stepViewCmd (s : State) (_q : Req) (p : Bytes) : Reply :=
  let v := fld p 0 1
  let dc := fld p 8 8
  let sec := fld p 16 8
  let ns := fld p 24 4
  if v = 7 then reply 0x40 s
  else if !(decide (v < 7) && zeroRange p 1 7 && decide (sec < 2 ^ 48) && decide (ns < 1000000000) && zeroRange p 28 4)
      || !(dc == 0 || decide (ticksFrom (dcNow s) dc ≤ secTicks 1)) then reply stBadArg s
  else match (viewSet s v).source with
    | 1 => reply stBadState s
    | 3 => reply stOk (setView v { view s v with ppsSeconds := some sec } s)
    | _ => reply stOk (setView v { view s v with step := some (if dc = 0 then ahead s 1 else dc, sec * 1000000000 + ns) } s)

/-- Row TIME_STEP_VIEW. -/
def execTimeStepView (io : HostIo) (s : State) : Host.Outcome State Fault Refusal :=
  done (serve { code := 0x0611, len := some 32 } io stepViewCmd s)

/-- TIME.FEED_OFFSET (R120): a measurement not older than 1 s. -/
def feedOffset (s : State) (_q : Req) (p : Bytes) : Reply :=
  let v := fld p 0 1
  let dc := fld p 16 8
  if !(decide (v < 7) && zeroRange p 1 7 && decide (since s dc ≤ secTicks 1)) then reply stBadArg s
  else if (viewSet s v).source != 2 then reply 0x42 s
  else reply stOk (takeMeasurement v ((sfld p 8 8 : Rat) / (1000 : Rat)) dc (setView v { view s v with fedAt := some (dcNow s) } s))

/-- Row TIME_FEED_OFFSET. -/
def execTimeFeedOffset (io : HostIo) (s : State) : Host.Outcome State Fault Refusal :=
  done (serve { code := 0x0612, len := some 24 } io feedOffset s)

/-- TIME.SELECT_NOW (R131). -/
def selectNow (s : State) (_q : Req) (p : Bytes) : Reply :=
  let v := fld p 0 1
  if !(fieldsOk p [⟨0, 1, 0, 7, false⟩, ⟨1, 1, 0, 1, false⟩] [(2, 6)]) then reply stBadArg s
  else if v != 7 && !(view s v).locked then reply 0x43 s
  else if v = s.time.sel.view && !bitOf (fld p 1 1) 0 then reply stOk s
  else reply stOk (selectView v (bitOf (fld p 1 1) 0) 3 s)

/-- Row TIME_SELECT_NOW. -/
def execTimeSelectNow (io : HostIo) (s : State) : Host.Outcome State Fault Refusal :=
  done (serve { code := 0x0613, len := some 8 } io selectNow s)

/-- TIME.CLEAR_FLAGS (R133): the suspect view leaves HOLDOVER at its next offset. -/
def timeClearFlags (s : State) (_q : Req) (p : Bytes) : Reply :=
  let v := fld p 0 1
  if !(decide (v < 7) && zeroRange p 1 7) then reply stBadArg s
  else reply stOk (healthStep (setView v { view s v with suspect := false, unverified := false } s))

/-- Row TIME_CLEAR_FLAGS. -/
def execTimeClearFlags (io : HostIo) (s : State) : Host.Outcome State Fault Refusal :=
  done (serve { code := 0x0614, len := some 8 } io timeClearFlags s)

end Sys2Proof.Machine
end

