-- ==== Sys2Proof/Machine/HostCfg.lean ====
section
/-! DEFINITION. The settings of the HOST family: routes and the delivery queue, what CFG.COMMIT checks of them, and the host formats
with their width conversion (R343, R344, R347, R350, R351, Tables 13.12, 13.13 and 13.20). -/

namespace Sys2Proof.Machine

/-! HOST.SET_ROUTE and HOST.SET_QUEUE -/

/-- A route (Table 13.20). -/
structure RouteCfg where
  kind : Nat
  format : Nat
  furrow : Nat
  graph : Nat
  output : Nat
  rows : Nat
  select : Nat
  deriving DecidableEq, Repr

/-- A route as a request gives it. -/
def readRoute (p : Bytes) : RouteCfg := ⟨fld p 2 1, fld p 3 1, fld p 4 2, fld p 6 1, fld p 7 1, fld p 8 2, fld p 12 4⟩

/-- A route of an image, none where it is OFF. -/
def routeCfg (img : Image) (r : Nat) : Option RouteCfg := match tfind img (settingKey 0x0B00 r) with
  | some p => if fld p 2 1 = 0 then none else some (readRoute p)
  | none => none

/-- The enabled routes of an image with their numbers, ascending. -/
def routesOf (img : Image) : List (Nat × RouteCfg) := (List.range 1024).filterMap (fun r => (routeCfg img r).map (fun c => (r, c)))

/-- The tag type of a route kind, which is also the type of its furrow (Table 13.13). -/
def kindType (k : Nat) : Nat := match k with
  | 1 => 1 | 2 => 2 | 3 => 3 | 4 => 4 | 5 => 5 | 6 => 5 | _ => 6

/-- The kinds with pixels: rows, tiles and overviews. -/
def kindPixels (k : Nat) : Bool := k == 1 || k == 3 || k == 4

/-- The checks of HOST.SET_ROUTE. (DEDUCED, log entry 65; DEDUCED, log entry 76) -/
def routeCheck (_s : State) (p : Bytes) : Option Nat :=
  let c := readRoute p
  let graphOk := if c.kind = 2 || c.kind = 3 then decide (c.graph < 64) || c.graph == 0xFF
    else if c.kind = 1 || c.kind = 4 || c.kind = 5 then decide (c.graph < 64) else c.graph == 0
  let outputOk := if c.kind = 1 || c.kind = 4 || c.kind = 5 then decide (c.output < 8) else c.output == 0
  let rowsOk := if c.kind = 1 then decide (1 ≤ c.rows) && decide (c.rows ≤ 4096) else c.rows == 0
  let selectOk := if c.kind = 6 || c.kind = 7 then decide (c.select < 65536)
    else if c.kind = 8 then decide (c.select ≤ 48) else c.select == 0
  if !(decide (fld p 0 2 < 1024) && decide (c.kind ≤ 8) && decide (c.format ≤ 6) && decide (c.furrow < 32768) && graphOk && outputOk
      && rowsOk && selectOk && zeroRange p 10 2 && zeroRange p 16 16) then some stBadArg
  else if c.format != 0 && !kindPixels c.kind then some 0x44
  else none

/-- Row HOST_SET_ROUTE. -/
def execHostSetRoute (io : HostIo) (s : State) : Host.Outcome State Fault Refusal :=
  done (serve { code := 0x0B00, len := some 32 } io (stage 0x0B00 (fun p => fld p 0 2) routeCheck) s)

/-- The checks of HOST.SET_QUEUE. -/
def queueCheck (_s : State) (p : Bytes) : Option Nat :=
  orBadArg ((fld p 0 2 == 0 || (decide (64 ≤ fld p 0 2) && decide (fld p 0 2 ≤ 4096))) && zeroRange p 2 6)

/-- Row HOST_SET_QUEUE. -/
def execHostSetQueue (io : HostIo) (s : State) : Host.Outcome State Fault Refusal :=
  done (serve { code := 0x0B01, len := some 8 } io (stage 0x0B01 (fun _ => 0) queueCheck) s)

/-- The delivery queue's size in MiB. -/
def queueMib (img : Image) : Nat :=
  let v := fld (settingIn img 0x0B01 0 (zeros 8)) 0 2
  if v = 0 then 256 else v

/-- The graph working store in MiB: what the fixed area and the look-back buffer leave of the usable HBM (R13, Table 1.6). -/
def workingStoreMib (s : State) (img : Image) : Nat := (if feature s 6 then 72 else 96) * 1024 - 2048 - lookbackGranules img / 1024

/-- Whether an output of a graph's cut list has a kind (R344): 0 ROWS, 1 OVERVIEW, 2 STATISTICS. -/
def outputIs (img : Image) (g num kind : Nat) : Bool := match cutOf (settingIn img 0x0900 g []) with
  | some c => c.outs.any (fun o => o.num == num && o.kind == kind)
  | none => false

/-- Whether a graph emits region records. -/
def emitsRecords (img : Image) (g : Nat) : Bool := match cutOf (settingIn img 0x0900 g []) with
  | some c => usesOp c opLabel
  | none => false

/-- What CFG.COMMIT checks of the HOST settings (R344, Table 13.19). -/
def hostValidate (s : State) (img : Image) (code obj : Nat) : Option Nat :=
  if code = 0x0B01 then (if workingStoreMib s img < queueMib img then some 0x46 else none)
  else if code ≠ 0x0B00 then none
  else match routeCfg img obj with
    | none => none
    | some c =>
      let f := tget {} s.deliv.furrows c.furrow
      let bad := match c.kind with
        | 1 => !outputIs img c.graph c.output 0
        | 2 => c.graph != 0xFF && !emitsRecords img c.graph
        | 3 => c.graph != 0xFF && !emitsRecords img c.graph
        | 4 => !outputIs img c.graph c.output 1
        | 5 => !outputIs img c.graph c.output 2
        | 8 => (ptpCfg img c.select).role != 3
        | _ => false
      if f.st ≠ 0 && f.type ≠ kindType c.kind then some 0x43 else if bad then some 0x44 else none

/-! Width conversion (R350, R351, Table 13.12) -/

/-- Wd of a host format; the source's own width for NATIVE. -/
def hostWidth (fmt native : Nat) : Nat := match fmt with
  | 1 => 8 | 2 => 16 | 3 => 32 | 4 => 10 | 5 => 12 | 6 => 14 | _ => native

/-- A pixel converted from `ws` bits to a host format. -/
def convertPixel (ws : Nat) (signed fromU32 : Bool) (fmt : Nat) (v : Int) : Int :=
  let wd := hostWidth fmt ws
  let lo : Int := if signed then -((2 ^ (wd - 1) : Nat) : Int) else 0
  let hi : Int := if signed then ((2 ^ (wd - 1) : Nat) : Int) - 1 else ((2 ^ wd : Nat) : Int) - 1
  if fmt = 0 || fmt = 3 then v
  else if fromU32 then clampInt lo hi v
  else if ws ≤ wd then v * ((2 ^ (wd - ws) : Nat) : Int)
  else clampInt lo hi (shiftRound v ((ws - wd : Nat) : Int))

/-- The bytes of a row of pixels in a host format. -/
def hostPixels (fmt ws container : Nat) (signed : Bool) (vals : List Int) : Bytes :=
  let w := hostWidth fmt container
  packBits w (vals.map (fun v => patternOf w (convertPixel ws signed false fmt v)))

/-- A stretch of a unit's payload in a route's host format: every row of pixels is padded to a multiple of 8 bytes (R346). -/
def hostChunk (fmt : Nat) : Chunk → Bytes
  | .raw b => b
  | .pix ws c sgn vals => padTo 8 (hostPixels fmt ws c sgn vals)
  | .lineLen _ c n => leBytes 4 (64 + 8 * ceilDiv (n * hostWidth fmt c) 64)

/-- A unit as a route delivers it: the tag, then the payload. -/
def hostUnit (fmt : Nat) (u : DUnit) : Bytes :=
  let b := padTo 8 (u.payload.flatMap (hostChunk fmt))
  tagBytes u b.length ++ b

end Sys2Proof.Machine
end

