-- ==== Sys2Proof/Machine/Furrow.lean ====
section
/-! DEFINITION. A furrow at work: descriptors, filling buffers, the delivery queue, write-backs, interrupts and faults (R337 to R342,
R345, R347, R355, R356). -/

namespace Sys2Proof.Machine

/-! Furrows -/

def fsFree : Nat := 0
def fsReady : Nat := 1
def fsRunning : Nat := 2
def fsStandby : Nat := 3
def fsFault : Nat := 4

/-- A furrow. -/
def furrowOf (s : State) (n : Nat) : Furrow := tget {} s.deliv.furrows n

/-- Set a furrow. -/
def setFurrow (n : Nat) (x : Furrow) (s : State) : State := { s with deliv := { s.deliv with furrows := tset {} s.deliv.furrows n x } }

/-- Count for the port of a furrow's owner. -/
def furrowCount (x : Furrow) (k n : Nat) (s : State) : State := bumpBy 11 (portIndex (fnPort x.owner) k) n s

/-- The ring size. -/
def ringLen (x : Furrow) : Nat := 2 ^ x.sizeLog

/-- Descriptors posted and not yet fetched. A TAIL that steps back posts nothing. -/
def unfetched (x : Furrow) : Nat :=
  let d := (x.tail + 2 ^ 32 - x.fetched) % 2 ^ 32
  if d ≤ ringLen x then d else 0

/-- Whether a furrow carries units. -/
def carriesUnits (x : Furrow) : Bool := decide (1 ≤ x.type) && decide (x.type ≤ 6)

/-! Descriptors (Table 13.9) -/

def descAddr (d : Bytes) : Nat := fld d 0 8
def descLen (d : Bytes) : Nat := fld d 8 4
def descOwn (d : Bytes) : Bool := bitOf (fld d 0x0D 1) 0
def descIrq (d : Bytes) : Bool := bitOf (fld d 0x0D 1) 1

/-- Whether a descriptor is sound for a furrow's type (Table 13.11, BAD_ARG). COPY with one format NATIVE alone is sound where the
destination is, which is then the source's format; a NATIVE source has no width of its own. -/
def descOk (type : Nat) (d : Bytes) : Bool :=
  let len := descLen d
  let src := fld d 0x0E 1
  let dst := fld d 0x0F 1
  fld d 0x0C 1 == type && zeroRange d 0x18 8 && decide (fld d 0x0D 1 < (if type = 8 then 8 else 4))
    && (if type = 7 then decide (60 ≤ len) && decide (len ≤ 1514) && src == 0 && dst == 0 && fld d 0x10 1 == 1
          && decide (fld d 0x11 1 ≤ 48) && zeroRange d 0x12 6
        else if type = 8 then decide (1 ≤ len) && decide (len ≤ 16777216) && decide (src ≤ 6) && decide (dst ≤ 6) && (src != 0 || dst == 0)
        else descAddr d % 8 == 0 && decide (64 ≤ len) && decide (len ≤ 16777216) && len % 8 == 0 && src == 0 && dst == 0
          && zeroRange d 0x10 8)

/-! Faults and fetches -/

/-- A furrow goes to FAULT (Table 13.6). -/
def furrowFault (n cause : Nat) (s : State) : State :=
  raise 0x0902 3 n cause 0 (setFurrow n { furrowOf s n with st := fsFault, cause := cause, fetching := false, retried := false } s)

/-- The descriptors that the next fetch asks for. -/
def fetchCount (x : Furrow) : Nat := min (min 8 (unfetched x)) (ringLen x - x.fetched % ringLen x)

/-- A host port. -/
def hostPort (s : State) (p : Nat) : HostPort := tget {} s.deliv.ports p

/-- Set a host port. -/
def setHostPort (p : Nat) (x : HostPort) (s : State) : State := { s with deliv := { s.deliv with ports := tset {} s.deliv.ports p x } }

/-- The read requests of a read: none exceeds Max_Read_Request_Size (R334). -/
def readCount (s : State) (p len : Nat) : Nat := ceilDiv len (max 128 (hostPort s p).mrrs)

/-- Read requests that are outstanding for the descriptor fetches of a port (R334). -/
def readsOut (s : State) (p : Nat) : Nat :=
  sumBy (fun e => if e.2.fetching && fnPort e.2.owner = p then readCount s p (32 * e.2.asked) else 0) s.deliv.furrows

/-- Whether a port may have more read requests outstanding: its tags and 2,048 at most, 4,096 for the device (R334). -/
def readRoom (s : State) (p n : Nat) : Bool :=
  decide (readsOut s p + n ≤ min 2048 (hostPort s p).tags) && decide (readsOut s 0 + readsOut s 1 + n ≤ 4096)

/-- Ask the host for some bytes, in requests of at most Max_Read_Request_Size. -/
def readHost (fn addr len : Nat) (s : State) : State :=
  let m := max 128 (hostPort s (fnPort fn)).mrrs
  (List.range (ceilDiv len m)).foldl (fun t i => emit (.hostRead fn (addr + i * m) (min m (len - i * m))) t) s

/-- Issue the next fetch, of up to 8 descriptors that lie together in the ring, unless the port's requests are used up (R334, R339,
R341). -/
def issueFetch (n : Nat) (s : State) : State :=
  let x := furrowOf s n
  let len := 32 * fetchCount x
  if x.st != fsRunning || x.fetching || unfetched x = 0 || !readRoom s (fnPort x.owner) (readCount s (fnPort x.owner) len) then s
  else readHost x.owner (x.ring + x.fetched % ringLen x * 32) len (setFurrow n { x with fetching := true, asked := fetchCount x } s)

/-- Fetches that waited for requests to come back are issued, in ascending furrow. -/
def issueWaiting (s : State) : State := (s.deliv.furrows.map (·.1)).foldl (fun t n => issueFetch n t) s

/-! Filling buffers (R345) -/

/-- Unsound descriptors at the front of what is left complete with BAD_ARG, with nothing written. -/
def skipBad (type : Nat) : List Bytes → List Buf × List Bytes
  | [] => ([], [])
  | d :: t => if descOk type d then ([], d :: t) else
      let r := skipBad type t
      ({ desc := d, status := 3 } :: r.1, r.2)

/-- Bytes rounded up to where the next unit may start. -/
def align8 (n : Nat) : Nat := 8 * ceilDiv n 8

/-- Put a unit into a buffer behind what it holds. (DEDUCED, log entry 65) -/
def addUnit (b : Buf) (u : HUnit) (now : Nat) : Buf :=
  let off := align8 b.data.length
  { b with
    data := padTo 8 b.data ++ u.bytes, tagOff := some (b.tagOff.getD off), count := b.count + 1
    firstAt := if b.count = 0 then now else b.firstAt, units := b.units ++ [u] }

/-- One piece of a unit that is larger than its buffers. -/
def pieceOf (d : Bytes) (u : HUnit) (off : Nat) (now : Nat) : Buf :=
  let chunk := (u.bytes.drop off).take (descLen d)
  { desc := d, data := chunk, tagOff := if off = 0 then some 0 else none, count := b2n (off == 0), continued := off != 0
    continues := decide (off + chunk.length < u.bytes.length), firstAt := now, units := [u] }

/-- Move the waiting units into buffers as far as descriptors go, and answer the units that left the queue, oldest first. -/
def pumpGo (now : Nat) : Nat → Furrow → List HUnit → Furrow × List HUnit
  | 0, x, out => (x, out)
  | k + 1, x0, out =>
    let sk := if x0.cur.isNone then skipBad x0.type x0.descs else ([], x0.descs)
    let x := { x0 with full := x0.full ++ sk.1, descs := sk.2 }
    match x.part, x.descs with
    | some _, [] => (x, out)
    | some (u, off), d :: ds =>
      let b := pieceOf d u off now
      pumpGo now k { x with
        descs := ds, full := x.full ++ [b], part := if b.continues then some (u, off + b.data.length) else none } out
    | none, _ => match x.queue with
      | [] => (x, out)
      | u :: q => match x.cur with
        | some b =>
          if align8 b.data.length + u.bytes.length ≤ descLen b.desc then
            pumpGo now k { x with cur := some (addUnit b u now), queue := q } (out ++ [u])
          else pumpGo now k { x with cur := none, full := x.full ++ [b] } out
        | none => match x.descs with
          | [] => (x, out)
          | d :: ds =>
            if descLen d < u.bytes.length then pumpGo now k { x with part := some (u, 0), queue := q } (out ++ [u])
            else
              let b := addUnit { desc := d } u now
              if x.pack then pumpGo now k { x with cur := some b, descs := ds, queue := q } (out ++ [u])
              else pumpGo now k { x with full := x.full ++ [b], descs := ds, queue := q } (out ++ [u])

/-- Count units that have left a furrow's queue for a buffer. -/
def countTaken (n : Nat) (us : List HUnit) (s : State) : State :=
  us.foldl (fun t u =>
    let x := furrowOf t n
    if u.again then furrowCount x 7 1 t
    else if u.counted then t
    else bump 11 (u.route * 2) (setFurrow n { x with delivered := x.delivered + 1 } t)) s

/-- Bytes of a furrow's queue (R347). -/
def queuedBytes (x : Furrow) : Nat := sumBy (fun u => if u.held then u.bytes.length else 0) x.queue

/-- Bytes of the whole delivery queue. -/
def totalQueued (s : State) : Nat := sumBy (fun e => queuedBytes e.2) s.deliv.furrows

/-- A unit is dropped: counted for its route and its furrow (R347). -/
def dropUnit (n route : Nat) (s : State) : State :=
  let x := furrowOf s n
  bump 11 (route * 2 + 1) (setFurrow n { x with dropped := x.dropped + 1 } s)

/-- A unit exceeds the queue: dropped, and FURROW_OVERFLOW once per furrow per period. -/
def overflow (n route : Nat) (s : State) : State :=
  let s1 := dropUnit n route s
  let x := furrowOf s1 n
  if x.overflowRaised then s1 else raise 0x0901 2 n 0 0 (setFurrow n { x with overflowRaised := true } s1)

/-- Hold the waiting units that find no posted descriptor, in furrow order; those that exceed a limit are dropped (R347). The first
`free` units that are not held have a descriptor posted and not yet fetched. (DEDUCED, log entry 65) -/
def holdGo (n : Nat) : List HUnit → Nat → State → State
  | [], _, s => s
  | u :: t, free, s =>
    let x := furrowOf s n
    if u.held then holdGo n t free (setFurrow n { x with queue := x.queue ++ [u] } s)
    else match free with
      | f + 1 => holdGo n t f (setFurrow n { x with queue := x.queue ++ [u] } s)
      | 0 =>
        let size := u.bytes.length
        if x.spillMib * 2 ^ 20 < queuedBytes x + size || queueMib (posImage s) * 2 ^ 20 < totalQueued s + size then
          holdGo n t 0 (overflow n u.route s)
        else holdGo n t 0 (furrowCount x 12 1 (setFurrow n { x with queue := x.queue ++ [{ u with held := true }] } s))

/-- Place what can be placed, hold or drop the rest. -/
def settleFurrow (n : Nat) (s : State) : State :=
  let x := furrowOf s n
  let r := if x.st = fsRunning then pumpGo (dcNow s) (4 * (x.queue.length + x.descs.length) + 8) x [] else (x, [])
  let s1 := countTaken n r.2 (setFurrow n r.1 s)
  let y := furrowOf s1 n
  if y.queue.all (·.held) then s1
  else holdGo n y.queue (if y.st = fsRunning then unfetched y else 0) (setFurrow n { y with queue := [] } s1)

/-! Write-backs and interrupts (R337, R342) -/

/-- The write-back of a descriptor (Table 13.10). -/
def writeBackBytes (b : Buf) (written seq : Nat) : Bytes :=
  b.desc.take 13 ++ leBytes 1 (fld b.desc 0x0D 1 / 2 * 2) ++ (b.desc.drop 14).take 2 ++ leBytes 4 (b.tagOff.getD (2 ^ 32 - 1))
    ++ leBytes 4 written ++ leBytes 4 seq ++ leBytes 2 b.status ++ leBytes 1 (min 255 b.count)
    ++ leBytes 1 (b2n b.continues + 2 * b2n b.continued)

/-- Raise a furrow's vector (R337). -/
def furrowIrq (n : Nat) (s : State) : State :=
  let x := furrowOf s n
  let s1 := setFurrow n { x with unsig := 0 } s
  if x.vector = 0xFFFF then s1 else sendMsix x.owner x.vector s1

/-- Write a descriptor back: the payload before it, its figures, then the interrupt that falls due. (DEDUCED, log entry 65) -/
def writeBack (n : Nat) (b : Buf) (written : Nat) (s : State) : State :=
  let x := furrowOf s n
  let seq := if x.seq = 2 ^ 32 - 1 then 1 else x.seq + 1
  let s1 := if b.data.isEmpty then s else emit (.hostWrite x.owner (descAddr b.desc) b.data) s
  let s2 := emit (.hostWrite x.owner (x.ring + x.completed % ringLen x * 32) (writeBackBytes b written seq)) s1
  let s3 := furrowCount x 2 1 (furrowCount x 0 (b.data.length + 32) s2)
  let s4 := if b.status = 0 || b.status = 1 then s3 else furrowCount x 3 1 s3
  let y := { x with
    completed := (x.completed + 1) % 2 ^ 32, seq := seq, unsig := x.unsig + 1
    unsigAt := if x.unsig = 0 then dcNow s else x.unsigAt, recent := (b.units :: x.recent).take (ringLen x) }
  let s5 := setFurrow n y s4
  if max 1 x.irqCount ≤ y.unsig || descIrq b.desc then furrowIrq n s5 else s5

/-- Write back every complete buffer of a furrow. -/
def writeBackAll (n : Nat) (s : State) : State :=
  let bs := (furrowOf s n).full
  bs.foldl (fun t b => writeBack n b b.data.length t) (setFurrow n { furrowOf s n with full := [] } s)

/-- Close the buffer that takes units. -/
def closeCur (x : Furrow) : Furrow := match x.cur with
  | some b => { x with cur := none, full := x.full ++ [b] }
  | none => x

/-! Rows of a furrow's own timers and reads -/

/-- DESCRIPTOR_FETCH_DONE: `read` is what the host memory answered, none for a completion error or timeout (R356). -/
def fetchDone (n : Nat) (read : Option Bytes) (timeout : Bool) (s : State) : State :=
  let x := furrowOf s n
  if x.st != fsRunning || !x.fetching then s
  else match read with
    | none =>
      let s1 := furrowCount x (if timeout then 5 else 6) 1 s
      if x.retried then issueWaiting (furrowFault n 1 s1)
      else furrowCount x 8 1 (readHost x.owner (x.ring + x.fetched % ringLen x * 32) (32 * x.asked)
        (setFurrow n { x with retried := true } s1))
    | some b =>
      let ds := (List.range x.asked).map (fun i => fitTo 32 (b.drop (32 * i)))
      let own := ds.takeWhile descOwn
      let y := { x with
        fetching := false, retried := false, fetched := (x.fetched + own.length) % 2 ^ 32, descs := x.descs ++ own }
      let s1 := settleFurrow n (setFurrow n y (furrowCount x 1 (32 * ds.length) s))
      issueWaiting (if own.length < ds.length then furrowFault n 2 s1 else issueFetch n s1)

/-- Row DESCRIPTOR_FETCH_DONE. -/
def execDescriptorFetchDone (furrow : Nat) (read : Option Bytes) (timeout : Bool) (s : State) : Host.Outcome State Fault Refusal :=
  done (fetchDone furrow read timeout s)

/-- PACK_FLUSH: flush_us after the first unit entered it, a partly filled buffer is written back (R345). -/
def packFlush (n : Nat) (s : State) : State :=
  let x := furrowOf s n
  match x.cur with
  | none => s
  | some b => if since s b.firstAt < usTicks x.flushUs then s else settleFurrow n (setFurrow n (closeCur x) s)

/-- Row PACK_FLUSH. -/
def execPackFlush (furrow : Nat) (s : State) : Host.Outcome State Fault Refusal := done (packFlush furrow s)

/-- IRQ_TIMER: irq_time_us after the first completion not yet signalled (R337). -/
def irqTimer (n : Nat) (s : State) : State :=
  let x := furrowOf s n
  if x.irqTime = 0 || x.unsig = 0 || since s x.unsigAt < usTicks x.irqTime then s else furrowIrq n s

/-- Row IRQ_TIMER. -/
def execIrqTimer (furrow : Nat) (s : State) : Host.Outcome State Fault Refusal := done (irqTimer furrow s)

/-! LOAD and COPY (R352 to R354) -/

/-- A field of a frame, most significant byte first. -/
def frameNat (f : Bytes) (off size : Nat) : Nat := ((f.drop off).take size).foldl (fun a b => a * 256 + b.toNat) 0

/-- Where a PTP message starts in a frame: over IEEE 802.3, or the event port of UDP over IPv4 or IPv6. -/
def ptpOffset (f : Bytes) : Option Nat :=
  let et := frameNat f 12 2
  let ip4 := 14 + frameNat f 14 1 % 16 * 4
  if et = 0x88F7 then some 14
  else if et = 0x0800 && frameNat f 23 1 = 17 && frameNat f (ip4 + 2) 2 = 319 then some (ip4 + 8)
  else if et = 0x86DD && frameNat f 20 1 = 17 && frameNat f 56 2 = 319 then some 62
  else none

/-- A frame leaves a PTP port; an event message is timestamped into the port's queue (R136, R352). -/
def sendPtpFrame (port : Nat) (f : Bytes) (sub : Nat) (s : State) : State :=
  let s1 := sendFrame port (.frame port f) s
  match ptpOffset f with
  | some o => if frameNat f o 1 % 16 < 4 then txqPush port (frameNat f (o + 30) 2) (frameNat f o 1 % 16) (frameNat f (o + 4) 1) sub s1 else s1
  | none => s1

/-- Bytes that some pixels of a host format occupy; NATIVE counts bytes. -/
def formatBytes (fmt n : Nat) : Nat := if fmt = 0 then n else ceilDiv (n * hostWidth fmt 8) 8

/-- What a COPY writes: its status and the bytes (R353). -/
def copyResult (d src : Bytes) : Nat × Bytes :=
  let n := descLen d
  let sf := fld d 0x0E 1
  let df := if fld d 0x0F 1 = 0 then sf else fld d 0x0F 1
  let a := fld d 0x10 8
  let b := descAddr d
  let sn := formatBytes sf n
  let dn := formatBytes df n
  let from' := fitTo sn src
  if sf = df then (0, if sf = 0 then from' else packBits (hostWidth sf 8) (unpackBits (hostWidth sf 8) n from'))
  else if a < b + dn && b < a + sn then (0x42, [])
  else
    let w := hostWidth df 8
    (0, packBits w (((unpackBits (hostWidth sf 8) n from').map Int.ofNat).map (fun v => patternOf w (convertPixel (hostWidth sf 8) false (sf == 3) df v))))

/-- The oldest descriptor of a LOAD or COPY furrow is worked and written back. -/
def workDescriptor (n : Nat) (src : Bytes) (sub : Nat) (s : State) : State :=
  let x := furrowOf s n
  match x.descs with
  | [] => s
  | d :: ds =>
    let s1 := setFurrow n { x with descs := ds } s
    if !descOk x.type d then writeBack n { desc := d, status := 3 } 0 s1
    else if x.type = 7 then
      let port := fld d 0x11 1
      if (ptpCfg (posImage s) port).role != 3 then writeBack n { desc := d, status := 0x43 } 0 s1
      else
        let f := fitTo (descLen d) src
        writeBack n { desc := d } f.length (sendPtpFrame port f sub (furrowCount x 1 f.length s1))
    else
      let r := copyResult d src
      let s2 := if r.1 = 0 then furrowCount x 1 (formatBytes (fld d 0x0E 1) (descLen d)) s1 else s1
      writeBack n { desc := d, status := r.1, data := r.2 } r.2.length s2

/-- DESCRIPTOR_WRITEBACK: the oldest complete descriptor is written back (R342). `src` is what a LOAD or COPY read, `sub` the
sub-tick at which a LOAD's frame left. -/
def descriptorWriteback (n : Nat) (src : Bytes) (sub : Nat) (s : State) : State :=
  let x := furrowOf s n
  if x.st != fsRunning && x.st != fsFault then s
  else match x.full with
    | b :: rest => writeBack n b b.data.length (setFurrow n { x with full := rest } s)
    | [] => if x.type = 7 || x.type = 8 then workDescriptor n src sub s else s

/-- Row DESCRIPTOR_WRITEBACK. -/
def execDescriptorWriteback (furrow : Nat) (src : Bytes) (sub : Nat) (s : State) : Host.Outcome State Fault Refusal :=
  done (descriptorWriteback furrow src sub s)

/-! Bursts that fail (R355) -/

/-- The units of some buffers once each, in order. -/
def distinctUnits (us : List HUnit) : List HUnit := us.foldl (fun acc u => if acc.any (·.serial == u.serial) then acc else acc ++ [u]) []

/-- Units go back to the front of their furrow's queue, to be delivered again. -/
def againUnits (us : List HUnit) : List HUnit := (distinctUnits us).map (fun u => { u with held := true, again := true })

/-- The descriptors of buffers that were not written back are free again, and their units go back to the front of the queue. -/
def unfill (bs : List Buf) (x : Furrow) : Furrow :=
  let us := (distinctUnits (bs.flatMap (·.units) ++ (match x.part with | some (u, _) => [u] | none => []))).map
    (fun u => { u with held := true, counted := true })
  { x with descs := bs.map (·.desc) ++ x.descs, part := none, queue := us ++ x.queue }

/-- The oldest descriptor with data stops: `good` bytes were acknowledged, `tail` says that the failed burst was the last and the byte
count had reached zero. The units of a failed delivery go out again from the next descriptor, before all that was to follow them. -/
def burstError (n good : Nat) (tail : Bool) (f : BurstFault) (s : State) : State :=
  let x := furrowOf s n
  let status := if tail then 0x41 else 0x40
  let count (t : State) : State := if f.kind = 0 then furrowCount x 5 1 t else if f.kind = 1 then furrowCount x 6 1 t else t
  if x.st != fsRunning then s
  else if !carriesUnits x then
    match x.descs with
    | [] => s
    | d :: ds =>
      let data := if x.type = 8 then (copyResult d f.src).2.take good else []
      if descOk x.type d then count (writeBack n { desc := d, status := status, data := data } data.length (setFurrow n { x with descs := ds } s)) else s
  else
    let y := if x.full.isEmpty then closeCur x else x
    match y.full with
    | [] => s
    | b :: rest =>
      if b.status ≠ 0 then s
      else
        let z := unfill (rest ++ (match y.cur with | some c => [c] | none => [])) { y with full := [], cur := none }
        let y' := { z with
          queue := againUnits b.units ++ z.queue.filter (fun u => !b.units.any (·.serial == u.serial)) }
        let wb := { b with data := b.data.take good, status := status, units := [] }
        count (settleFurrow n (writeBack n wb good (setFurrow n y' s)))

/-- Row BURST_ERROR. (DESIGN CHOICE, log entry 67) -/
def execBurstError (furrow good : Nat) (tail : Bool) (kind : BurstFault) (s : State) : Host.Outcome State Fault Refusal :=
  done (burstError furrow good tail kind s)

end Sys2Proof.Machine
end

