-- ==== Sys2Proof/Machine/Deliver.lean ====
section
/-! DEFINITION. Delivery: which furrows a unit goes to, row blocks, tiles, doorbells, interrupts that wait behind a mask, and what the
loss of a port or the reset of a function does (R321, R332, R335, R336, R343 to R346, R357 to R359, R469, R470). -/

namespace Sys2Proof.Machine

/-! Routes (R343, R344) -/

/-- The furrow that units for a furrow go to: itself, or the RUNNING furrow of its pair (R357). -/
def runningOf (s : State) (n : Nat) : Nat :=
  let x := furrowOf s n
  if x.st != fsRunning && x.partner != 0xFFFF && (furrowOf s x.partner).st == fsRunning then x.partner else n

/-- The furrow of a route. -/
def routeFurrow (s : State) (r : Nat) (c : RouteCfg) : Nat := runningOf s ((tfind s.deliv.redirect r).getD c.furrow)

/-- Whether a route takes a unit. -/
def routeTakes (c : RouteCfg) (u : DUnit) : Bool :=
  c.kind == u.src.kind && (match c.kind with
    | 1 | 4 | 5 => c.graph == u.src.graph && c.output == u.src.output
    | 2 | 3 => c.graph == 0xFF || c.graph == u.src.graph
    | 7 => bitOf c.select u.src.select
    | _ => c.select == u.src.select)

/-- The route table that a unit follows: that of its generation for tag types 1 to 4, else the one in force (R344). -/
def routeTable (s : State) (u : DUnit) : Image := if u.tagType ≤ 4 then genImage s u.generation else posImage s

/-- The routes that take a unit. -/
def routesFor (s : State) (u : DUnit) : List (Nat × RouteCfg) := (routesOf (routeTable s u)).filter (fun e => routeTakes e.2 u)

/-- A unit goes into a route's furrow, or is dropped where that is FREE or of another type (R344, R345, R347). -/
def placeUnit (r : Nat) (c : RouteCfg) (u : DUnit) (s : State) : State :=
  let n := routeFurrow s r c
  let x := furrowOf s n
  if x.st = fsFree || x.type ≠ u.tagType then bump 11 (r * 2 + 1) s
  else
    let h : HUnit := { route := r, bytes := hostUnit c.format u, serial := s.deliv.serial }
    settleFurrow n (setFurrow n { x with queue := x.queue ++ [h] } { s with deliv := { s.deliv with serial := s.deliv.serial + 1 } })

/-! Row blocks (R346) -/

/-- Set a route's row block. -/
def setBlocks (b : Tab RowBlock) (s : State) : State := { s with deliv := { s.deliv with blocks := b } }

/-- A row block closes and goes into its route's furrow. -/
def closeRowBlock (r : Nat) (s : State) : State := match tfind s.deliv.blocks r with
  | none => s
  | some b =>
    let s1 := setBlocks (tdel s.deliv.blocks r) s
    match routeCfg (genImage s b.unit.generation) r with
    | some c => placeUnit r c b.unit s1
    | none => bump 11 (r * 2 + 1) s1

/-- A row joins a block. -/
def joinRow (b : RowBlock) (u : DUnit) : RowBlock :=
  { unit := { b.unit with flags := b.unit.flags ||| u.flags, endPos := u.endPos, payload := b.unit.payload ++ u.payload }, rows := b.rows + 1 }

/-- Whether no parameter set changes over the rows that contribute to two units (R326). -/
def sameSets (a b : List (List Nat)) : Bool := (a ++ b).all (fun l => some l == a.head?)

/-- A row for one route: it closes the block it does not fit, and joins or begins one; a row delivered again stands alone. -/
def routeRow (u : DUnit) (e : Nat × RouteCfg) (s : State) : State :=
  let r := e.1
  let fits := match tfind s.deliv.blocks r with
    | some b => b.unit.generation == u.generation && b.unit.paramSet == u.paramSet && sameSets b.unit.params u.params && !u.again
    | none => true
  let s1 := if fits then s else closeRowBlock r s
  if u.again then placeUnit r e.2 u s1
  else
    let b := match tfind s1.deliv.blocks r with
      | some b => joinRow b u
      | none => ⟨u, 1⟩
    let s2 := setBlocks (tput s1.deliv.blocks r b) s1
    if e.2.rows ≤ b.rows then closeRowBlock r s2 else s2

/-- Blocks that a change of generation closes: of the same output, or of a graph that no longer runs and has no rows on their way. -/
def staleBlocks (s : State) (u : DUnit) : List Nat :=
  (s.deliv.blocks.filter (fun e =>
    let b := e.2.unit
    (u.src.kind == 1 && b.src == u.src && b.generation != u.generation)
      || (b.generation != s.cfg.generation && (graphOf s b.src.graph).run.isNone
          && !s.handoff.any (fun w => w.src == b.src && w.generation == b.generation)))).map (·.1)

/-- UNIT_HANDOFF: the oldest unit handed to delivery goes to every route that takes it. -/
def unitHandoff (s : State) : State := match s.handoff with
  | [] => s
  | u :: rest =>
    let s1 := (staleBlocks s u).foldl (fun t r => closeRowBlock r t) { s with handoff := rest }
    (routesFor s1 u).foldl (fun t e => if u.src.kind = 1 then routeRow u e t else placeUnit e.1 e.2 u t) s1

/-- Row UNIT_HANDOFF. -/
def execUnitHandoff (s : State) : Host.Outcome State Fault Refusal := done (unitHandoff s)

/-- Row ROW_BLOCK_IDLE_CLOSE: the master position has not advanced for 10 ms. -/
def execRowBlockIdleClose (route : Nat) (s : State) : Host.Outcome State Fault Refusal :=
  done (if since s s.pos.sp.movedAt < msTicks 10 then s else closeRowBlock route s)

/-! Tiles (R321, R347) -/

/-- Whether the record of a tile's region has gone to its furrows: a tile always follows its record (R315). -/
def recordGone (s : State) (t : TileCut) : Bool :=
  s.handoff.all (fun u => u.tagType != 2 || (match u.payload with | [.raw b] => fld b 0 8 != t.region | _ => true))

/-- Whether a tile's record has gone, and every furrow that the tile goes to holds a posted descriptor, or takes no tile at all. -/
def tileHasRoom (s : State) (t : TileCut) : Bool :=
  recordGone s t && ((routesOf (genImage s t.generation)).filter (fun e => e.2.kind == 3 && (e.2.graph == 0xFF || e.2.graph == t.graph))).all (fun e =>
    let x := furrowOf s (routeFurrow s e.1 e.2)
    x.st == fsFree || x.type != 3
      || (x.st == fsRunning && x.queue.isEmpty && x.part.isNone && (x.descs.any (descOk x.type) || unfetched x != 0)))

/-- Cut the tile at the head of the FIFO and place it. -/
def cutNext (expired : Bool) (s : State) : State := match s.fab.rgn.tiles with
  | [] => s
  | t :: rest =>
    let a := cutTile t expired (setRgn { s.fab.rgn with tiles := rest } s)
    (routesFor a.2 a.1).foldl (fun x e => placeUnit e.1 e.2 a.1 x) a.2

/-- Row TILE_CUT_START. -/
def execTileCutStart (s : State) : Host.Outcome State Fault Refusal := match s.fab.rgn.tiles with
  | [] => done s
  | t :: _ => done (if tileReady s t && tileHasRoom s t then cutNext false s else s)

/-- Row TILE_WAIT_EXPIRY: the master position has not advanced for tile_wait_ms. -/
def execTileWaitExpiry (s : State) : Host.Outcome State Fault Refusal := match s.fab.rgn.tiles with
  | [] => done s
  | t :: _ =>
    done (if !tileReady s t && tileHasRoom s t && decide (msTicks (tileWaitMs (posImage s)) ≤ since s s.pos.sp.movedAt)
      then cutNext true s else s)

/-! Doorbells (R340, R469) -/

/-- The furrow of a doorbell: a PF's index is the furrow, a VF's its doorbell slot. -/
def doorbellFurrow (s : State) (f : Fn) (index : Nat) : Option Nat :=
  if fnIsPf f then (if (furrowOf s index).owner = f && (furrowOf s index).st ≠ fsFree then some index else none)
  else (s.deliv.furrows.find? (fun e => e.2.st != fsFree && e.2.owner == f && e.2.vfSlot == index)).map (·.1)

/-- A doorbell write. A write of the upper half alone is ignored. -/
def doorbellWrite (f : Fn) (index : Nat) (upper : Bool) (tail : Nat) (s : State) : State :=
  let ignored := bump 11 (portIndex (fnPort f) 11) s
  if upper || !s.start.blocksUp then s
  else match doorbellFurrow s f index with
    | none => ignored
    | some n =>
      let x := furrowOf s n
      let t := tail % 2 ^ 32
      if x.st = fsStandby then setFurrow n { x with tail := t } s
      else if x.st ≠ fsRunning then ignored
      else if ringLen x < (t + 2 ^ 32 - x.completed) % 2 ^ 32 then furrowFault n 3 s
      else settleFurrow n (issueFetch n (setFurrow n { x with tail := t } s))

/-- Row DOORBELL_WRITE. -/
def execDoorbellWrite (fn index : Nat) (upper : Bool) (tail : Nat) (s : State) : Host.Outcome State Fault Refusal :=
  done (doorbellWrite fn index upper tail s)

/-! MSI-X (R336) -/

/-- The vectors of a function. -/
def vectorCount (f : Fn) : Nat := if fnIsPf f then 1024 else 16

/-- A vector's mask bit changes; a message that waits goes out when it is cleared. -/
def setMask (f : Fn) (vec : Nat) (masked : Bool) (s : State) : State :=
  let k := f * 1024 + vec
  let e := tget {} s.win.msix k
  let s1 := { s with win := { s.win with msix := tset {} s.win.msix k { e with masked := masked } } }
  if !masked && tget false s.win.pba k then sendMsix f vec { s1 with win := { s1.win with pba := tset false s1.win.pba k false } } else s1

/-- Row MSIX_UNMASK. -/
def execMsixUnmask (fn vector : Nat) (s : State) : Host.Outcome State Fault Refusal :=
  done (if decide (vector < vectorCount fn) && s.start.windowUp then setMask fn vector false s else s)

/-! Failover (R357 to R359) -/

/-- A furrow starts counting afresh, as after HOST.FURROW_START. -/
def freshCounts (x : Furrow) : Furrow :=
  { x with
    tail := 0, fetched := 0, completed := 0, seq := 0, fetching := false, retried := false, descs := [], cur := none, full := []
    part := none, unsig := 0, recent := [] }

/-- A standby becomes RUNNING: it fetches what is posted and delivers what waits. (DEDUCED, log entry 66) -/
def takeOver (n : Nat) (s : State) : State :=
  let x := { furrowOf s n with st := fsRunning }
  let s1 := setFurrow n x s
  if ringLen x < (x.tail + 2 ^ 32 - x.completed) % 2 ^ 32 then settleFurrow n (furrowFault n 3 s1) else settleFurrow n (issueFetch n s1)

/-- The units of a furrow that are delivered again: those with a descriptor whose write-back was not acknowledged, `unacked` of the
latest write-backs and all that were not written back yet. (DEDUCED, log entry 66) -/
def markUnits (x : Furrow) (unacked : Nat) : List HUnit :=
  againUnits ((x.recent.take unacked).reverse.flatten ++ (closeCur x).full.flatMap (·.units)
    ++ (match x.part with | some (u, _) => [u] | none => []))

/-- The routes whose units go to a furrow. -/
def routesTo (s : State) (n : Nat) : List Nat :=
  (List.range 1024).filter (fun r =>
    [s.cfg.active, nextImage s].any (fun img => match routeCfg img r with
      | some c => ((tfind s.deliv.redirect r).getD c.furrow) == n || routeFurrow s r c == n
      | none => false))

/-- The pair of a furrow moves to its standby (R358). (DEDUCED, log entry 66) -/
def furrowFailover (a b unacked : Nat) (s : State) : State :=
  let x := furrowOf s a
  let y := furrowOf s b
  let routes := routesTo s a
  let s1 := { s with deliv := { s.deliv with redirect := routes.foldl (fun t r => tput t r b) s.deliv.redirect } }
  let s2 := setFurrow b { y with partner := 0xFFFF, alone := true, queue := markUnits x unacked ++ x.queue.map (fun u => { u with held := true }) ++ y.queue }
    (setFurrow a {} s1)
  let s3 := furrowCount y 10 1 (furrowCount x 9 1 (takeOver b s2))
  raise 0x0903 2 (a + b * 65536) 0 0 s3

/-- A furrow goes to FREE; its queued units are discarded and counted, and a standby that it was paired with goes to READY (Table 13.5). -/
def freeFurrow (n : Nat) (s : State) : State :=
  let x := furrowOf s n
  let s1 := x.queue.foldl (fun t u => bump 11 (u.route * 2 + 1) t) (setFurrow n {} s)
  let y := furrowOf s1 x.partner
  if x.partner = 0xFFFF then s1
  else setFurrow x.partner { y with st := if y.st = fsStandby then fsReady else y.st, partner := 0xFFFF, alone := true } s1

/-- What the loss of its port or the reset of its owner does to a furrow. -/
def loseFurrow (unacked : List (Nat × Nat)) (s : State) (n : Nat) : State :=
  let x := furrowOf s n
  if x.st = fsFree then s
  else if x.partner != 0xFFFF && (furrowOf s x.partner).st = fsStandby then
    furrowFailover n x.partner (((unacked.find? (fun e => e.1 == n)).map (·.2)).getD 0) s
  else freeFurrow n s

/-! Resets of functions (R335, R470, Table 20.5) -/

/-- A function resets: its furrows, its requests and tickets, its slots, its interrupts and SCRATCH. -/
def resetFunction (f : Fn) (unacked : List (Nat × Nat)) (s : State) : State :=
  let s1 := issueWaiting (((s.deliv.furrows.filter (fun e => e.2.owner == f)).map (·.1)).foldl (loseFurrow unacked) s)
  let r := fnRegs s1 f
  let hold := match s1.mbx.hold with
    | some h => if h.req.fn = f then none else some h
    | none => none
  let s2 := { s1 with
    mbx := { s1.mbx with
      inbox := s1.mbx.inbox.filter (fun q => q.fn != f), tickets := s1.mbx.tickets.filter (fun e => e.2.fn != f), hold := hold }
    win := { s1.win with
      slots := s1.win.slots.filter (fun e => e.1 / 64 != f), msix := s1.win.msix.filter (fun e => e.1 / 1024 != f)
      pba := s1.win.pba.filter (fun e => e.1 / 1024 != f) } }
  setFnRegs f { r with cause := 0, enable := 0x1F, ticketDone := 0, mboxDone := 0, scratch := 0 } s2

/-- Row FUNCTION_RESET: a Function Level Reset or entry to D3hot. -/
def execFunctionReset (fn : Nat) (unacked : List (Nat × Nat)) (s : State) : Host.Outcome State Fault Refusal :=
  done (if fn < 128 then resetFunction fn unacked s else s)

/-- A port is lost: it goes down and all its functions reset. `unacked` gives, for a furrow, how many of its latest write-backs were
not acknowledged at the data link layer. -/
def portLoss (p : Nat) (unacked : List (Nat × Nat)) (s : State) : State :=
  let x := hostPort s p
  let s1 := bump 11 (portIndex p 13) (setHostPort p { upSince := x.upSince } s)
  (List.range 64).foldl (fun t k => resetFunction (p * 64 + k) unacked t) s1

/-- Row PORT_LOSS: 100 µs outside L0, DL_Down, hot reset or link disable; its configuration space is as after reset.
(DESIGN CHOICE, log entry 67) -/
def execPortLoss (port : Nat) (unacked : List (Nat × Nat)) (s : State) : Host.Outcome State Fault Refusal :=
  done (if decide (port < 2) && decide (2 ≤ (hostPort s port).link) then portLoss port unacked s else s)

/-- Row PORT_L0_ENTRY: training or recovery ends in L0, at a rate code of Table 13.21 and a width. (DESIGN CHOICE, log entry 67) -/
def execPortL0Entry (port rate width : Nat) (s : State) : Host.Outcome State Fault Refusal :=
  done (if decide (port < 2) && decide (1 ≤ rate) && decide (rate ≤ 6) && decide (1 ≤ width) && decide (width ≤ 16)
      && !bitOf s.start.perst port && s.start.windowUp then
    setHostPort port { hostPort s port with link := 2, rate := rate, width := width, upSince := dcNow s } s else s)

/-- Whether a function exists: a PF, or a VF that the host has enabled (R332). -/
def fnExists (s : State) (f : Fn) : Bool := decide (f < 128) && decide (fnIdx f ≤ (hostPort s (fnPort f)).numVfs)

/-- The size that a PCI Express size field can hold nearest below a number of bytes: a power of two from 128 on, at most `most`. -/
def pciSize (most n : Nat) : Nat := [4096, 2048, 1024, 512, 256].foldr (fun v m => if v ≤ min most n then v else m) 128

/-- A write to a PF's configuration space: NumVFs and VF Enable, the sizes and tags of requests, and the power states. A VF that ceases is
reset, and so is a function that enters D3hot (R329, R332, R334, R335). -/
def configWrite (port : Nat) (c : PortControl) (enable : Bool) (s : State) : State :=
  let n := if enable then min 63 c.numVfs else 0
  let x := hostPort s port
  let gone := (List.range 64).filter (fun k => (decide (n < k) && decide (k ≤ x.numVfs)) || (bitOf c.d3hot k && !bitOf x.d3hot k))
  setHostPort port { x with
    numVfs := n, mps := pciSize 1024 c.mps, mrrs := pciSize 4096 c.mrrs
    tags := if c.tags = 0 then 256 else if c.tags = 1 then 1024 else 2048, d3hot := c.d3hot % 2 ^ 64 }
    (gone.foldl (fun t k => resetFunction (port * 64 + k) [] t) s)

/-- Row SRIOV_CONFIG_WRITE. (DESIGN CHOICE, log entry 67) -/
def execSriovConfigWrite (port : Nat) (control : PortControl) (enable : Bool) (s : State) : Host.Outcome State Fault Refusal :=
  done (if 2 ≤ port then s else configWrite port control enable s)

/-! What a commit and a period boundary do -/

/-- A commit: routes it sets name their furrows anew. -/
def hostCommit (staged : Image) (s : State) : State :=
  { s with deliv := { s.deliv with redirect := s.deliv.redirect.filter (fun e => (tfind staged (settingKey 0x0B00 e.1)).isNone) } }

/-- A period boundary. -/
def hostPeriod (s : State) : State :=
  { s with deliv := { s.deliv with furrows := s.deliv.furrows.map (fun e => (e.1, { e.2 with overflowRaised := false })) } }

end Sys2Proof.Machine
end

