-- ==== Sys2Proof/Machine/HostCmd.lean ====
section
/-! DEFINITION. The direct HOST commands (Tables 13.18 to 13.21, R360). -/

namespace Sys2Proof.Machine

/-- The furrow commands' common checks: the number, the states the command takes. The owner was checked before them (R35, R338). -/
def furrowCheck (p : Bytes) (states : List Nat) (s : State) : Option Nat :=
  let n := fld p 0 2
  if !(decide (n < 32768) && zeroRange p 2 6) then some stBadArg
  else if states.contains (furrowOf s n).st then none else some stBadState

/-- HOST.FURROW_CREATE (R338, R339): a number that is not FREE is in use, and of another function's furrow DENIED comes first (R35). -/
def furrowCreate (s : State) (q : Req) (p : Bytes) : Reply :=
  let n := fld p 0 2
  let type := fld p 2 1
  let pack := fld p 0x0E 1 == 1
  let vec := fld p 0x0C 2
  let flush := fld p 0x14 2
  let slot := fld p 0x18 2
  let pf := fnIsPf q.fn
  let mine := (s.deliv.furrows.filter (fun e => e.2.st != fsFree && e.2.owner == q.fn))
  if !(decide (n < 32768) && decide (1 ≤ type) && decide (type ≤ 8) && decide (fld p 0x0E 1 ≤ 1) && (!pack || decide (type ≤ 6))
      && zeroRange p 0x0F 1 && (if pack then decide (1 ≤ flush) && decide (flush ≤ 10000) else flush == 0)
      && decide (fld p 0x16 2 ≤ 4096) && (if pf then slot == 0 else decide (slot < 256)) && zeroRange p 0x1A 6) then reply stBadArg s
  else if (furrowOf s n).st ≠ fsFree || (!pf && mine.any (fun e => e.2.vfSlot == slot)) then reply 0x40 s
  else if fld p 3 1 < 4 || 16 < fld p 3 1 || fld p 4 8 % 64 ≠ 0 || (!pf && decide (256 ≤ mine.length)) then reply 0x41 s
  else if vec ≠ 0xFFFF && vectorCount q.fn ≤ vec then reply 0x42 s
  else reply stOk (setFurrow n
    { st := fsReady, type := type, owner := q.fn, sizeLog := fld p 3 1, ring := fld p 4 8, vector := vec, pack := pack
      irqCount := fld p 0x10 2, irqTime := fld p 0x12 2, flushUs := flush, spillMib := fld p 0x16 2, vfSlot := slot } s)

/-- Row HOST_FURROW_CREATE. -/
def execHostFurrowCreate (io : HostIo) (s : State) : Host.Outcome State Fault Refusal :=
  done (serve { code := 0x0B10, vf := true, len := some 32, furrow := some 0 } io furrowCreate s)

/-- HOST.FURROW_START: READY to RUNNING; TAIL and completion_seq restart at 0. -/
def furrowStart (s : State) (_q : Req) (p : Bytes) : Reply := match furrowCheck p [fsReady] s with
  | some st => reply st s
  | none =>
    let n := fld p 0 2
    reply stOk (settleFurrow n (setFurrow n { freshCounts (furrowOf s n) with st := fsRunning } s))

/-- Row HOST_FURROW_START. -/
def execHostFurrowStart (io : HostIo) (s : State) : Host.Outcome State Fault Refusal :=
  done (serve { code := 0x0B11, vf := true, len := some 8, furrow := some 0 } io furrowStart s)

/-- Finish the unit in progress with the descriptors in hand; the units that wait stay where they are. -/
def finishPart (now : Nat) (x : Furrow) : Furrow :=
  let r := (pumpGo now (x.descs.length + 4) { x with queue := [] } []).1
  { r with queue := x.queue }

/-- The work of HOST.FURROW_STOP: the unit in progress is finished, the other posted descriptors are written back CANCELLED. `rest` is
what stands in the ring at the descriptors that have not been fetched. A unit in progress that runs out of descriptors is dropped. -/
def stopFurrow (n : Nat) (rest : Bytes) (s : State) : State :=
  let x := furrowOf s n
  let more := (List.range (unfetched x)).map (fun i => fitTo 32 (rest.drop (32 * i)))
  let y := closeCur (finishPart (dcNow s) { x with descs := x.descs ++ more, fetched := (x.fetched + more.length) % 2 ^ 32 })
  let cancelled : List Buf := y.descs.map (fun d => { desc := d, status := 1 })
  let s1 := writeBackAll n (setFurrow n { y with descs := [], part := none, full := y.full ++ cancelled } s)
  let s2 := match y.part with
    | some (u, _) => dropUnit n u.route s1
    | none => s1
  issueWaiting (settleFurrow n (setFurrow n { furrowOf s2 n with
    st := fsReady, cause := 0, fetching := false, retried := false, alone := false } s2))

/-- HOST.FURROW_STOP. (DEDUCED, log entry 65) -/
def furrowStop (rest : Bytes) (s : State) (_q : Req) (p : Bytes) : Reply := match furrowCheck p [fsRunning, fsFault] s with
  | some st => reply st s
  | none => reply stOk (stopFurrow (fld p 0 2) rest s)

/-- Row HOST_FURROW_STOP. -/
def execHostFurrowStop (io : HostIo) (rest : Bytes) (s : State) : Host.Outcome State Fault Refusal :=
  done (serve { code := 0x0B12, vf := true, len := some 8, furrow := some 0 } io (furrowStop rest) s)

/-- HOST.FURROW_DESTROY: READY to FREE; queued units discarded and counted. -/
def furrowDestroy (s : State) (_q : Req) (p : Bytes) : Reply := match furrowCheck p [fsReady] s with
  | some st => reply st s
  | none => reply stOk (freeFurrow (fld p 0 2) s)

/-- Row HOST_FURROW_DESTROY. -/
def execHostFurrowDestroy (io : HostIo) (s : State) : Host.Outcome State Fault Refusal :=
  done (serve { code := 0x0B13, vf := true, len := some 8, furrow := some 0 } io furrowDestroy s)

/-- HOST.FURROW_PAIR (R357); standby 0xFFFF unpairs. (DEDUCED, log entry 65) -/
def furrowPair (s : State) (_q : Req) (p : Bytes) : Reply :=
  let a := fld p 0 2
  let b := fld p 2 2
  let x := furrowOf s a
  let y := furrowOf s b
  if !(decide (a < 32768) && (decide (b < 32768) || b == 0xFFFF) && zeroRange p 4 4) then reply stBadArg s
  else if x.st ≠ fsRunning then reply stBadState s
  else if b = 0xFFFF then
    if x.partner = 0xFFFF then reply 0x45 s
    else reply stOk (setFurrow x.partner { furrowOf s x.partner with st := fsReady, partner := 0xFFFF } (setFurrow a { x with partner := 0xFFFF } s))
  else if y.st ≠ fsReady then reply stBadState s
  else if x.partner ≠ 0xFFFF || fnPort x.owner = fnPort y.owner || x.type ≠ y.type then reply 0x45 s
  else reply stOk (setFurrow b { freshCounts y with st := fsStandby, partner := a } (setFurrow a { x with partner := b, alone := false } s))

/-- Row HOST_FURROW_PAIR. -/
def execHostFurrowPair (io : HostIo) (s : State) : Host.Outcome State Fault Refusal :=
  done (serve { code := 0x0B14, needs := some 9, len := some 8, furrow := some 0 } io furrowPair s)

/-- The work of HOST.FURROW_SWITCH (R359): the RUNNING furrow finishes the unit in progress with the descriptors it has and writes
back what is complete; the standby goes on with the rest of that unit in its next descriptor, and with what waits. Nothing is delivered
again. (DEDUCED, log entry 66) -/
def switchFurrow (a : Nat) (s : State) : State :=
  let x := furrowOf s a
  let b := x.partner
  let y := closeCur (finishPart (dcNow s) x)
  let s1 := writeBackAll a (setFurrow a { y with part := none, queue := [] } s)
  let s2 := setFurrow a { furrowOf s1 a with st := fsStandby, fetching := false, retried := false } s1
  takeOver b (setFurrow b { furrowOf s2 b with part := y.part, queue := y.queue ++ (furrowOf s2 b).queue } s2)

/-- HOST.FURROW_SWITCH. -/
def furrowSwitch (s : State) (_q : Req) (p : Bytes) : Reply := match furrowCheck p [fsRunning] s with
  | some st => reply st s
  | none => if (furrowOf s (fld p 0 2)).partner = 0xFFFF then reply 0x47 s else reply stOk (switchFurrow (fld p 0 2) s)

/-- Row HOST_FURROW_SWITCH. -/
def execHostFurrowSwitch (io : HostIo) (s : State) : Host.Outcome State Fault Refusal :=
  done (serve { code := 0x0B15, needs := some 9, len := some 8, furrow := some 0 } io furrowSwitch s)

/-- HOST.GET_FURROW response. -/
def furrowAnswer (s : State) (p : Bytes) : Bytes :=
  let x := furrowOf s (fld p 0 2)
  leBytes 1 x.st ++ leBytes 1 x.cause ++ leBytes 1 x.type ++ leBytes 1 (fnPort x.owner) ++ leBytes 2 (fnField x.owner)
    ++ leBytes 2 x.partner ++ leBytes 4 x.tail ++ leBytes 4 x.completed ++ leBytes 8 (queuedBytes x) ++ leBytes 8 x.delivered
    ++ leBytes 8 x.dropped ++ zeros 8

/-- Row HOST_GET_FURROW. -/
def execHostGetFurrow (io : HostIo) (s : State) : Host.Outcome State Fault Refusal :=
  done (serve { code := 0x0B16, vf := true, len := some 8, furrow := some 0 } io
    (query (fun s p => furrowCheck p [fsFree, fsReady, fsRunning, fsStandby, fsFault] s) furrowAnswer) s)

/-- MB/s of a port's byte counter over the last period: bytes over ticks of 1.6 ns. -/
def portRate (s : State) (p k : Nat) : Nat :=
  let ticks := ticksFrom s.stat.hdr.startDc s.stat.hdr.endDc
  min (2 ^ 32 - 1) (freeDiv (tget 0 s.stat.snap (11 * 4096 + portIndex p k) * 625) ticks).toNat

/-- HOST.GET_PORT response (Table 13.21). `regs` are what the port alone knows: whether its link trains or recovers now, and the reads
outstanding besides descriptor fetches, which are within 2,048 and the tag limit (R334). -/
def portAnswer (regs : PortRegs) (s : State) (p : Bytes) : Bytes :=
  let n := fld p 0 1
  let x := hostPort s n
  let link := if !regs.moving || bitOf s.start.perst n then x.link else if x.link = 2 then 3 else 1
  leBytes 1 link ++ leBytes 1 x.rate ++ leBytes 1 x.width ++ leBytes 1 x.numVfs ++ leBytes 2 x.mps ++ leBytes 2 x.mrrs
    ++ leBytes 2 (min (min 2048 x.tags) (readsOut s n + regs.reads)) ++ leBytes 2 x.tags
    ++ leBytes 4 (s.deliv.furrows.filter (fun e => e.2.st != fsFree && fnPort e.2.owner == n)).length
    ++ leBytes 4 (portRate s n 0) ++ leBytes 4 (portRate s n 1) ++ leBytes 8 x.upSince ++ zeros 16

/-- Row HOST_GET_PORT. -/
def execHostGetPort (io : HostIo) (regs : PortRegs) (s : State) : Host.Outcome State Fault Refusal :=
  done (serve { code := 0x0B17, len := some 8 } io
    (query (fun _ p => orBadArg (decide (fld p 0 1 < 2) && zeroRange p 1 7)) (portAnswer regs)) s)

end Sys2Proof.Machine
end

