-- ==== Sys2Proof/Machine/Trellis.lean ====
section
/-! DEFINITION. The trellis at work: TIME flits and the mapping of counters, HELLO and formation, samples and their relays, isolation,
and the change of master (R362 to R370, R375 to R380). -/

namespace Sys2Proof.Machine

/-! Flits that wait in a group's inbox -/

/-- Take the oldest flit of a type out of a group's inbox. -/
def popFlit (first kind : Nat) (s : State) : Option (Bytes × State) :=
  let g := graftOf s first
  match g.inbox.find? (fun f => f.kind == kind) with
  | none => none
  | some f => some (f.payload, setGraft first { g with inbox := (g.inbox.takeWhile (fun x => x.kind != kind))
                                                    ++ (g.inbox.dropWhile (fun x => x.kind != kind)).drop 1 } s)

/-- A device has been heard over a side. -/
def markHeard (side d : Nat) (s : State) : State :=
  if 2 ≤ side || d = ownId s then s
  else
    let m := memberOf s d
    let s1 := setMember d (if side = 0 then { m with heardEast := some (dcNow s) } else { m with heardWest := some (dcNow s) }) s
    if d = s.trel.master then setTrel { s1.trel with masterHeardAt := some (dcNow s) } s1 else s1

/-- Every device between here and the origin of a relayed flit has been heard over the side it came in by: every other device of the ring,
when it is this device's own flit that has come round. -/
def markPath (side origin : Nat) (s : State) : State :=
  (List.range (if origin = ownId s then ringSize s - 1 else hopsTo s side origin)).foldl (fun t k =>
    markHeard side (if side = 0 then (ownId s + k + 1) % ringSize s else (ownId s + ringSize s * 16 - k - 1) % ringSize s) t) s

/-! TIME flits (R367, Table 14.3) -/

/-- A tick and sub-tick as ticks. -/
def tickOf (dc sub : Nat) : Rat := (dc : Rat) + (sub : Rat) / 256

/-- The sub-tick of a time. -/
def subOf (t : Rat) : Nat := ((t - (t.floor : Rat)) * 256).floor.toNat

/-- asym_ps of a group's port. -/
def asymPs (s : State) (first : Nat) : Int := match s.trel.identity with
  | some i => if first = 48 then i.eastAsym else if first = 56 then i.westAsym else i.spurAsym
  | none => 0

/-- TIME_FLIT_SEND: every 1,024 ticks on every group that is up; an auxiliary group carries no TIME flits (R364). -/
def timeFlitSend (first sub : Nat) (s : State) : State :=
  let l := linkOf s first
  let due := match l.sent with
    | (_, t, _) :: _ => decide (1024 ≤ since s t)
    | [] => true
  if !graftUp s first || !due || isAux s first then s
  else
    let h := l.heard.getD (0xFFFF, 0, 0)
    let b := leBytes 1 (sideOf first) ++ leBytes 1 (ownId s) ++ leBytes 2 l.txSeq ++ leBytes 2 h.1 ++ zeros 2 ++ leBytes 8 (dcNow s)
      ++ leBytes 1 sub ++ zeros 7 ++ leBytes 8 h.2.1 ++ leBytes 1 h.2.2 ++ zeros 7
    flitTo first 2 b (setLink first { l with
      txSeq := (l.txSeq + 1) % 65536, sent := ((l.txSeq, dcNow s, sub % 256) :: l.sent).take 64 } s)

/-- Row TIME_FLIT_SEND: `sub` is the sub-tick at which the flit's first block leaves. -/
def execTimeFlitSend (first sub : Nat) (s : State) : Host.Outcome State Fault Refusal := done (timeFlitSend first sub s)

/-- The mean of the one-way delays of the exchanges held, ticks. -/
def meanDelay (l : Link) : Rat := if l.exchanges.isEmpty then 0 else (l.exchanges.foldl (fun a e => a + e.d) 0) / (l.exchanges.length : Rat)

/-- Whether 64 exchanges stand within ±100 ps of their mean. -/
def steady (l : Link) : Bool :=
  let m := meanDelay l
  decide (64 ≤ l.exchanges.length) && l.exchanges.all (fun e => decide (e.d - m ≤ 1 / 16) && decide (m - e.d ≤ 1 / 16))

/-- An exchange is added: the mapping locks when 64 are steady, and loses lock after 64 in a row at which they are not. -/
def addExchange (first : Nat) (e : Exchange) (s : State) : State :=
  let l := linkOf s first
  let l1 := { l with exchanges := (e :: l.exchanges).take 64 }
  let s1 := bump 12 5 s
  if steady l1 then setLink first { l1 with locked := true, outside := 0 } s1
  else
    let n := l.outside + 1
    let s2 := setLink first { l1 with outside := n, locked := l.locked && decide (n < 64) } s1
    if l.locked && decide (64 ≤ n) then bump 12 6 s2 else s2

/-- TIME_FLIT: the oldest TIME flit of a group, with the time at which it arrived. -/
def timeFlit (first rxDc rxSub : Nat) (s : State) : State := match popFlit first 2 s with
  | none => s
  | some (b, s0) =>
    let l := linkOf s0 first
    let sender := fld b 1 1
    let echo := fld b 4 2
    let s1 := markHeard (sideOf first) sender (setLink first { l with
      heard := some (fld b 2 2, rxDc, rxSub % 256), partner := some sender, lastHeard := some (dcNow s) } s0)
    match (if echo = 0xFFFF then none else l.sent.find? (fun e => e.1 == echo)) with
    | none => s1
    | some (_, dc1, sub1) =>
      let t1 := tickOf dc1 sub1
      let t2 := tickOf (fld b 0x18 8) (fld b 0x20 1)
      let t3 := tickOf (fld b 8 8) (fld b 0x10 1)
      let t4 := tickOf rxDc (rxSub % 256)
      let d := ((t4 - t1) - (t3 - t2)) / 2
      addExchange first ⟨t4, d, t3 + (d + (asymPs s first : Rat) / 1600) - t4⟩ s1

/-- Row TIME_FLIT. -/
def execTimeFlit (first rxDc rxSub : Nat) (s : State) : Host.Outcome State Fault Refusal := done (timeFlit first rxDc rxSub s)

/-- The least-squares line through the exchanges' offsets: a time t0, the offset there and the rate. -/
def fitLink (l : Link) : Rat × Rat × Rat :=
  let t0 := match l.exchanges with | e :: _ => e.at' | [] => 0
  let n : Rat := (l.exchanges.length : Rat)
  let sx := l.exchanges.foldl (fun a e => a + (e.at' - t0)) 0
  let sy := l.exchanges.foldl (fun a e => a + e.theta) 0
  let sxx := l.exchanges.foldl (fun a e => a + (e.at' - t0) * (e.at' - t0)) 0
  let sxy := l.exchanges.foldl (fun a e => a + (e.at' - t0) * e.theta) 0
  let den := n * sxx - sx * sx
  let b := if den = 0 then 0 else (n * sxy - sx * sy) / den
  (t0, if n = 0 then 0 else (sy - b * sx) / n, b)

/-- A partner's tick in this device's own counter. -/
def toOwn (l : Link) (x : Rat) : Rat :=
  let f := fitLink l
  f.1 + (x - f.1 - f.2.1) / (1 + f.2.2)

/-- A link's measured one-way delay, ps. -/
def delayPs (s : State) (first : Nat) : Nat := (freeRound (meanDelay (linkOf s first) * 1600)).toNat

/-! CONTROL messages -/

/-- A CONTROL message that reached this device. -/
structure Ctl where
  src : Nat
  dst : Nat
  scope : Nat
  id : Nat
  body : Bytes
  /-- 0 EAST, 1 WEST, 2 SPUR, and the group -/
  side : Nat
  first : Nat
  deriving DecidableEq, Repr

/-- A CONTROL flit goes on round the ring, out of the other port; where that link has failed in a closed ring, one that is for a single
device goes back the other way (R374, R375). HELLO goes on only from a link whose time mapping is locked, so that one that arrives has
passed no other (R366). (DESIGN CHOICE, log entry 112) -/
def relayOn (c : Ctl) (msg : Nat) (b : Bytes) (s : State) : State :=
  if msg = 1 && !(linkOf s c.first).locked then s
  else if graftUp s (sideFirst (1 - c.side)) || c.dst = 0xFF || openChain s then flitTo (sideFirst (1 - c.side)) 5 b s
  else flitTo (sideFirst c.side) 5 b (bump 12 15 s)

/-- A CONTROL flit for a single device has come back to its sender: that device is not reached over the side it came by. It goes the other
way, where the device has been heard of late. (DESIGN CHOICE, log entry 112) -/
def cameBack (c : Ctl) (b : Bytes) (s : State) : State :=
  let m := memberOf s c.dst
  let s1 := setMember c.dst (if c.side = 0 then { m with heardEast := none } else { m with heardWest := none }) s
  if reachable s1 (1 - c.side) c.dst then flitTo (sideFirst (1 - c.side)) 5 b (bump 12 15 s1) else s1

/-- Take the oldest CONTROL flit of a group, when its message is `msg`: it is relayed where it goes further round the ring, and answered
when it is for this device (R374). A broadcast that has come back to its sender ends; HELLO tells that apart by itself. -/
def takeControl (first msg : Nat) (s : State) : Option Ctl × State :=
  match (graftOf s first).inbox.find? (fun f => f.kind == 5) with
  | none => (none, s)
  | some f =>
    if fld f.payload 0 1 != msg then (none, s)
    else match popFlit first 5 s with
      | none => (none, s)
      | some (b, s0) =>
        let side := sideOf first
        let c : Ctl := ⟨fld b 1 1, fld b 2 1, fld b 3 1, fld b 4 4, b.drop 16, side, first⟩
        let s1 := markHeard side c.src s0
        if side = 2 then (if s.trel.st = tsMaster || s.trel.st = tsManager || msg = 1 then (some c, s1) else (none, s1))
        else if c.src = ownId s && msg != 1 then (none, if c.dst = 0xFF then s1 else cameBack c b s1)
        else if c.dst = 0xFF then (some c, if c.src = ownId s then s1 else relayOn c msg b s1)
        else if c.dst = ownId s then (some c, s1)
        else (none, relayOn c msg b s1)

/-- What a device does with a message, when there is one for it. -/
def onControl (first msg : Nat) (act : Ctl → State → State) (s : State) : State := match takeControl first msg s with
  | (some c, t) => act c t
  | (none, t) => t

/-! The lag (R370, R378) -/

/-- The wire form of a lag in ns, rounded down; the units it stands for follow by rounding up. -/
def lagWire (units : Nat) : Nat := units * 256 / 10
def lagUnits (ns : Nat) : Nat := ceilDiv (ns * 10) 256

/-- The largest one-way hop delay that this device knows of its ring, ps: its own links' and its members'. -/
def largestHop (s : State) : Nat :=
  (s.trel.members.foldl (fun m e => max m (max e.2.delayEast e.2.delayWest)) (max (delayPs s 48) (delayPs s 56)))

/-- D of a ring: its devices and largest hop delay, ps. -/
def ringDelay (n hop : Nat) : Nat := (n - 1) * hop + (n - 2) * 12000

/-- A lag in units of 25.6 ns for a delay in ps: never less than 51.2 ns. -/
def lagFor (ps : Nat) : Nat := max 2 (ceilDiv (ps + 30000) 25600)

/-- L as the master computes it. (DEDUCED, log entry 68) -/
def computedLag (s : State) : Nat := lagFor (ringDelay (ringSize s) (largestHop s))

/-- L_E as the manager computes it, from its spurs' delays and from what their HELLOs say of the rings behind them. -/
def estateLag (s : State) : Nat :=
  let spur := (spursUp s).foldl (fun m l => max m (delayPs s l)) 0
  let ring := s.trel.members.foldl (fun m e => max m (ringDelay e.2.ringSize e.2.ringHop)) 0
  lagFor (spur + 12000 + ring)

/-! Identity and joining (R365, R366) -/

/-- The state that identity and accepted features give (Table 14.2): a device with an identity begins to join. -/
def joinTrellis (s : State) : State := match s.trel.identity with
  | none => setTrel { s.trel with st := tsAlone } s
  | some _ =>
    if !feature s 3 then setTrel { s.trel with st := tsAlone } s
    else setTrel { s.trel with
      st := if feature s 5 then tsManager else tsJoining, joinedAt := dcNow s, firstHello := none, helloAt := none, members := []
      conflict := false, samples := [], sampleAt := none, ring := 0, attached := false, detached := false, frozen := none } s

/-! HELLO and formation (R366) -/

/-- The body of this device's HELLO: its measured hop delays are those of its own links, and on a spur the largest of the ring too.
(DESIGN CHOICE, log entry 71) -/
def helloBody (s : State) (spur : Bool) : Bytes := match s.trel.identity with
  | none => []
  | some i => leBytes 1 i.trellis ++ leBytes 1 i.device ++ leBytes 1 i.ringSize ++ leBytes 1 s.start.trellisRole ++ leBytes 2 s.trel.epoch
      ++ leBytes 2 i.roleKey ++ leBytes 4 (delayPs s 48) ++ leBytes 4 (delayPs s 56) ++ (if spur then leBytes 4 (largestHop s) else [])

/-- Whether the time mapping of a side's link is locked, or the side has no link: a ring of one, or the end of an open chain (R364). -/
def sideLocked (s : State) (side : Nat) : Bool := match s.trel.identity with
  | none => false
  | some i =>
    i.ringSize == 1 || (linkOf s (sideFirst side)).locked
      || (i.openChain && (if side = 0 then i.device + 1 == i.ringSize else i.device == 0))

/-- Whether a member has been heard within some ticks. -/
def heardWithin (s : State) (d ticks : Nat) : Bool :=
  [(memberOf s d).heardEast, (memberOf s d).heardWest].any (fun h => match h with | some t => decide (since s t < ticks) | none => false)

/-- The devices of the ring that are there: heard of late, neither lost nor refused; and this one. (DESIGN CHOICE, log entry 112) -/
def presentMembers (s : State) : List Nat :=
  (List.range (ringSize s)).filter (fun d => d == ownId s || (match tfind s.trel.members d with
    | some m => !m.lost && m.ringSize != 0 && m.clashAt.isNone && heardWithin s d (usTicks 300)
    | none => false))

/-- Whether every other device's HELLO has come of late over each path that leads to it, and so over links whose mappings are locked
(R366). (DEDUCED, log entry 68) -/
def allHeard (s : State) : Bool := (List.range (ringSize s)).all (fun d => d == ownId s ||
  (let m := memberOf s d
   m.clashAt.isNone && ((openChain s && decide (d < ownId s)) || lately s m.helloEast) && ((openChain s && decide (ownId s < d)) || lately s m.helloWest)))

/-- Send FORMED: ring_size, the bitmap of members, L. -/
def sendFormed (s : State) : State :=
  sendRing 2 0xFF 0 0 (leBytes 1 (ringSize s) ++ leBytes 2 s.trel.ring ++ leBytes 4 (lagWire s.trel.lag)) s

/-- This device forms the trellis with those that are present; the others are LOST. -/
def formTrellis (s : State) : State :=
  let there := presentMembers s
  let ring := sumBy (fun d => 2 ^ d) there
  let lost := (List.range (ringSize s)).foldl (fun t d =>
    if there.contains d then t else tput t d { tget {} t d with lost := true }) s.trel.members
  sendFormed (setTrel { s.trel with
    st := tsMaster, master := ownId s, ring := ring, members := lost, lag := computedLag s, samples := [], sampleAt := none
    posStale := false } s)

/-- The MASTER strap forms when every device has been heard and every link is locked. (DEDUCED, log entry 68) -/
def tryForm (s : State) : State :=
  if s.trel.st = tsJoining && s.start.trellisRole = 2 && !s.trel.conflict && s.trel.sampleAt.isNone
      && (presentMembers s).length == ringSize s && allHeard s && sideLocked s 0 && sideLocked s 1 then formTrellis s else s

/-- HELLO_SEND: every 100 µs on every port that is up. A conflict of which nothing was heard of late is over. (DESIGN CHOICE, log entry 112) -/
def helloSend (s : State) : State :=
  let due := match s.trel.helloAt with
    | some t => decide (usTicks 100 ≤ since s t)
    | none => true
  if s.trel.st = tsAlone || !due then s
  else
    let s1 := setTrel { s.trel with
      helloAt := some (dcNow s), conflict := s.trel.conflict && lately s (some s.trel.conflictAt) } s
    tryForm (sendOver (spurLanes s1) 1 0xFF 0 0 (helloBody s1 true) (if s.trel.st = tsManager then s1 else sendRing 1 0xFF 0 0 (helloBody s1 false) s1))

/-- Row HELLO_SEND. -/
def execHelloSend (s : State) : Host.Outcome State Fault Refusal := done (helloSend s)

/-- Another device has this device's device_id: this one is refused (R366). -/
def ownConflict (s : State) : State :=
  let s1 := setTrel { s.trel with conflict := true, conflictAt := dcNow s } s
  if s.trel.conflict then s1 else raise 0x0A01 3 (ownId s) 0 0 s1

/-- What a HELLO that came in by a side says of its device. (DEDUCED, log entry 68) -/
def readHello (m : Member) (b : Bytes) : Member :=
  { m with
    lost := false, strap := fld b 3 1, roleEpoch := fld b 4 2, roleKey := fld b 6 2, ringSize := fld b 2 1, delayEast := fld b 8 4
    delayWest := fld b 12 4, ringHop := fld b 16 4 }

/-- A member's HELLO came in by a side. -/
def noteHello (m : Member) (side now : Nat) : Member :=
  if side = 0 then { m with helloEast := some now } else { m with helloWest := some now }

/-- Two other devices have one device_id: both are refused, until for the time of three HELLOs only one of the two is heard (R366).
(DESIGN CHOICE, log entry 112) -/
def otherConflict (d : Nat) (m : Member) (s : State) : State :=
  let s1 := setMember d { m with clashAt := some (dcNow s) } s
  if m.clashAt.isSome then s1 else raise 0x0A01 3 d 0 0 s1

/-- A HELLO over the ring. (DEDUCED, log entry 68) -/
def ringHello (c : Ctl) (s : State) : State := match s.trel.identity with
  | none => s
  | some i =>
    let b := c.body
    let d := fld b 1 1
    let link := linkOf s c.first
    let old := memberOf s d
    let new := noteHello (readHello old b) c.side (dcNow s)
    let differs := old.ringSize != 0 && !old.lost && (lately s old.helloEast || lately s old.helloWest)
      && (old.strap != fld b 3 1 || old.roleKey != fld b 6 2)
    let mine := decide (fld b 3 1 ≠ s.start.trellisRole ∨ fld b 6 2 ≠ i.roleKey)
    if d = i.device then (if mine || link.partner == some i.device && ringSize s != 1 then ownConflict s else s)
    else if fld b 0 1 ≠ i.trellis || fld b 2 1 ≠ i.ringSize || i.ringSize ≤ d || link.partner ≠ some (neighbour s c.side) || !link.locked then s
    else if differs then otherConflict d new s
    else if lately s old.clashAt then setMember d new s
    else
      let back := formed s && !bitOf s.trel.ring d
      let s1 := setMember d { new with clashAt := none } s
      let s2 := setTrel { s1.trel with
        firstHello := some (s1.trel.firstHello.getD (dcNow s)), ring := if back then s1.trel.ring + 2 ^ d else s1.trel.ring } s1
      if back && s.trel.st == tsMaster then sendFormed (setTrel { s2.trel with lag := if s2.trel.attached then s2.trel.lag else computedLag s2 } s2)
      else tryForm s2

/-- A HELLO over a spur tells which device and trellis stand behind it. A manager takes two spurs of a trellis (R377). -/
def spurHello (c : Ctl) (s : State) : State :=
  let t := fld c.body 0 1
  let d := fld c.body 1 1
  let third := s.trel.st = tsManager && decide (2 ≤ ((spursUp s).filter (fun l => l != c.first && (linkOf s l).trellis == some t)).length)
  let s1 := setLink c.first { linkOf s c.first with
    partner := some c.src, trellis := if third then none else some t, refused := third } s
  if s.trel.st = tsManager && !third then
    setMember (t * 16 + d) { readHello (memberOf s1 (t * 16 + d)) c.body with heardEast := some (dcNow s) } s1
  else s1

/-- Row HELLO. -/
def execHello (first : Nat) (s : State) : Host.Outcome State Fault Refusal :=
  done (onControl first 1 (fun c t => if c.side = 2 then spurHello c t else if t.trel.st = tsAlone || t.trel.st = tsManager then t else ringHello c t) s)

/-- FORMATION_TIMEOUT: 1 s after the first HELLO the MASTER strap forms with those present; when none has been heard for 2 s, the lowest
deputy that can be reached does. -/
def formationTimeout (s : State) : State :=
  let master := s.trel.members.any (fun e => e.1 != ownId s && e.2.strap == 2 && heardWithin s e.1 (secTicks 2))
  let lower := (presentMembers s).any (fun d => decide (d < ownId s) && (memberOf s d).strap == 1)
  if s.trel.st ≠ tsJoining || s.trel.conflict || s.trel.sampleAt.isSome then s
  else match s.start.trellisRole, s.trel.firstHello with
    | 2, some t => if secTicks 1 ≤ since s t then formTrellis s else s
    | 1, _ => if !master && !lower && secTicks 2 ≤ since s s.trel.joinedAt then formTrellis s else s
    | _, _ => s

/-- Row FORMATION_TIMEOUT. -/
def execFormationTimeout (s : State) : Host.Outcome State Fault Refusal := done (formationTimeout s)

/-- FORMED: the device becomes a MEMBER with the given L, when the bitmap has it. -/
def takeFormed (c : Ctl) (s : State) : State :=
  let ring := fld c.body 1 2
  let mine := bitOf ring (ownId s)
  let lost := s.trel.members.map (fun e => (e.1, { e.2 with lost := !bitOf ring e.1 }))
  let now := some (dcNow s)
  if c.side = 2 || !mine || s.trel.conflict then s
  else if s.trel.st = tsJoining then
    setTrel { s.trel with
      st := tsMember, master := c.src, epoch := max s.trel.epoch (memberOf s c.src).roleEpoch, ring := ring, members := lost
      lag := lagUnits (fld c.body 3 4), sampleAt := some (s.trel.sampleAt.getD (dcNow s)), masterHeardAt := now } s
  else if (s.trel.st = tsMember || s.trel.st = tsIsolated) && c.src = s.trel.master then
    setTrel { s.trel with ring := ring, members := lost } s
  else s

/-- Row FORMED. -/
def execFormed (first : Nat) (s : State) : Host.Outcome State Fault Refusal := done (onControl first 2 takeFormed s)

/-! Samples (R369, Table 14.4) -/

/-- A POSITION flit's payload. -/
def positionBytes (scope origin hops lag : Nat) (k : Sample) : Bytes :=
  leBytes 1 scope ++ leBytes 1 origin ++ leBytes 1 hops ++ leBytes 1 k.flags ++ leBytes 2 k.epoch ++ leBytes 2 k.seq
    ++ leInt 8 k.at'.floor ++ leBytes 1 (subOf k.at') ++ zeros 3 ++ leInt 4 k.speed ++ leInt 8 k.position ++ leBytes 4 (lagWire lag) ++ zeros 4

/-- Send a POSITION flit over a group whose mapping is locked. -/
def sendPosition (first : Nat) (b : Bytes) (s : State) : State := if (linkOf s first).locked then flitTo first 1 b s else s

/-- Send it on both ports. -/
def sendBoth (b : Bytes) (s : State) : State := sendPosition 56 b (sendPosition 48 b s)

/-- How far the strip has gone beyond the last count edge of the active channel: less than one count (R369). -/
def beyondEdge (s : State) : Int := match s.pos.sp.active with
  | none => 0
  | some ch =>
    let c := chan s ch
    let top : Int := ((ceilDiv (scaleOf s ch) (2 ^ 32) - 1 : Nat) : Int)
    clampInt (-top) top (freeRound (travelOver c.speed ((since s c.lastCountDc : Nat) : Rat)))

/-- The flags of a sample: UNCERTAIN, NO_MOTION, BACKWARD, DEGRADED. -/
def sampleFlags (s : State) : Nat :=
  let sp := s.pos.sp
  let c := match sp.active with | some ch => chan s ch | none => {}
  let still := match sp.active with | some ch => (chan s ch).stale | none => true
  b2n c.uncertain + 2 * b2n still + 4 * b2n c.backward + 8 * b2n (sp.altActive || s.trel.detached)

/-- Speed of the active channel. -/
def ownSpeed (s : State) : Int := match s.pos.sp.active with | some ch => (chan s ch).speed | none => 0

/-- Keep the samples that P(t) may still need. -/
def pruneSamples (s : State) (l : List Sample) : List Sample :=
  let young (k : Sample) : Bool := decide ((dcNow s : Rat) - k.lagTicks < k.at')
  l.takeWhile young ++ (l.dropWhile young).take 1

/-- A sample of its own that the master adds and sends. -/
def originate (k : Sample) (s : State) : State :=
  let s1 := setTrel { s.trel with
    samples := pruneSamples s (k :: s.trel.samples), sampleSeq := (k.seq + 1) % 65536, sampleAt := some (dcNow s) } s
  bump 12 0 (sendBoth (positionBytes 0 (ownId s) 0 s.trel.lag k) s1)

/-- The master's sample at this tick. -/
def ownSample (s : State) : Sample :=
  ⟨s.trel.epoch, s.trel.sampleSeq, (dcNow s : Rat), 0, sampleFlags s, s.pos.sp.target + beyondEdge s, ownSpeed s, s.trel.lag⟩

/-- A station's settings in an image: its offset where it is enabled (Table 14.12). (DESIGN CHOICE, log entry 69) -/
def stationOffset (img : Image) (t : Nat) : Option Int := match tfind img (settingKey 0x0C00 t) with
  | some p => if fld p 1 1 = 1 then some (sfld p 8 8) else none
  | none => none

/-- POSITION_SAMPLE: every 16 ticks the master that is on its own channel, or the manager of an estate, takes a sample. -/
def positionSample (s : State) : State :=
  let due := match s.trel.sampleAt with
    | some t => decide (16 ≤ since s t)
    | none => true
  if !due then s
  else if s.trel.st = tsMaster && !s.trel.attached then originate (ownSample s) s
  else if s.trel.st = tsManager then
    let k := ownSample s
    let s1 := bump 12 0 (setTrel { s.trel with sampleSeq := (k.seq + 1) % 65536, sampleAt := some (dcNow s), lag := estateLag s } s)
    (spursUp s).foldl (fun t l => sendPosition l (positionBytes 1 0xFF 0 s1.trel.lag k) t) s1
  else s

/-- Row POSITION_SAMPLE. -/
def execPositionSample (s : State) : Host.Outcome State Fault Refusal := done (positionSample s)

/-- The triggers since the lost master's last flit carry degraded, those too that fired before the loss was seen (R375). -/
def degradeSinceMaster (s : State) : State := match s.trel.masterHeardAt with
  | none => s
  | some t =>
    let mark (k : TrigRec) : TrigRec := if since s k.deviceCount < since s t then { k with flags := k.flags ||| 2 } else k
    { s with trig := { s.trig with units := s.trig.units.map (fun e => (e.1, { e.2 with records := e.2.records.map mark })) } }

/-- Members accept a higher role_epoch (R375): the master is another, and this device is one no more. -/
def adoptMaster (epoch master : Nat) (s0 : State) : State :=
  if epoch ≤ s0.trel.epoch || !(formed s0) then s0
  else
    let s := if s0.trel.posStale then degradeSinceMaster s0 else s0
    let s1 := setTrel { s.trel with
      epoch := epoch, master := master, st := if s.trel.st = tsMaster then tsMember else s.trel.st, masterHeardAt := some (dcNow s)
      attached := false, detached := false, estateAt := none, coord := none, sampleAt := some (dcNow s) } s
    raise 0x0A05 2 master epoch 0 (bump 12 11 s1)

/-- Put a sample in its place: a copy with fewer hops takes the place of the one held. -/
def takeSample (k : Sample) (s : State) : State :=
  match s.trel.samples.find? (fun x => x.epoch == k.epoch && x.seq == k.seq) with
  | some old =>
    let l := if k.hops < old.hops then s.trel.samples.map (fun x => if x = old then k else x) else s.trel.samples
    bump 12 3 (setTrel { s.trel with samples := l } s)
  | none =>
    let gap := match s.trel.samples with
      | x :: _ => if x.epoch = k.epoch then (k.seq + 65536 - x.seq) % 65536 else 1
      | [] => 1
    if 32768 ≤ gap then bump 12 3 s
    else
      let back := s.trel.st = tsIsolated
      bumpBy 12 4 (gap - 1) (bump 12 1 (setTrel { s.trel with
        samples := pruneSamples s (k :: s.trel.samples), sampleAt := some (dcNow s), lag := k.lag
        st := if back then tsMember else s.trel.st } s))

/-- A sample of the ring: relayed out of the other port with its tick in this device's counter, and used. -/
def ringPosition (first : Nat) (b : Bytes) (s : State) : State :=
  let side := sideOf first
  let l := linkOf s first
  let origin := fld b 1 1
  let epoch := fld b 4 2
  let s1 := markPath side origin s
  if origin = ownId s || !l.locked || epoch < s.trel.epoch then s1
  else
    let s2 := adoptMaster epoch origin s1
    let hops := fld b 2 1
    let at' := toOwn l (tickOf (fld b 8 8) (fld b 0x10 1))
    let k : Sample := ⟨epoch, fld b 6 2, at', hops, fld b 3 1, sfld b 0x18 8, sfld b 0x14 4, lagUnits (fld b 0x20 4)⟩
    let other := sideFirst (1 - side)
    let s3 := if (linkOf s2 other).locked && graftUp s2 other then
      bump 12 2 (flitTo other 1 (positionBytes 0 origin (hops + 1) k.lag k) s2) else s2
    if s3.trel.st = tsMaster || s3.trel.st = tsAlone || s3.trel.st = tsManager then s3 else takeSample k s3

/-- The slip of a station: its own channel's travel against the trellis position over windows of slip_window_nm. As R78 has it, a window is
abandoned, and none begins, while the channel is STALE or failed or the estate's position does not move; it is abandoned too when either
reverses (R380). `flags` are those of the estate's sample. (DESIGN CHOICE, log entry 69) -/
def stationSlip (flags : Nat) (s : State) : State :=
  let own := s.pos.sp.target
  let w := (spinSet s).slipWindow
  let c := match s.pos.sp.active with
    | some ch => chan s ch
    | none => { stale := true }
  let fresh : StationWin := ⟨own, s.pos.sp.pos, c.backward, bitOf flags 2⟩
  if c.stale || c.failed || bitOf flags 1 || w = 0 then setTrel { s.trel with slipFrom := none } s
  else match s.trel.slipFrom with
  | none => setTrel { s.trel with slipFrom := some fresh } s
  | some o =>
    let travel := s.pos.sp.pos - o.pos
    if o.ownBack != c.backward || o.trelBack != bitOf flags 2 then setTrel { s.trel with slipFrom := some fresh } s
    else if travel.natAbs < w then s
    else setTrel { s.trel with
      slipFrom := some fresh, stationSlip := clampInt (-2147483648) 2147483647 (roundAway ((own - o.own - travel) * 1000000) travel) } s

/-- A new sample of the estate at a trellis master: it goes into the ring less the station's offset (R378). After TREL.REATTACH the
difference to the trellis position is absorbed over travel, its event raised, and what is sent meanwhile is degraded (R369, R380).
(DESIGN CHOICE, log entry 69) -/
def estateSample (l : Link) (trellis : Nat) (b : Bytes) (s0 : State) : State :=
  if s0.trel.detached && !s0.trel.reattach then s0
  else
    let p := sfld b 0x18 8 - Config.stationOffset trellis
    let back := s0.trel.reattach
    let rest := if back then s0.pos.sp.target + beyondEdge s0 - p else s0.trel.estateAbsorb
    let last := match s0.trel.samples with
      | x :: _ => x.position - s0.trel.estateAbsorb
      | [] => p
    let a := if back then (rest, 0) else absorbOver rest s0.trel.estateTravel (p - last)
    let s1 := setTrel { s0.trel with
      attached := true, detached := false, reattach := false, estateAbsorb := a.1, estateTravel := a.2, lag := lagUnits (fld b 0x20 4) } s0
    let s2 := if back then raise 0x0A04 1 0 rest 0 s1 else s1
    let k : Sample := ⟨s2.trel.epoch, s2.trel.sampleSeq, toOwn l (tickOf (fld b 8 8) (fld b 0x10 1)), 0
                      , if a.1 = 0 then fld b 3 1 else fld b 3 1 ||| 8, p + a.1, sfld b 0x14 4, s2.trel.lag⟩
    stationSlip (fld b 3 1) (originate k s2)

/-- A POSITION flit of the estate at a trellis master; a copy, or one that comes late, is counted and not used (R369, R387). -/
def estatePosition (first : Nat) (b : Bytes) (s : State) : State := match s.trel.identity with
  | none => s
  | some i =>
    let l := linkOf s first
    let seq := fld b 6 2
    let gap := match s.trel.estateSeq with
      | some q => (seq + 65536 - q) % 65536
      | none => 1
    if s.trel.st ≠ tsMaster || !l.locked then s
    else if gap = 0 || (decide (32768 ≤ gap) && !s.trel.posStale) then bump 12 3 s
    else estateSample l i.trellis b
      (bumpBy 12 4 (if 32768 ≤ gap then 0 else gap - 1) (bump 12 1 (setTrel { s.trel with estateAt := some (dcNow s), estateSeq := some seq } s)))

/-- POSITION_FLIT: the oldest POSITION flit of a group. -/
def positionFlit (first : Nat) (s : State) : State := match popFlit first 1 s with
  | none => s
  | some (b, s0) =>
    if fld b 0 1 = 1 then (if sideOf first = 2 then estatePosition first b s0 else s0)
    else if sideOf first = 2 then s0 else ringPosition first b s0

/-- Row POSITION_FLIT. -/
def execPositionFlit (first : Nat) (s : State) : Host.Outcome State Fault Refusal := done (positionFlit first s)

/-- The tick of the last sample that a device depends on: a member's, or the estate's at an attached master. -/
def dependsOn (s : State) : Option Nat :=
  if s.trel.st = tsMember then s.trel.sampleAt else if s.trel.st = tsMaster && s.trel.attached then s.trel.estateAt else none

/-- holdover_us in force. -/
def holdoverUs (s : State) : Nat := match s.trel.identity with
  | some i => if i.holdoverUs = 0 then 200 else i.holdoverUs
  | none => 200

/-- Row POS_STALE: 2 µs without a sample. -/
def execPosStale (s : State) : Host.Outcome State Fault Refusal :=
  done (match dependsOn s with
    | some t => if s.trel.posStale || since s t < usTicks 2 then s
        else bump 12 9 (setTrel { s.trel with posStale := true, staleFrom := match s.trel.samples with | k :: _ => k.at' | [] => 0 } s)
    | none => s)

/-- Row ISOLATED: holdover_us without a sample; the spindle position freezes. -/
def execIsolated (s : State) : Host.Outcome State Fault Refusal :=
  done (match s.trel.sampleAt with
    | some t => if s.trel.st ≠ tsMember || since s t < usTicks (holdoverUs s) then s
        else raise 0x0A03 3 0 s.pos.sp.pos 0 (bump 12 10 (trelUpdate (setTrel { s.trel with
          st := tsIsolated, frozen := some s.pos.sp.pos, samples := [], absorb := 0, absorbTravel := 0 } s)))
    | none => s)

/-! The change of master (R375, R376, R380) -/

/-- The channel on which this device rebases: its master channel, unless that has failed (R375, R380). -/
def homeChannel (s : State) : Option Nat := match (spinSet s).master with
  | some m => if (chan s m).failed then s.pos.sp.active else some m
  | none => s.pos.sp.active

/-- The spindle is driven by that channel. -/
def takeHome (s : State) : State :=
  let ch := homeChannel s
  let home := ch == (spinSet s).master
  modSpin (fun sp => { sp with
    active := ch, altActive := sp.altActive && !home, restorePending := sp.restorePending && !home
    frozen := sp.frozen && (match ch with | some c => (chan s c).failed | none => true) }) s

/-- Rebase the spindle on this device's own channel without a step: its sample of this tick is what P, carried on, gives when that
sample applies (R375). (DESIGN CHOICE, log entry 69) -/
def rebaseHere (s0 : State) : State :=
  let s := takeHome s0
  let p := (match trellisAt s ((dcNow s : Rat) + lagTicks s) with
    | some q => freeRound q
    | none => s.pos.sp.pos) - beyondEdge s
  match s.pos.sp.active with
  | none => modSpin (fun sp => { sp with basePos := p, target := p }) s
  | some ch => modSpin (fun sp => { sp with
      basePos := p, target := p, baseCount := (chan s ch).count, firstCount := false, corr := 0, held := false
      sampleDc := sp.sampleDc.map (fun _ => dcNow s) }) s

/-- Whether this device's master channel works (Table 3.3). -/
def channelHealthy (s : State) : Bool := match (spinSet s).master with
  | some m => !(chan s m).failed
  | none => false

/-- A new master takes over the commit that it has armed: COMMIT with the same P_c goes to every member (R384). Of an estate's commit the
manager goes on as the coordinator. -/
def takeOverCommit (s : State) : State := match s.cfg.commit with
  | none => s
  | some c => match c.trellis, c.pc with
    | some id, some pc =>
      let t : TwoPhase :=
        { id := id, ticket := none, estate := false, boundary := 2, position := pc, only := none, startedAt := dcNow s
          members := setBits 16 s.trel.ring, answers := [], pc := some pc, repeatAt := dcNow s, armed := [ownId s], applied := [], missed := []
          reached := false, passedAt := none }
      if s.trel.scope = 1 then sendRing 7 0xFF 1 id (leInt 8 pc) s
      else sendRing 7 0xFF 0 id (leInt 8 pc) (setTrel { s.trel with coord := some t } s)
    | _, _ => s

/-- A deputy takes the role: it rebases, increments role_epoch, and broadcasts ROLE_CLAIM, on its spurs too, and its first sample.
(DESIGN CHOICE, log entry 113) -/
def claimRole (s : State) : State :=
  let e := (s.trel.epoch + 1) % 65536
  let s1 := setTrel { s.trel with
    epoch := e, master := ownId s, st := tsMaster, attached := false, detached := false, estateAbsorb := 0 } (rebaseHere s)
  let s2 := raise 0x0A05 2 (ownId s) e 0 (bump 12 11 (sendSpurs 3 0xFF 0 0 (leBytes 2 e) (sendRing 3 0xFF 0 0 (leBytes 2 e) s1)))
  takeOverCommit (originate (ownSample s2) s2)

/-- Whether this device may hold the master role (Table 14.1). -/
def mayLead (s : State) : Bool := feature s 4 && (s.start.trellisRole == 1 || s.start.trellisRole == 2)

/-- MASTER_LOST: 10 µs without a flit of the master's; each lower deputy that is reachable has 10 µs to claim first.
(DEDUCED, log entry 68) -/
def masterLost (s : State) : State :=
  let lower := ((presentMembers s).filter (fun d => decide (d < ownId s) && d != s.trel.master
    && ((memberOf s d).strap == 1 || (memberOf s d).strap == 2))).length
  match s.trel.masterHeardAt with
  | some t => if s.trel.st = tsMember && mayLead s && channelHealthy s && decide (usTicks (10 * (lower + 1)) ≤ since s t) then
      claimRole (degradeSinceMaster s) else s
  | none => s

/-- Row MASTER_LOST. -/
def execMasterLost (s : State) : Host.Outcome State Fault Refusal := done (masterLost s)

/-- Row ROLE_CLAIM. A manager learns from it which device of a trellis holds the role (R377). -/
def execRoleClaim (first : Nat) (s : State) : Host.Outcome State Fault Refusal :=
  done (onControl first 3 (fun c t => if c.side = 2 then
      (if t.trel.st = tsManager then setLink c.first { linkOf t c.first with claim := some (fld c.body 0 2) } t else t)
    else adoptMaster (fld c.body 0 2) c.src t) s)

/-- Row HANDOVER: the named deputy rebases and claims at its sample (R376). -/
def execHandover (first : Nat) (s : State) : Host.Outcome State Fault Refusal :=
  done (onControl first 4 (fun c t =>
    if c.side = 2 || c.src ≠ t.trel.master || fld c.body 0 1 ≠ ownId t || t.trel.st ≠ tsMember || !mayLead t || !channelHealthy t then t
    else claimRole t) s)

/-- Row MEMBER_LOST: nothing has arrived from a device for 10 µs over either path. -/
def execMemberLost (device : Nat) (s : State) : Host.Outcome State Fault Refusal :=
  done (
    let m := memberOf s device
    let quiet (t : Option Nat) : Bool := match t with
      | some u => decide (usTicks 10 ≤ since s u)
      | none => true
    if !formed s || device = ownId s || !bitOf s.trel.ring device || m.lost || !(quiet m.heardEast && quiet m.heardWest) then s
    else
      let t := match s.trel.identity with | some i => i.trellis | none => 0
      raise 0x0A06 3 (t + device * 256) 0 0 (setMember device { m with lost := true } (setTrel { s.trel with ring := s.trel.ring - 2 ^ device } s)))

/-- Row ESTATE_DETACHED: holdover_us without an estate sample; the master rebases its trellis on its own channel. -/
def execEstateDetached (s : State) : Host.Outcome State Fault Refusal :=
  done (match s.trel.estateAt with
    | some t =>
      if s.trel.st ≠ tsMaster || !s.trel.attached || since s t < usTicks (holdoverUs s) then s
      else
        let n := match s.trel.identity with | some i => i.trellis | none => 0
        raise 0x0A07 3 n 0 0 (setTrel { s.trel with
          attached := false, detached := true, lag := computedLag s, estateAbsorb := 0, slipFrom := none } (rebaseHere s))
    | none => s)

end Sys2Proof.Machine
end

