-- ==== Sys2Proof/Machine/Validate.lean ====
section
/-! DEFINITION. What CFG.COMMIT and a PREPARE validate: the staged configuration as a whole (R43), the HBM budget (R14), roles (R125,
R363), deepened graphs (R276, R278), and which settings are at their reset value (R53). -/

namespace Sys2Proof.Machine

/-! Settings at their reset value (R53) -/

/-- Whether every entry of a loaded column table is the reset entry of Table 9.1. -/
def tableAtReset (b : Bytes) : Bool := (List.range (ceilDiv b.length 8)).all (fun c => entryWord b c == 0x4000)

/-- The payload that a setting's reset value spells, where it has one. (DESIGN CHOICE, log entry 9) -/
def resetValue (code obj : Nat) : Option Bytes := match code with
  | 0x0200 => some (laneReset obj)
  | 0x0201 => some (eqReset obj)
  | 0x0301 => some (headReset obj)
  | 0x0400 => some (chanReset obj)
  | 0x0401 => some spinReset
  | 0x0402 => some (divReset obj)
  | 0x0403 => some (emuReset obj)
  | 0x0404 => some (gpReset obj)
  | 0x0500 => some (unitReset obj)
  | 0x0501 => some (trgReset obj)
  | 0x0502 => some (bankReset obj)
  | 0x0503 => some (actReset obj)
  | 0x0504 => some (ruleReset obj)
  | 0x0505 => some (gevReset obj)
  | 0x0600 => some (viewReset obj)
  | 0x0601 => some (ptpReset obj)
  | 0x0602 => some selReset
  | 0x0603 => some ppsReset
  | 0x0700 => some bufferReset
  | 0x0701 => some (ingStreamReset obj)
  | 0x0702 => some (groupReset obj)
  | 0x0800 => some (corReset obj)
  | 0x0801 => some (geomReset obj)
  | 0x0803 => some (corrSetReset obj)
  | 0x0805 => some (stitchReset obj)
  | 0x0900 => some []
  | 0x0901 => some (bindReset obj)
  | 0x0902 => some sprintReset
  | 0x0A00 => some (rgnReset obj)
  | 0x0A01 => some tilesReset
  | 0x0B00 => some (leBytes 32 obj)
  | 0x0B01 => some (zeros 8)
  | 0x0C00 => some (leBytes 16 obj)
  | 0x0D00 => some (leBytes 16 obj)
  | 0x0F00 => some (leBytes 8 2 ++ leBytes 8 1000000000)
  | _ => none

/-- Whether a setting is at its reset value, and so has no record. (DESIGN CHOICE, log entry 9) -/
def atReset (k : Nat) (v : Bytes) : Bool :=
  if k / 2 ^ 32 = 0x0804 then tableAtReset v else resetValue (k / 2 ^ 32) (k % 2 ^ 32) == some v

/-- A configuration without the settings that stand at their reset value. (DESIGN CHOICE, log entry 9) -/
def dropResets (img : Image) : Image := img.filter (fun e => !atReset e.1 e.2)

/-- The staged configuration: what a commit would put in force; empty while nothing is staged (R473). (DEDUCED, log entry 31) -/
def stagedImage (s : State) : Image := if s.cfg.staged.isEmpty then [] else dropResets (nextImage s)

/-- Canonical bytes of the staged configuration. (DEDUCED, log entry 31) -/
def stagedCanon (s : State) : Bytes := canonImage s.mbx.accepted (stagedImage s)

/-- Its stage time in µs (R45). (DESIGN CHOICE, log entry 12) -/
def stageTime (s : State) : Nat := if s.cfg.staged.isEmpty then 0 else Config.stageTimeUs (stagedCanon s)

/-! HBM traffic (R14) -/

/-- Line rates times bytes of a line and of some bytes beside it, over some streams, bytes a second. -/
def ingestBytes (img : Image) (streams : List Nat) (beside : Nat) : Nat := sumBy (fun n => match streamCfg img n with
  | some c => c.lineRate * (lineBytes c.format c.columns + beside)
  | none => 0) streams

/-- Whether the HBM traffic of some line streams is admitted with a tile budget in GB/s. -/
def hbmFits (s : State) (img : Image) (streams : List Nat) (tiles : Nat) : Bool :=
  let l := ingestBytes img streams 80
  let r := 2 * ingestBytes img streams 0 + (tiles + 64 + 256) * 10 ^ 9
  if feature s 6 then decide (4 * l + 3 * r ≤ 3 * 3840 * 10 ^ 9) && decide (2 * l + 3 * r ≤ 2 * 2880 * 10 ^ 9)
  else decide (l + r ≤ 3840 * 10 ^ 9)

/-- The HBM budget as a check of two settings (DESIGN CHOICE): RGN.SET_TILES where its tile budget is above the default and the
default would fit, else ING.SET_STREAM of the first stream that no longer fits, streams taken in ascending number.
(DEDUCED, log entry 30) -/
def hbmValidate (s : State) (img : Image) (code obj : Nat) : Option Nat :=
  let all := declaredStreams img
  let b := tileBudget img
  let fits := hbmFits s img all b
  if code = 0x0701 then
    (if fits || hbmFits s img (all.filter (fun n => decide (n ≤ obj))) (min b 100) then none else some 0x44)
  else if code = 0x0A01 then (if !fits && hbmFits s img all (min b 100) then some 0x44 else none)
  else none

/-! Roles -/

/-- A field PTP port is the lowest lane of its port, and MASTER_ONLY needs a GigE Vision head on it (Tables 5.3, 5.11). -/
def ptpValidate (img : Image) (port : Nat) : Option Nat :=
  let role := (ptpCfg img port).role
  if port < 48 && (laneSet img port).first != port then some stBadArg
  else if role = 2 && !((portHeads img port).any (fun h => (headCfg img h).protocol == 1)) then some 0x44
  else none

/-- The heads of a unit's CoaXPress-over-Fiber mask are such heads (R101). -/
def cxpMaskBad (img : Image) (u : Nat) : Bool := (setBits 48 (unitCfg img u).cxpHeads).any (fun h => (headCfg img h).protocol != 2)

/-! Deepened graphs (R276, R278) -/

/-- A Graft group's data rate in bit/s (Table 6.2): 112 Gbit/s a lane, 64 of 66 bits, with FEC 528 of 544. -/
def graftRate (s : State) (first : Nat) : Rat :=
  let lane : Rat := 112000000000 * 64 / 66
  (activeLanes (graftOf s first).txMap : Rat) * (if (laneOf s first).set.fec = 0 then lane else lane * 528 / 544)

/-- Its reliable rate at the round trip measured at link-up: at most 64 flits a round trip (R164). -/
def reliableRate (s : State) (first : Nat) : Rat :=
  let r := graftRate s first
  let t := (graftOf s first).roundTripPs
  let w : Rat := if t = 0 then r else 131072 * 10 ^ 12 / (t : Rat)
  if r < w then r else w

/-- The reliable rate of a side: its port's, and that of its auxiliary group (R278, R364). -/
def sideRate (s : State) (side : Nat) : Rat :=
  reliableRate s (sideFirst side) + (match auxGroup s side with
    | some f => if graftUp s f then reliableRate s f else 0
    | none => 0)

/-- Bytes a column of a crossing value; a region stream counts as LABEL's u16 (R278, Table 11.2). -/
def crossingBytes (p : Plan) (r : Ref) : Nat := if crossingRow p r = r then ceilDiv (fmtW (refFmt p.cut r)) 8 else 2

/-- Bytes a column that the outputs of TARGET's part return. -/
def returnedBytes (p : Plan) : Nat := sumBy (fun o => match o.ref with
  | .op k _ => if p.split ≤ k then ceilDiv (fmtW (refFmt p.cut o.ref)) 8 else 0
  | .src _ => 0) p.cut.outs

/-- Bit/s that a deepened graph puts on this device's port and takes from it. -/
def deepLoad (p : Plan) (out : Bool) : Rat :=
  let bytes := if out == (p.role == 1) then sumBy (crossingBytes p) (crossing p.cut p.split) else returnedBytes p
  p.rate * (p.cols * bytes * 8 : Nat)

/-- The side by which a deepened graph's peer is a neighbour on a formed trellis port. -/
def peerSide (s : State) (peer : Nat) : Option Nat :=
  if !(feature s 3 && formed s) then none
  else [0, 1].find? (fun side => neighbour s side == peer && peer != ownId s && graftUp s (sideFirst side))

/-- What a two-phase commit checks of a deepened binding on this device; CFG.COMMIT never accepts one. -/
def deepValidate (twoPhase : Bool) (s : State) (img : Image) (g : Nat) : Option Nat :=
  let b := bindCfg img g
  if !b.enable || b.role = 0 then none
  else if !twoPhase then some 0x47
  else match peerSide s b.peer with
    | none => some 0x47
    | some side =>
      let all := (plansOf img (List.range (g + 1))).1.filter (fun p => p.role != 0 && peerSide s p.peer == some side)
      let most := sideRate s side * 4 / 5
      let sum (out : Bool) : Rat := all.foldl (fun a p => a + deepLoad p out) 0
      if most < sum true || most < sum false then some 0x48 else none

/-! The whole image -/

/-- The settings that a configuration is judged by, ascending by command and object: its own, the placement and the grid of every
declared stream, and the tile budget of the HBM. (DEDUCED, log entry 30) -/
def candidates (img : Image) : List Nat :=
  let own : Tab Unit := img.map (fun e => (e.1, ()))
  let more := (declaredStreams img).foldl (fun t n => tput (tput t (settingKey 0x0701 n) ()) (settingKey 0x0802 (gridOf img n)) ()) own
  (tput (tput more (settingKey 0x0A01 0) ()) (settingKey 0x0700 0) ()).map (·.1)

/-- Why one setting of a configuration is refused, if it is. -/
def settingFails (twoPhase : Bool) (s : State) (img : Image) (code obj : Nat) : Option Nat :=
  let byChapter : Option Nat := match code / 256 with
    | 2 => laneValidate img code obj
    | 3 => if code = 0x0301 && feature s 5 && headOn img obj then some 0x49 else camValidate s.mbx.accepted img code obj
    | 4 => posValidate img code obj
    | 5 => if code = 0x0500 && cxpMaskBad img obj then some stBadArg else trigValidate img code obj
    | 6 => if code = 0x0601 then ptpValidate img obj else timeValidate img code obj
    | 7 => ingValidate s.cfg.active img code obj
    | 8 => ingValidate s.cfg.active img code obj
    | 9 =>
      let deep := if code = 0x0901 then deepValidate twoPhase s img obj else none
      if deep = some 0x47 then deep
      else match graphValidate s img code obj with
        | some r => some r
        | none => deep
    | 10 => rgnValidate img code obj
    | 11 => hostValidate s img code obj
    | _ => none
  match byChapter with
  | some r => some r
  | none => hbmValidate s img code obj

/-- The first offending setting, in ascending command and object, and its reason. -/
def validate (twoPhase : Bool) (s : State) : Option (Nat × Nat) :=
  let img := dropResets (nextImage s)
  (candidates img).findSome? (fun k => (settingFails twoPhase s img (k / 2 ^ 32) (k % 2 ^ 32)).map (fun r => (k, r)))

end Sys2Proof.Machine
end

