-- ==== Sys2Proof/Machine/Period.lean ====
section
/-! DEFINITION. Periods: STAT.SET_PERIOD, boundaries that fall due, the statistics latch and its snapshot (R55 to R59, R472). -/

namespace Sys2Proof.Machine

/-! STAT.SET_PERIOD (Table 2.18) -/

/-- The period setting: type 0 FRAME_COUNT, 1 POSITION, 2 TIME, 3 COIL. -/
structure PeriodCfg where
  type : Nat
  source : Nat
  interval : Nat
  deriving DecidableEq, Repr

/-- Read a STAT.SET_PERIOD payload. -/
def readPeriod (p : Bytes) : PeriodCfg := ⟨fld p 0 1, fld p 2 2, fld p 8 8⟩

/-- The period setting in force. -/
def periodCfg (s : State) : PeriodCfg := readPeriod s.stat.conf

/-- Reset value: TIME, 1 s (R55). -/
def periodReset : Bytes := leBytes 8 2 ++ leBytes 8 1000000000

/-- The checks of STAT.SET_PERIOD. -/
def periodCheck (_s : State) (p : Bytes) : Option Nat :=
  let c := readPeriod p
  let src := match c.type with
    | 0 => decide (c.source < 128)
    | 3 => decide (c.source % 32 < 24) && (c.source / 32 == 0 || c.source / 32 == 8)
    | _ => c.source == 0
  let int := match c.type with
    | 0 => decide (1 ≤ c.interval) && decide (c.interval < 2 ^ 32)
    | 1 => decide (1000000 ≤ c.interval) && decide (c.interval ≤ 2 ^ 62)
    | 2 => decide (1000000 ≤ c.interval) && decide (c.interval ≤ 3600000000000)
    | _ => c.interval == 0
  orBadArg (decide (c.type ≤ 3) && zeroRange p 1 1 && zeroRange p 4 4 && src && int)

/-- Row STAT_SET_PERIOD. -/
def execStatSetPeriod (io : HostIo) (s : State) : Host.Outcome State Fault Refusal :=
  done (serve { code := 0x0F00, len := some 16 } io (stage 0x0F00 (fun _ => 0) periodCheck) s)

/-! The snapshot (R57, R58) -/

/-- A counter as the snapshot bank shows it: SATURATED in bit 63. -/
def snapWord (v : Nat) : Nat := if v = counterTop then v + 2 ^ 63 else v

/-- The header of Table 2.19, complete. -/
def snapHeader (h : SnapHdr) : Bytes :=
  leBytes 8 h.number ++ leBytes 8 h.startDc ++ leBytes 8 h.endDc ++ leInt 8 h.startPos ++ leInt 8 h.endPos ++ leBytes 4 h.generation
    ++ leBytes 1 h.ptype ++ leBytes 1 h.cause ++ zeros 2 ++ leBytes 4 h.shortDigest ++ zeros 4 ++ leBytes 8 h.number

/-- The 4,096 counters of a family in the snapshot bank. -/
def snapFamily (s : State) (f : Nat) : Bytes := (List.range 4096).flatMap (fun i => leBytes 8 (snapWord (tget 0 s.stat.snap (f * 4096 + i))))

/-- The payload of a SNAPSHOT unit (Table 13.13). -/
def snapPayload (s : State) (select : Nat) : Bytes := snapHeader s.stat.hdr ++ (setBits 16 select).flatMap (snapFamily s)

/-- The snapshot goes to each SNAPSHOT route, one unit for each choice of families. (DEDUCED, log entry 33) -/
def handSnapshot (partialPeriod : Bool) (s : State) : State :=
  let selects := ((routesOf (posImage s)).filter (fun r => r.2.kind == 6)).map (fun r => r.2.select)
  let h := s.stat.hdr
  selects.eraseDups.foldl (fun t k => handUnit
    { src := ⟨6, 0, 0, k⟩, tagType := 5, flags := 16 * b2n partialPeriod, head := 0xFFFF, stream := 0xFFFF, generation := h.generation
      startPos := h.startPos, endPos := h.endPos, deviceCount := h.endDc, tvSelNs := tvAt s h.endDc, tvEpoch := tvEpochAt s h.endDc, paramSet := 0
      shortDigest := h.shortDigest, deviceId := tagDevice s, trellisId := tagTrellis s, payload := [.raw (snapPayload s k)] } t) s

/-! Closing a period -/

/-- Count the throttle time that the closing period has had. (DEDUCED, log entry 38) -/
def throttlePeriod (s : State) : State :=
  if s.fault.throttle then
    let ms := since s s.fault.throttleAt / 625000
    bumpBy 14 6 ms { s with fault := { s.fault with throttleAt := (s.fault.throttleAt + msTicks ms) % 2 ^ 64 } }
  else s

/-- Count the sprint time that the closing period has had. (DEDUCED, log entry 63) -/
def sprintPeriod (s : State) : State :=
  let x := s.fab.sprint
  if x.on then bumpBy 9 1281 (sprintMs s - x.counted) (setSprint { x with counted := sprintMs s } s) else s

/-- Close the period at a boundary: the latch, the snapshot, and what every chapter begins anew. `gen` and `digest` are those of the
rows before the boundary (R59). (DEDUCED, log entry 33) -/
def closePeriod (pos : Int) (cause : Nat) (scheduled : Bool) (gen digest : Nat) (s : State) : State :=
  let s0 := (List.range 8).foldl (fun t b => countHeld b t)
    (sprintPeriod (throttlePeriod (laneLatch (s.time.ptp.foldl (fun t e => announceExpire t e.1) s))))
  let x := s0.stat
  let ticks := ticksFrom x.startDc (dcNow s0)
  let h : SnapHdr := { number := x.number, startDc := x.startDc, endDc := dcNow s0, startPos := x.startPos, endPos := pos, generation := gen
                       ptype := (periodCfg s0).type, cause := cause, shortDigest := digest }
  let part := !(x.openScheduled && scheduled)
  let s1 := { s0 with stat := { x with
    snap := x.live, live := [], hdr := h, number := (x.number + 1) % 2 ^ 64, startDc := dcNow s0, startPos := pos, openScheduled := scheduled
    lastBoundary := dcNow s0 } }
  let s2 := hostPeriod (rgnPeriod ticks (graphPeriod pos h part ticks (ingPeriod ticks (lanePeriod s1))))
  let s3 := (List.range 48).foldl (fun t i => if (headOf t i).unsupRaised then modHead i (fun y => { y with unsupRaised := false }) t else t) s2
  handSnapshot part s3

/-- The generation and short_digest in force. -/
def genNow (s : State) : Nat := s.cfg.generation
def digestNow (s : State) : Nat := shortDigestOf s s.cfg.active

/-- A changed period setting takes effect with the boundary that it closes the running period at; the first TIME period of a setting
opens at a scheduled boundary, its origin (R56, R57). (DEDUCED, log entry 33) -/
def changePeriod (conf : Bytes) (pos : Int) (gen digest : Nat) (s : State) : State :=
  let s1 := closePeriod pos 2 false gen digest s
  { s1 with stat := { s1.stat with
    conf := conf, origin := dcNow s1, lattice := 0, frames := 0, due := [], openScheduled := (readPeriod conf).type == 2 } }

/-! Boundaries (R56) -/

/-- Whether a position row is in flight in any bed: a line has reached the device whose rows a bed has yet to emit.
(DEDUCED, log entry 33) -/
def rowInFlight (s : State) : Bool :=
  (s.ing.streams.any (fun e => !e.2.unread.isEmpty)) || s.ing.gates.any (fun e => match e.2 with | some g => g.clock.isSome | none => false)

/-- The boundaries that the row at `g` opens a period for. (DEDUCED, log entry 33) -/
def dueAt (s : State) (g : Int) : List DueBoundary := s.stat.due.filter (fun d => match d.from' with | some p => decide (p ≤ g) | none => true)

/-- The latch at the row at `g`, where a boundary is due there; several open one period, by the first. (DEDUCED, log entry 33) -/
def rowBoundary (g : Int) (gen digest : Nat) (s : State) : State := match dueAt s g with
  | [] => s
  | d :: _ =>
    closePeriod g d.cause d.scheduled gen digest { s with stat := { s.stat with
      due := s.stat.due.filter (fun d => match d.from' with | some p => !decide (p ≤ g) | none => false) } }

/-- Points of the lattice that have passed. -/
def latticePassed (s : State) : Nat :=
  let c := periodCfg s
  if c.interval = 0 then 0 else since s s.stat.origin * 8 / (5 * c.interval)

end Sys2Proof.Machine
end

