-- ==== Sys2Proof/Machine/Commit.lean ====
section
/-! DEFINITION. A commit from arming to completion: what switches at P_c, what switches bed by bed, and when a commit is applied or
missed (R42 to R52, R222, R242, R383, R471). -/

namespace Sys2Proof.Machine

/-! Arming -/

/-- The generation after one (R52). -/
def nextGeneration (g : Nat) : Nat := if g = 2 ^ 32 - 1 then 1 else g + 1

/-- The least commit position: what the strip may travel while the shadow copies are prepared, `us` µs, ahead of `p` (R45, R382).
(DEDUCED, log entry 32) -/
def leastPosition (p v : Int) (us : Nat) : Int := p + freeDiv (max v 0 * (us : Int)) 1000

/-- Arm a commit of the staged image; the graphs' slots are planned with it (R271). (DEDUCED, log entry 32) -/
def armCommit (boundary : Nat) (pc : Option Int) (stageUs : Nat) (prepared : Bool) (trellis : Option Nat) (s : State) : State :=
  let c : CommitRec := { applying := false, boundary := boundary, pc := pc, prepared := prepared, stageUs := stageUs
                         newGen := nextGeneration s.cfg.generation, armedAt := dcNow s, bedsLeft := [], unemitted := [], trellis := trellis }
  { s with
    cfg := { s.cfg with commit := some c }
    fab := { s.fab with fab := { s.fab.fab with planned := (admitGraphs s (dropResets (nextImage s))).slots } } }

/-! Streams and grids at a commit -/

/-- The beds that carry line streams. -/
def bedsCarrying (img : Image) : List Nat := (List.range 8).filter (fun b => !(bedStreams img b).isEmpty)

/-- The entries of a stream's column table as a bed loads them: those not loaded read as the reset entry (R239). -/
def tableWords (img : Image) (n : Nat) : List Nat := match streamCfg img n with
  | some c => (List.range (512 * tableGranules c.columns)).map (entryWord (streamTable img n))
  | none => []

/-- A stream begins again at the first line needed for a position: that line and every later one wait in the look-back buffer (R222).
(DEDUCED, log entry 55) -/
def restartStream (n : Nat) (img : Image) (g : Int) (s : State) : State :=
  let all := heldLines s n
  let before := all.filter (fun l => decide (stripPos img l ≤ g))
  let start := match before.getLast? with
    | some l => l.seq
    | none => 0
  let rest := (all.filter (fun l => decide (start ≤ l.seq))).map (·.seq)
  setStreamSt n { streamSt s n with
    unread := rest, inSlot := 0, lineA := none, lineB := none, st := if rest.isEmpty then (streamSt s n).st else 2
    catchUpSince := dcNow s } (if rest.isEmpty then s else ingCount n 10 s)

/-- A grid that has no gate yet, and whose members have lines, begins at its first position at or after P_c. -/
def openGate (k : Nat) (img : Image) (pc : Int) (s : State) : State := match gateOf s k, gridSet img k with
  | none, some gs =>
    if (gridMembers img k).any (fun n => (streamSt s n).newest.isSome) then
      setGate k (some (gateAt s k (latticeAtOrAfter gs.1 gs.2 pc) false)) s
    else s
  | _, _ => s

/-- The rows from P_c on follow a changed grid (Table 2.12): a gate that stands at or after P_c, with none of its beds switched, stands
at the new grid's first position. -/
def regrid (s : State) : State := match s.cfg.commit with
  | some c => match c.applying, c.pc with
    | true, some pc =>
      let old := s.cfg.active
      let new := nextImage s
      (List.range 192).foldl (fun t k => match gateOf t k, gridSet new k with
        | some g, some gs =>
          let beds := (gridMembers old k).filterMap (bedOf old)
          if gridSet old k != some gs && decide (pc ≤ g.g) && beds.all c.bedsLeft.contains then
            setGate k (some { g with g := latticeAtOrAfter gs.1 gs.2 pc, clock := clockOf t k (latticeAtOrAfter gs.1 gs.2 pc) }) t
          else t
        | _, _ => t) s
    | _, _ => s
  | none => s

/-- The streams of a bed whose column tables the bed must load again: with other entries, or not on the bed before (R242). -/
def reloads (old new : Image) (bed : Nat) : List Nat := (bedStreams new bed).filter (fun n =>
  bedOf old n != some bed || tableWords old n != tableWords new n)

/-- The streams that a commit moves, to another bed or another grid, and whose beds have all switched with this one: they begin again on
the new bed (R222). -/
def movedStreams (old new : Image) (bed : Nat) (left : List Nat) : List Nat := (declaredStreams new).filter (fun n =>
  match bedOf old n, bedOf new n with
  | some a, some b => (a == bed || b == bed) && (a != b || gridOf old n != gridOf new n) && !left.contains a && !left.contains b
  | _, _ => false)

/-- The lines that a bed holds of a stream lie where the geometry in force puts them (R233, R244, R46); where those then lie beyond the
gate's position the stream begins again at the first line needed. -/
def reposition (old new : Image) (n : Nat) (s : State) : State :=
  if downOffset old n = downOffset new n then s
  else
    let x := streamSt s n
    let put (b : BedLine) : BedLine := { b with pos := stripPos new b.line }
    let y := { x with lineA := x.lineA.map put, lineB := x.lineB.map put }
    match gateOf s (gridOf new n), (match y.lineA with | some a => some a | none => y.lineB) with
    | some g, some a => if g.g < a.pos then restartStream n new g.g s else setStreamSt n y s
    | _, _ => setStreamSt n y s

/-- A bed switches to the new configuration before its first row at or after P_c (R46, R222, R242). (DEDUCED, log entry 32) -/
def switchBed (bed : Nat) (s : State) : State := match s.cfg.commit with
  | none => s
  | some c =>
    let old := s.cfg.active
    let new := nextImage s
    let pc := c.pc.getD 0
    let mine := bedStreams new bed
    let stitches := (List.range 16).filter (fun t => (stitchCfg new t).enable && stitchBed new t == some bed)
    let left := c.bedsLeft.filter (· != bed)
    let moved := movedStreams old new bed left
    let s1 := { s with cfg := { s.cfg with commit := some { c with bedsLeft := left } } }
    let due := (bedSt s1 bed).reload.filter (fun n => bedOf new n == some bed)
    let s2 := setBed bed { bedSt s1 bed with
      reload := due ++ (reloads old new bed).filter (fun n => !due.contains n), changed := mine ++ stitches.map (· + 128) } s1
    let s3 := mine.foldl (fun t n => openGate (gridOf new n) new pc t) s2
    let s4 := (mine.filter (fun n => bedOf old n == some bed && !moved.contains n)).foldl (fun t n => reposition old new n t) s3
    moved.foldl (fun t n =>
      restartStream n new (match gateOf t (gridOf new n) with | some g => g.g | none => pc) t) s4

/-- Nothing of a stream that is no longer declared, and no gate without members, remains. -/
def dropUndeclared (s : State) : State :=
  let img := s.cfg.active
  let s1 := (List.range 128).foldl (fun t n => if (streamCfg img n).isNone then setStreamSt n {} t else t) s
  (List.range 192).foldl (fun t k => if (gridMembers img k).isEmpty then setGate k none t else t) s1

/-! Applying -/

/-- The parts that act on position switch: channels, units, rules, views, lanes, heads, camera schedules, furrow settings (R46). -/
def switchPositionParts (s : State) : State :=
  let old := s.cfg.active
  let new := nextImage s
  let st := s.cfg.staged
  hostCommit st (ingCommit old new st (camCommit old new (laneCommit old new st (timeCommit old new st (trigCommit old new st
    (posCommit old new st s))))))

/-- The commit's row closes the period when the commit changes STAT.SET_PERIOD (R56). -/
def switchPeriod (pos : Int) (gen digest : Nat) (s : State) : State :=
  let conf := settingIn (nextImage s) 0x0F00 0 periodReset
  if conf = s.stat.conf then s else changePeriod conf pos gen digest s

/-- A trellis member reports the outcome of a commit (R381). -/
def reportApplied (id : Nat) (s : State) : State :=
  reportOutcome id 0 (bump 12 12 (setTrel { s.trel with diverged := false, phase := 3, commitId := id } s))

/-- The commit completes: the staged configuration is active under its generation (R46, R52). (DEDUCED, log entry 32) -/
def completeCommit (s : State) : State := match s.cfg.commit with
  | none => s
  | some c =>
    let new := dropResets (nextImage s)
    let s1 := graphCommit s.cfg.active new s
    let s2 := dropUndeclared { s1 with cfg := { s1.cfg with
      previous := s1.cfg.active, older := tput s1.cfg.older s1.cfg.generation s1.cfg.active, active := new, generation := c.newGen, staged := [], commit := none } }
    let s3 := raise 0x0001 0 c.newGen (c.pc.getD 0) 0 s2
    match c.trellis with
    | some id => reportApplied id s3
    | none => s3

/-- Complete a commit when every bed that carries line streams has emitted its first row at or after P_c (R46). -/
def settleCommit (s : State) : State := match s.cfg.commit with
  | some c => if c.applying && c.unemitted.isEmpty then completeCommit s else s
  | none => s

/-- A bed that carried no stream takes up streams that no other bed gives up: it has no row of the old configuration to make. -/
def startsEmpty (old new : Image) (bed : Nat) : Bool :=
  (bedStreams old bed).isEmpty && (bedStreams new bed).all (fun n => (streamCfg old n).isNone)

/-- The commit becomes APPLYING at a position, prepared as it is. (DEDUCED, log entry 32) -/
def applyCommit (pc : Int) (s : State) : State := match s.cfg.commit with
  | none => s
  | some c =>
    let old := s.cfg.active
    let new := nextImage s
    let left := (List.range 8).filter (fun b => !(bedStreams old b).isEmpty || !(bedStreams new b).isEmpty)
    let s1 := switchPositionParts { s with cfg := { s.cfg with commit := some { c with
      applying := true, pc := some pc, bedsLeft := left, unemitted := bedsCarrying new } } }
    let s2 := (left.filter (startsEmpty old new)).foldl (fun t b => switchBed b t) s1
    let s3 := if (bedsCarrying new).isEmpty then switchPeriod pc (genNow s) (digestNow s) s2 else s2
    settleCommit (regrid s3)

/-- The master position has reached P_c: the commit is APPLYING, or missed when preparation is incomplete (R46, R49).
(DEDUCED, log entry 32) -/
def reachCommit (pc : Int) (s : State) : State := match s.cfg.commit with
  | none => s
  | some c => if c.applying then s else if c.prepared then applyCommit pc s
    else missCommit { s with fab := { s.fab with fab := { s.fab.fab with planned := [] } } }

/-- Whether the commit waits for the first period boundary after its preparation (Table 2.12). -/
def waitsForPeriod (s : State) : Bool := match s.cfg.commit with
  | some c => c.boundary == 3 && !c.applying && c.prepared
  | none => false

/-- A boundary falls due: with no row in flight it is the event itself, else the row that opens the next period (R56). -/
def boundary (cause : Nat) (scheduled : Bool) (start : Option Int) (s : State) : State :=
  if rowInFlight s then { s with stat := { s.stat with due := s.stat.due ++ [⟨cause, scheduled, start⟩] } }
  else
    let gen := genNow s
    let digest := digestNow s
    let p := s.pos.sp.pos
    let n := s.stat.number
    let s1 := if waitsForPeriod s then applyCommit p s else s
    if s1.stat.number = n then closePeriod p cause scheduled gen digest s1 else s1

/-! Direct commands of the CFG family -/

/-- COMMIT.STATE of Table 2.14. -/
def commitState (s : State) : Nat := match s.cfg.commit with
  | some c => if c.applying then 3 else 2
  | none => if s.cfg.staged.isEmpty then 0 else 1

/-- P_c as a response shows it. -/
def shownPosition (c : CommitRec) : Bytes := match c.pc with
  | some p => leInt 8 p
  | none => leBytes 8 (2 ^ 63)

/-- CFG.STATUS (Table 2.14). (DEDUCED, log entry 31) -/
def cfgStatus (s : State) : Bytes :=
  leBytes 4 s.cfg.generation ++ leBytes 1 (commitState s) ++ leBytes 1 (match s.cfg.commit with | some c => c.boundary | none => 0)
    ++ leBytes 2 s.cfg.staged.length ++ (match s.cfg.commit with | some c => shownPosition c | none => zeros 8)
    ++ leBytes 4 (stageTime s) ++ zeros 4 ++ sha256 (canonImage s.mbx.accepted s.cfg.active) ++ sha256 (stagedCanon s)

/-- Row CFG_STATUS. -/
def execCfgStatus (io : HostIo) (s : State) : Host.Outcome State Fault Refusal :=
  done (serve { code := 0x0100, len := some 0 } io (query (fun _ _ => none) (fun s _ => cfgStatus s)) s)

/-- Check 1 of R471. -/
def commitArgs (s : State) (p : Bytes) : Bool :=
  let b := fld p 0 1
  let n := fld p 4 4
  decide (b ≤ 3) && zeroRange p 1 3 && zeroRange p 20 4 && (b == 2 || zeroRange p 8 8)
    && (if b = 1 then decide (n < 128) && (streamCfg s.cfg.active n).isSome && (gridSet s.cfg.active (gridOf s.cfg.active n)).isSome else n == 0)

/-- P_c of a boundary (Table 2.12), given the least commit position. -/
def commitPosition (s : State) (p : Bytes) (pmin : Int) : Option Int := match fld p 0 1 with
  | 0 => some pmin
  | 1 => match gridSet s.cfg.active (gridOf s.cfg.active (fld p 4 4)) with
    | some g => some (latticeAtOrAfter g.1 g.2 pmin)
    | none => some pmin
  | 2 => some (sfld p 8 8)
  | _ => none

/-- The response of VALIDATION_FAILED (R43): the offender's command, reason and object. (DEDUCED, log entry 30) -/
def offender (k reason : Nat) : Bytes := leBytes 2 (k / 2 ^ 32) ++ leBytes 2 reason ++ leBytes 4 (k % 2 ^ 32) ++ zeros 4

/-- CFG.COMMIT (R43 to R47, R51, R471). (DEDUCED, log entry 18) -/
def cfgCommit (s : State) (_q : Req) (p : Bytes) : Reply :=
  if !commitArgs s p then reply stBadArg s
  else if s.cfg.commit.isSome then reply stBusy s
  else if feature s 3 && formed s then reply 0x42 s
  else if fld p 16 4 ≠ s.cfg.generation then reply 0x41 s
  else if s.cfg.staged.isEmpty then reply 0x44 s
  else match validate false s with
    | some (k, r) => ⟨0x40, offender k r, 0, s⟩
    | none =>
      let us := stageTime s
      let pmin := leastPosition s.pos.sp.pos (spinSpeed s) (us + 100)
      let pc := commitPosition s p pmin
      if fld p 0 1 = 2 && (decide (sfld p 8 8 < pmin) || decide (sfld p 8 8 ≤ s.trig.high)) then reply stBehind s
      else
        let s1 := armCommit (fld p 0 1) pc us false none s
        replyOk (leBytes 4 (nextGeneration s.cfg.generation) ++ leBytes 4 us ++ (match pc with | some v => leInt 8 v | none => leBytes 8 (2 ^ 63))
          ++ sha256 (stagedCanon s)) s1

/-- Row CFG_COMMIT. -/
def execCfgCommit (io : HostIo) (s : State) : Host.Outcome State Fault Refusal :=
  done (serve { code := 0x0101, len := some 24 } io cfgCommit s)

/-- Disarm: the image stays staged. -/
def disarm (s : State) : State := { s with
  cfg := { s.cfg with commit := none }, fab := { s.fab with fab := { s.fab.fab with planned := [] } } }

/-- CFG.CANCEL (R50). A device that cancels a trellis commit is not armed when its position reaches P_c: it is diverged then (R383). -/
def cfgCancel (s : State) (_q : Req) (_p : Bytes) : Reply := match s.cfg.commit with
  | none => reply stBadState s
  | some c =>
    if c.applying then reply 0x43 s
    else
      let t := disarm s
      reply stOk (match c.trellis, c.pc with
        | some id, some pc => setTrel { t.trel with cancelled := some (id, pc) } t
        | _, _ => t)

/-- Row CFG_CANCEL. -/
def execCfgCancel (io : HostIo) (s : State) : Host.Outcome State Fault Refusal :=
  done (serve { code := 0x0102, len := some 0 } io cfgCancel s)

/-- CFG.DISCARD. -/
def cfgDiscard (s : State) (_q : Req) (_p : Bytes) : Reply :=
  if clocheBusy s then reply stBusy s else reply stOk { s with cfg := { s.cfg with staged := [] } }

/-- Row CFG_DISCARD. -/
def execCfgDiscard (io : HostIo) (s : State) : Host.Outcome State Fault Refusal :=
  done (serve { code := 0x0103, len := some 0 } io cfgDiscard s)

/-- CFG.READ_IMAGE (R473). (DEDUCED, log entry 31) -/
def readImage (s : State) (q : Req) (p : Bytes) : Reply :=
  if !(respIndirect q.flags && decide (fld p 0 1 ≤ 1) && zeroRange p 1 7) then reply stBadArg s
  else replyOk (if fld p 0 1 = 0 then canonImage s.mbx.accepted s.cfg.active else stagedCanon s) s

/-- Row CFG_READ_IMAGE. -/
def execCfgReadImage (io : HostIo) (s : State) : Host.Outcome State Fault Refusal :=
  done (serve { code := 0x0104, len := some 8 } io readImage s)

/-- Row STAT_LATCH_NOW: the period closes at the next position-row boundary, or at once with no row in flight (R56). -/
def execStatLatchNow (io : HostIo) (s : State) : Host.Outcome State Fault Refusal :=
  done (serve { code := 0x0F01, len := some 0 } io
    (fun s _ _ => replyOk (leBytes 8 s.stat.number) (boundary 1 false none s)) s)

/-! Events of a commit and of periods -/

/-- Row COMMIT_PREPARATION_DONE: every shadow copy of the armed commit, or of the PREPARE that is held, is ready (R45, R381). -/
def execCommitPreparationDone (s : State) : Host.Outcome State Fault Refusal :=
  done (if s.start.w1Running then s else match s.cfg.commit with
    | some c => if c.applying then s else { s with cfg := { s.cfg with commit := some { c with prepared := true } } }
    | none => match s.trel.prep with
      | some x => setTrel { s.trel with prep := some { x with prepared := true } } s
      | none => s)

/-- Row COMMIT_IDLE_APPLY (R48). -/
def execCommitIdleApply (s : State) : Host.Outcome State Fault Refusal :=
  done (match s.cfg.commit with
    | some c =>
      if c.boundary = 0 && c.trellis.isNone && !c.applying && c.prepared && decide (msTicks 10 ≤ since s s.pos.sp.movedAt)
        && !rowInFlight s then
        let pc := c.pc.getD s.pos.sp.pos
        let s1 := applyCommit pc s
        match s1.cfg.commit with
          | some d =>
            let s2 := d.bedsLeft.foldl (fun t b => switchBed b t) (switchPeriod pc (genNow s) (digestNow s) s1)
            settleCommit { s2 with cfg := { s2.cfg with commit := s2.cfg.commit.map (fun x => { x with unemitted := [] }) } }
          | none => s1
      else s
    | none => s)

/-- Row TIME_LATTICE_POINT: the device counter has passed a point of the lattice (R56). -/
def execTimeLatticePoint (s : State) : Host.Outcome State Fault Refusal :=
  done (let k := latticePassed s
    if (periodCfg s).type = 2 && decide (s.stat.lattice < k) then boundary 0 true none { s with stat := { s.stat with lattice := k } } else s)

/-- The POSITION boundaries of a spindle update: every multiple that the position reaches above the high-water mark, ascending (R56).
(DEDUCED, log entry 33) -/
def positionBoundaries (s : State) : State :=
  let c := periodCfg s
  if c.type ≠ 1 || c.interval = 0 then s
  else
    let i : Int := (c.interval : Int)
    let k0 := s.trig.high / i
    let n := (s.pos.sp.pos / i - k0).toNat
    if n = 0 then s
    else if rowInFlight s then (List.range n).foldl (fun t (j : Nat) => boundary 0 true (some ((k0 + 1 + (j : Int)) * i)) t) s
    else boundary 0 true (some ((k0 + 1) * i)) s

/-- The position reaches the P_c of a trellis commit that CFG.CANCEL disarmed here (R383). -/
def cancelledAt (s : State) : State := match s.trel.cancelled with
  | some (id, pc) => if pc ≤ s.pos.sp.pos then divergeCommit id pc (setTrel { s.trel with cancelled := none } s) else s
  | none => s

/-- The commit's position is reached by a position that has advanced. -/
def commitAt (s : State) : State := match s.cfg.commit with
  | some c => match c.pc with
    | some pc => if !c.applying && decide (pc ≤ s.pos.sp.pos) then reachCommit pc s else s
    | none => s
  | none => s

/-- The stations of a coordinated commit: this device's position less each one's offset in an estate, or the position itself (R378). -/
def stationPositions (estate : Bool) (s : State) : List Int :=
  if !estate then [s.pos.sp.pos]
  else (List.range 16).filterMap (fun n => (stationOffset s.cfg.active n).map (fun o => s.pos.sp.pos - o))

/-- A coordinator notes that the first station has reached P_c, and when the last one has (R381, R384). -/
def coordPassed (s : State) : State := match s.trel.coord with
  | some t => match t.pc with
    | some pc =>
      let ps := stationPositions t.estate s
      setTrel { s.trel with coord := some { t with
        reached := t.reached || ps.any (fun p => decide (pc ≤ p))
        passedAt := if t.passedAt.isNone && ps.all (fun p => decide (pc ≤ p)) then some (dcNow s) else t.passedAt } } s
    | none => s
  | none => s

/-- Row SPINDLE_UPDATE: the spindle takes the position that its counts, or in a trellis the master's samples, give; a commit
or a POSITION boundary that it reaches comes about, and H follows it (R74, R46, R56, R88, R369). H comes last, so that the units that a
commit changes cross, in this tick, from the mark of the tick before (R89). (DEDUCED, log entries 42 and 43) -/
def execSpindleUpdate (s : State) : Host.Outcome State Fault Refusal :=
  done (
    let old := s.pos.sp.pos
    let s1 := if s.trel.st == tsIsolated || followsTrellis s then trelUpdate s
      else modSpin (fun q => { q with pos := spinNew s }) s
    if old < s1.pos.sp.pos then
      raiseHigh (positionBoundaries (commitAt (cancelledAt (coordPassed (modSpin (fun q => { q with movedAt := dcNow s1 }) s1)))))
    else if s1.pos.sp.pos < old && followsTrellis s1 then actCut s1
    else s1)

/-- Row GP_INPUT_EDGE: a new filtered level; a COIL edge makes a boundary due unless it follows the last by less than 1 ms (R56,
R83). R56 does not say which time of the edge the 1 ms is measured to: here the tick of its acceptance, not the time that R61 gives it.
(DESIGN CHOICE, log entry 81) -/
def execGpInputEdge (gp : Nat) (level : Bool) (tick : Nat) (s : State) : Host.Outcome State Fault Refusal :=
  done (
    let was := (tget {} s.pos.gps gp).level
    if !filterPassed s (gpCfg (posImage s) gp).filterN tick then s else
    let s1 := gpSetLevel gp level tick s
    let c := periodCfg s
    let falling := decide (c.source / 256 % 2 = 1)
    if 24 ≤ gp || was == level || c.type ≠ 3 || c.source % 32 ≠ gp || level == falling then s1
    else if since s s.stat.lastBoundary < msTicks 1 then bump 15 0 s1
    else boundary 0 true none s1)

/-- After a line of a stream: the first line of the frame that completes the count of FRAME_COUNT makes a boundary due (R56). `seq` is the
line_seq that the line has if it was written. -/
def countFrame (stream : Nat) (first : Bool) (seq : Nat) (s : State) : State :=
  let c := periodCfg s
  if c.type ≠ 0 || c.source ≠ stream || !first then s
  else if s.stat.frames + 1 < c.interval then { s with stat := { s.stat with frames := s.stat.frames + 1 } }
  else
    let start := (lbLine s seq).bind (fun l => if l.stream = stream && l.pos.isSome then some (stripPos (posImage s) l) else none)
    boundary 0 true start { s with stat := { s.stat with frames := 0 } }

/-- Row LINE_COMPLETE: the next line of a stream enters ingest, in time for a gate that expired in the same tick (R206, R226). -/
def execLineComplete (stream : Nat) (s : State) : Host.Outcome State Fault Refusal :=
  done (
    let first := !s.fault.stop && (match streamSet s stream with
      | some k => match nextReady s stream k with
        | some b => b.lines == 0
        | none => false
      | none => false)
    countFrame stream first s.ing.lb.nextSeq (admitSameTick stream (lineComplete stream s)))

/-! BED_ROW_EMIT -/

/-- Whether a bed is to switch before its row at `g`. -/
def bedSwitches (s : State) (bed : Nat) (g : Int) : Bool := match s.cfg.commit with
  | some c => c.applying && c.bedsLeft.contains bed && (match c.pc with | some pc => decide (pc ≤ g) | none => false)
  | none => false

/-- Whether a row at `g` of a bed belongs to the configuration that is being applied. -/
def rowIsNew (s : State) (bed : Nat) (g : Int) : Bool := match s.cfg.commit with
  | some c => c.applying && !(c.bedsLeft.contains bed) && (match c.pc with | some pc => decide (pc ≤ g) | none => false)
  | none => false

/-- What happens at the boundary before the row at `g` of a bed, in the order of R19: the clock follows the thermal step, a commit
switches, the period is latched. -/
def beforeRow (bed : Nat) (g : Int) (newPosition : Bool) (s : State) : State :=
  let gen := genNow s
  let digest := digestNow s
  let n := s.stat.number
  let s1 := if newPosition then clockChange s else s
  let opens := newPosition && !(dueAt s1 g).isEmpty
  let s2 := if opens && waitsForPeriod s1 then applyCommit g s1 else s1
  let s3 := if bedSwitches s2 bed g then switchBed bed s2 else s2
  let s4 := if rowIsNew s3 bed g then switchPeriod g gen digest s3 else s3
  if opens && s4.stat.number = n then rowBoundary g gen digest s4 else s4

/-- The rows that a bed has made, as it releases them: generation and config-changed on each stream's first row after a commit. -/
def releaseRows (bed : Nat) (rows : List Row) (s : State) : List Row × State :=
  let b := bedSt s bed
  let mark (r : Row) : Row := { r with
    generation := bedGeneration s bed, flags := if b.changed.contains r.stream then r.flags ||| 128 else r.flags }
  (rows.map mark, setBed bed { b with changed := b.changed.filter (fun n => !(rows.any (fun r => r.stream == n))) } s)

/-- A bed has emitted the row at `g`. -/
def noteEmitted (bed : Nat) (g : Int) (s : State) : State :=
  if rowIsNew s bed g then
    { s with cfg := { s.cfg with commit := s.cfg.commit.map (fun c => { c with unemitted := c.unemitted.filter (· != bed) }) } }
  else s

/-- A bed's tiles do not take the rows of a grid that are ready, or have taken them. -/
def noteHeld (bed k : Nat) (held : Bool) (s : State) : State :=
  let b := bedSt s bed
  if held then
    if b.heldGrids.contains k then s
    else setBed bed { b with
      heldGrids := k :: b.heldGrids, heldAt := some (b.heldAt.getD (dcNow s))
      heldCounted := if b.heldAt.isNone then dcNow s else b.heldCounted } s
  else if !b.heldGrids.contains k then s
  else
    let left := b.heldGrids.filter (· != k)
    let s1 := countHeld bed s
    if left.isEmpty then setBed bed { bedSt s1 bed with heldGrids := [], heldAt := none } s1
    else setBed bed { bedSt s1 bed with heldGrids := left } s1

/-- The work of BED_ROW_EMIT. A bed that is to switch, and then lacks lines for its row, has switched and waits for them. In thermal STOP no gate opens (R425). -/
def bedRowEmit (bed k : Nat) (s : State) : State := if s.fault.stop then s else match gateOf s k with
  | none => s
  | some gate =>
    let g := gate.g
    let ready (t : State) : Bool := rowsReady t bed k && graphsAccept t (bedImage t bed) (bedMembers t bed k)
    let s1 := beforeRow bed g gate.beds.isEmpty s
    if ready s1 then
      let r := buildRows bed k s1
      let out := releaseRows bed r.1 r.2
      let img := bedImage s1 bed
      let s2 := noteHeld bed k false (giveRows img (bedGeneration s1 bed) (shortDigestOf s1 (dropResets img)) out.1 out.2)
      settleCommit (regrid (gateAfterEmit bed k (noteEmitted bed g s2)))
    else if bedSwitches s bed g && (ready s || (bedStreams s.cfg.active bed).isEmpty) then
      let s2 := switchBed bed s
      settleCommit (if (membersOf s2 k).isEmpty then setGate k none s2 else s2)
    else if rowsReady s bed k then noteHeld bed k true s
    else s

/-- Row BED_ROW_EMIT (R230). `refetch` column-cache entries were found uncorrectable and fetched again before use (R242). -/
def execBedRowEmit (bed grid refetch : Nat) (s : State) : Host.Outcome State Fault Refusal :=
  done (bedRowEmit bed grid (bumpBy 8 (1088 + bed * 4 + 2) refetch s))

end Sys2Proof.Machine
end

