-- ==== Sys2Proof/Machine/TrelCommit.lean ====
section
/-! DEFINITION. Two-phase commits of a trellis or estate, the digest sweep, and the TREL commands (R365, R376, R378, R380 to R386). -/

namespace Sys2Proof.Machine

/-! The members of a commit and the way of its messages -/

/-- Whether this device coordinates: a trellis's master, or an estate's manager. -/
def coordinates (s : State) : Bool := s.trel.st == tsMaster || s.trel.st == tsManager

/-- The members that a coordinator reckons with: the formed ring, or on a manager the devices of the estate's stations that it has heard of
and that have not stayed silent for three sweeps. (DEDUCED, log entry 70) -/
def coordMembers (s : State) : List Nat :=
  if s.trel.st = tsManager then
    (s.trel.members.filter (fun e => decide (e.2.silent < 3) && (stationOffset s.cfg.active (e.1 / 16)).isSome)).map (·.1)
  else setBits 16 s.trel.ring

/-- Where a member's station stands on the strip, as the coordinator sees it. -/
def memberPosition (s : State) (k : Nat) : Int :=
  if s.trel.st = tsManager then s.pos.sp.pos - (stationOffset s.cfg.active (k / 16)).getD 0 else s.pos.sp.pos

/-- How far a spur's device holds the master role, as a manager knows it: its last claim, else its MASTER strap. -/
def spurRank (s : State) (l : Nat) : Nat := match (linkOf s l).claim with
  | some e => e + 2
  | none => match (linkOf s l).trellis, (linkOf s l).partner with
    | some t, some d => b2n ((memberOf s (t * 16 + d)).strap == 2)
    | _, _ => 0

/-- The spur of a trellis that a manager uses: that of the device that holds the master role (R377). (DESIGN CHOICE, log entry 113) -/
def spurTo (s : State) (t : Nat) : Option Nat :=
  ((spursUp s).filter (fun l => (linkOf s l).trellis == some t)).foldl (fun best l => match best with
    | none => some l
    | some m => if spurRank s m < spurRank s l then some l else some m) none

/-- The spur in use of every trellis. -/
def spursInUse (s : State) : List Nat := (List.range 16).filterMap (spurTo s)

/-- A coordinator sends a message to one member, or to every member. -/
def sendDown (msg : Nat) (only : Option Nat) (id : Nat) (body : Bytes) (s : State) : State :=
  if s.trel.st = tsManager then match only with
    | none => sendOver (spursInUse s) msg 0xFF 1 id body s
    | some k => sendOver (spurTo s (k / 16)).toList msg (k % 16) 1 id body s
  else match only with
    | none => sendRing msg 0xFF 0 id body s
    | some k => if k = ownId s then s else sendRing msg k 0 id body s

/-- A coordinator's message at a member. A master takes what a manager sends over its spurs on into the ring (R381). -/
def downward (first msg : Nat) (act : Ctl → State → State) (s : State) : State := onControl first msg (fun c t =>
  if !formed t then t
  else if c.side = 2 then
    (if c.scope ≠ 1 then t
     else if c.dst = 0xFF then act c (sendRing msg 0xFF 1 c.id c.body t)
     else if c.dst = ownId t then act c t
     else sendRing msg c.dst 1 c.id c.body t)
  else if c.src = t.trel.master then act c t else t) s

/-- A member's answer at its coordinator; a master passes on over its spurs what answers a manager. -/
def takeAnswer (msg : Nat) (act : Nat → Ctl → State → State) (c : Ctl) (t : State) : State :=
  if t.trel.st = tsManager then (match (linkOf t c.first).trellis with
    | some n => if c.side = 2 && c.scope == 1 then act (n * 16 + c.src) c t else t
    | none => t)
  else if t.trel.st ≠ tsMaster || c.side = 2 then t
  else if c.scope = 1 then (spursUp t).foldl (fun u l => flitTo l 5 (controlBytes msg c.src 0xFF 1 c.id c.body) u) t
  else act c.src c t

/-- The answer that a group's oldest CONTROL flit is. -/
def upward (first msg : Nat) (act : Nat → Ctl → State → State) (s : State) : State := onControl first msg (takeAnswer msg act) s

/-! Members: PREPARE, COMMIT, ABORT (R381, R383, R384) -/

/-- ARMED at the coordinator. -/
def takeArmed (k id : Nat) (s : State) : State := match s.trel.coord with
  | some t => if t.id = id && t.members.contains k && !t.armed.contains k then
      setTrel { s.trel with coord := some { t with armed := k :: t.armed } } s
    else s
  | none => s

/-- Report ARMED with the generation that the commit will have. -/
def reportArmed (scope id generation : Nat) (s : State) : State :=
  if scope = 0 && s.trel.st == tsMaster then takeArmed (ownId s) id s else sendAnswer 8 scope id (leBytes 4 generation) s

/-- COMMIT at a member: the image that its PREPARE validated is armed at P_c. One whose P has already reached P_c is missed.
(DEDUCED, log entry 70) -/
def takeCommit (id scope : Nat) (pc : Int) (s : State) : State := match s.cfg.commit, s.trel.prep with
  | some c, _ => if c.trellis = some id then reportArmed scope id c.newGen s else s
  | none, some x =>
    if x.id ≠ id || !x.ok then s
    else
      let s1 := setTrel { s.trel with prep := none, phase := 2, commitId := id, commitPc := pc, scope := scope } s
      let s2 := armCommit 2 (some pc) x.stageUs x.prepared (some id) s1
      if pc ≤ s.pos.sp.pos then missCommit { s2 with fab := { s2.fab with fab := { s2.fab.fab with planned := [] } } }
      else reportArmed scope id (nextGeneration s.cfg.generation) s2
  | none, none => s

/-- ABORT at a member: the PREPARE is let go, or the commit that it armed is disarmed. -/
def takeAbort (id : Nat) (s : State) : State :=
  let s1 := match s.trel.prep with
    | some x => if x.id = id then setTrel { s.trel with prep := none, phase := 5 } s else s
    | none => s
  match s1.cfg.commit with
  | some c => if c.trellis = some id && !c.applying then disarm (setTrel { s1.trel with phase := 5 } s1) else s1
  | none => if s1.trel.cancelled.any (fun e => e.1 == id) then setTrel { s1.trel with phase := 5, cancelled := none } s1 else s1

/-- What a device answers to PREPARE: its validation as CFG.COMMIT does it, peer checks included, and that a requested position lies
above its H (R382). A commit of its own that is armed makes it busy. -/
def prepareAnswer (boundary : Nat) (position : Int) (s : State) : Prepared :=
  if clocheBusy s then ⟨stBusy, 0, stBusy, 0, 0⟩
  else match validate true s with
    | some (k, r) => ⟨0x40, k / 2 ^ 32, r, k % 2 ^ 32, stageTime s⟩
    | none => if boundary = 2 && decide (position ≤ s.trig.high) then ⟨stBehind, 0, stBehind, 0, stageTime s⟩ else ⟨stOk, 0, 0, 0, stageTime s⟩

/-- The body of PREPARED. (DESIGN CHOICE, log entry 71) -/
def preparedBytes (a : Prepared) (digest : Bytes) : Bytes :=
  leBytes 2 a.status ++ leBytes 2 a.command ++ leBytes 2 a.reason ++ leBytes 4 a.object ++ leBytes 4 a.stageUs ++ digest

/-- PREPARE at a device: it validates, begins to prepare, and closes its Cloche. -/
def holdPrepare (id scope src boundary : Nat) (position : Int) (s : State) : Prepared × State :=
  let a := prepareAnswer boundary position s
  if clocheBusy s then (a, s)
  else (a, setTrel { s.trel with
    prep := some { id := id, src := src, since := dcNow s, stageUs := a.stageUs, ok := a.status == stOk }, phase := 1, commitId := id
    scope := scope } s)

/-! The coordinator (R381, R382) -/

/-- A coordinator ends a commit before it is armed everywhere: ABORT to every member, its own device among them. -/
def coordAbort (status : Nat) (result : Bytes) (s : State) : State := match s.trel.coord with
  | none => s
  | some t =>
    let s1 := sendDown 9 t.only t.id [] s
    coordEnd status result (if t.members.contains (ownId s) then takeAbort t.id s1 else s1)

/-- COMMIT_REFUSED's result: the device, its command, reason and object. (DEDUCED, log entry 70; DESIGN CHOICE, log entry 71) -/
def refusedBytes (s : State) (k : Nat) (a : Prepared) : Bytes :=
  leBytes 1 (memberName s k).1 ++ leBytes 1 (memberName s k).2 ++ leBytes 2 a.command ++ leBytes 2 a.reason ++ zeros 2 ++ leBytes 4 a.object

/-- The last PREPARED has arrived: P_c is fixed and COMMIT goes out. (DEDUCED, log entry 70) -/
def coordFix (t : TwoPhase) (s : State) : State :=
  let stage := t.answers.foldl (fun m e => max m e.2.stageUs) 0
  let p := match t.only with
    | some k => memberPosition s k
    | none => (t.members.map (memberPosition s)).foldl max (match t.members with | k :: _ => memberPosition s k | [] => s.pos.sp.pos)
  let pmin := leastPosition p (spinSpeed s) (2 * stage + 2000)
  let pc := if t.boundary = 2 then t.position else pmin
  if pc < pmin then coordAbort stBehind [] s
  else
    let own := !(s.trel.st == tsManager) && t.members.contains (ownId s)
    let s1 := setTrel { s.trel with
      coord := some { t with pc := some pc, repeatAt := dcNow s }, commitId := t.id, commitPc := pc, phase := if own then s.trel.phase else 2 } s
    let s2 := sendDown 7 t.only t.id (leInt 8 pc) s1
    coordPassed (if own then takeCommit t.id 0 pc s2 else s2)

/-- PREPARED at the coordinator. -/
def takePrepared (k id : Nat) (a : Prepared) (s : State) : State := match s.trel.coord with
  | none => s
  | some t =>
    if t.id ≠ id || !t.members.contains k || t.pc.isSome then s
    else
      let u := { t with answers := tput t.answers k a }
      let s1 := setTrel { s.trel with coord := some u } s
      if a.status = stBehind then coordAbort stBehind [] s1
      else if a.status ≠ stOk then coordAbort 0x42 (refusedBytes s k a) s1
      else if u.answers.length = u.members.length then coordFix u s1 else s1

/-- A coordinator begins a commit of its members: PREPARE. (DEDUCED, log entry 70) -/
def coordStart (ticket : Nat) (estate : Bool) (boundary : Nat) (position : Int) (only : Option Nat) (s : State) : State :=
  let id := s.trel.nextCommit
  let members := match only with | some k => [k] | none => coordMembers s
  let t : TwoPhase :=
    { id := id, ticket := some ticket, estate := estate, boundary := boundary, position := position, only := only, startedAt := dcNow s
      members := members, answers := [], pc := none, repeatAt := dcNow s, armed := [], applied := [], missed := [], reached := false
      passedAt := none }
  let s1 := setTrel { s.trel with coord := some t, nextCommit := if id = 2 ^ 32 - 1 then 1 else id + 1, commitId := id, phase := 1 } s
  let s2 := sendDown 5 only id (leBytes 1 boundary ++ leInt 8 position) s1
  if members.isEmpty then coordFix t s2
  else if s.trel.st == tsMaster && members.contains (ownId s) then
    let r := holdPrepare id 0 (ownId s) boundary position s2
    takePrepared (ownId s) id r.1 r.2
  else s2

/-! Rows of the two-phase commit -/

/-- Whether a PREPARE has been held or armed already: in a closed ring it comes over both ports. -/
def preparedFor (id src : Nat) (s : State) : Bool :=
  (match s.trel.prep with | some x => x.id == id && x.src == src | none => false)
    || (match s.cfg.commit with | some c => c.trellis == some id | none => false)

/-- Row PREPARE. -/
def execPrepare (first : Nat) (s : State) : Host.Outcome State Fault Refusal :=
  done (downward first 5 (fun c t => if t.start.w1Running || preparedFor c.id c.src t then t else
    let r := holdPrepare c.id c.scope c.src (fld c.body 0 1) (sfld c.body 1 8) t
    sendAnswer 6 c.scope c.id (preparedBytes r.1 (sha256 (stagedCanon t))) r.2) s)

/-- Row PREPARED. -/
def execPrepared (first : Nat) (s : State) : Host.Outcome State Fault Refusal :=
  done (upward first 6 (fun k c t =>
    takePrepared k c.id ⟨fld c.body 0 2, fld c.body 2 2, fld c.body 4 2, fld c.body 6 4, fld c.body 10 4⟩ t) s)

/-- Row PREPARE_TIMEOUT: a member has not answered within 20 ms. -/
def execPrepareTimeout (s : State) : Host.Outcome State Fault Refusal :=
  done (match s.trel.coord with
    | some t => match t.members.find? (fun k => (tfind t.answers k).isNone) with
      | some k => if t.pc.isNone && decide (msTicks 20 ≤ since s t.startedAt) then
          coordAbort 0x42 (refusedBytes s k ⟨stTimeout, 0, stTimeout, 0, 0⟩) s
        else s
      | none => s
    | none => s)

/-- Row COMMIT. -/
def execCommit (first : Nat) (s : State) : Host.Outcome State Fault Refusal :=
  done (downward first 7 (fun c t => takeCommit c.id c.scope (sfld c.body 0 8) t) s)

/-- Row COMMIT_REPEAT: every 1 ms to each member that has not armed, until its P comes within L of P_c. -/
def execCommitRepeat (s : State) : Host.Outcome State Fault Refusal :=
  done (match s.trel.coord with
    | some t => match t.pc with
      | some pc =>
        if since s t.repeatAt < msTicks 1 then s
        else
          let near (k : Nat) : Bool := decide ((pc : Rat) ≤ (memberPosition s k : Rat) + travelOver (max (spinSpeed s) 0) (lagTicks s))
          let left := t.members.filter (fun k => !t.armed.contains k && !t.applied.contains k && !t.missed.contains k && !near k)
          left.foldl (fun u k => sendDown 7 (some k) t.id (leInt 8 pc) u) (setTrel { s.trel with coord := some { t with repeatAt := dcNow s } } s)
      | none => s
    | none => s)

/-- Row ARMED. -/
def execArmed (first : Nat) (s : State) : Host.Outcome State Fault Refusal := done (upward first 8 (fun k c t => takeArmed k c.id t) s)

/-- Row ABORT. -/
def execAbort (first : Nat) (s : State) : Host.Outcome State Fault Refusal := done (downward first 9 (fun c t => takeAbort c.id t) s)

/-- Row PREPARE_HOLD_EXPIRY: a PREPARE held for 100 ms without COMMIT or ABORT is let go (R384). -/
def execPrepareHoldExpiry (s : State) : Host.Outcome State Fault Refusal :=
  done (match s.trel.prep with
    | some x => if msTicks 100 ≤ since s x.since then setTrel { s.trel with prep := none, phase := 5 } s else s
    | none => s)

/-- Row APPLIED: at the coordinator, and at the peers of the sender's deepened graphs. -/
def execApplied (first : Nat) (s : State) : Host.Outcome State Fault Refusal :=
  done (onControl first 10 (fun c t =>
    let u := takeAnswer 10 (fun k c t => takeApplied k c.id (fld c.body 0 4) (fld c.body 4 1) t) c t
    if c.side = 2 || !formed t || (t.trel.st == tsMaster && c.scope != 1) then u else noteOutcome c.src (fld c.body 4 1) u) s)

/-- Row COMMIT_PARTIAL_TIMEOUT: 100 ms after the last station's P has passed P_c, the ticket ends with the members that are missing. -/
def execCommitPartialTimeout (s : State) : Host.Outcome State Fault Refusal :=
  done (match s.trel.coord with
    | some t => match t.passedAt with
      | some u =>
        if since s u < msTicks 100 then s
        else
          let left := t.members.filter (fun k => !t.applied.contains k)
          coordEnd 0x43 (partialBytes s t) (left.foldl (fun v k => setMember k { memberOf v k with diverged := true } v) s)
      | none => s
    | none => s)

/-! The digest sweep (R385) -/

/-- DIGEST_MISMATCH, once until the device has agreed in between. -/
def raiseMismatch (k : Nat) (s : State) : State :=
  let m := memberOf s k
  if m.mismatch then s
  else
    let n := memberName s k
    raise 0x0A0A 3 (n.1 + n.2 * 256) m.generation 0 (bump 12 14 (setMember k { m with mismatch := true } s))

/-- A device's DIGEST at the coordinator. -/
def takeDigest (k roleKey generation cstate : Nat) (digest : Bytes) (s : State) : State :=
  let compared := roleKey != 0xFFFF && cstate != 2 && cstate != 3
  let agrees := !compared || (tget [] s.trel.expected roleKey).contains digest
  let m := memberOf s k
  let s1 := setMember k { m with
    roleKey := roleKey, generation := generation, commitState := cstate, digest := digest, silent := 0, agrees := agrees
    mismatch := m.mismatch && !(compared && agrees) } s
  let s2 := setTrel { s1.trel with answered := k :: s1.trel.answered.filter (· != k) } s1
  if agrees then s2 else raiseMismatch k s2

/-- The body of this device's DIGEST. (DESIGN CHOICE, log entry 71) -/
def digestBody (s : State) : Bytes :=
  leBytes 2 (match s.trel.identity with | some i => i.roleKey | none => 0xFFFF) ++ leBytes 4 s.cfg.generation ++ leBytes 1 (commitState s)
    ++ sha256 (canonImage s.mbx.accepted s.cfg.active)

/-- Take the fields of a DIGEST body. -/
def readDigest (k : Nat) (b : Bytes) (s : State) : State := takeDigest k (fld b 0 2) (fld b 2 4) (fld b 6 1) ((b.drop 7).take 32) s

/-- The members that a sweep expects to hear from: lost and silent ones too. (DEDUCED, log entry 70) -/
def sweepMembers (s : State) : List Nat :=
  if s.trel.st = tsManager then (s.trel.members.filter (fun e => (stationOffset s.cfg.active (e.1 / 16)).isSome)).map (·.1)
  else (List.range (ringSize s)).filter (fun d => bitOf s.trel.ring d || (tfind s.trel.members d).isSome)

/-- The sweep before is over: what it found, and who has now been silent for three. -/
def closeSweep (s : State) : State :=
  let entry (k : Nat) : SweepEntry := let m := memberOf s k; ⟨k, m.roleKey, m.commitState, m.agrees, m.generation, m.digest⟩
  let heard := s.trel.answered
  let s1 := setTrel { s.trel with lastSweep := ((sweepMembers s).filter heard.contains).map entry } s
  ((sweepMembers s).filter (fun k => !heard.contains k)).foldl (fun t k =>
    let m := memberOf t k
    let u := setMember k { m with silent := m.silent + 1, agrees := m.agrees && decide (m.silent + 1 < 3) } t
    if m.silent + 1 = 3 then raiseMismatch k u else u) s1

/-- DIGEST_SWEEP: every 100 ms the manager, or the master of a trellis outside an estate, asks. -/
def digestSweep (s : State) : State :=
  let due := match s.trel.sweepAt with
    | some t => decide (msTicks 100 ≤ since s t)
    | none => true
  if !due || !coordinates s || s.trel.attached then s
  else
    let s1 := if s.trel.sweepAt.isSome then closeSweep s else s
    let n := s.trel.sweep + 1
    let s2 := sendDown 11 none 0 (leBytes 4 n) (setTrel { s1.trel with sweep := n, sweepAt := some (dcNow s), answered := [] } s1)
    if s.trel.st = tsMaster then readDigest (ownId s) (digestBody s2) s2 else s2

/-- Row DIGEST_SWEEP. -/
def execDigestSweep (s : State) : Host.Outcome State Fault Refusal := done (digestSweep s)

/-- Row DIGEST_REQ. -/
def execDigestReq (first : Nat) (s : State) : Host.Outcome State Fault Refusal :=
  done (downward first 11 (fun c t => sendAnswer 12 c.scope 0 (digestBody t) t) s)

/-- Row DIGEST. -/
def execDigest (first : Nat) (s : State) : Host.Outcome State Fault Refusal := done (upward first 12 (fun k c t => readDigest k c.body t) s)

/-! TREL commands (Tables 14.10 to 14.13) -/

/-- NOT_FORMED, then NOT_COORDINATOR unless the device holds a role (R386). -/
def needsRole (holds : State → Bool) (s : State) : Option Nat :=
  if s.trel.st = tsAlone || s.trel.st = tsJoining then some 0x41 else if holds s then none else some 0x40

/-- Whether this device is a trellis's master. -/
def isMaster (s : State) : Bool := s.trel.st == tsMaster

/-- Row TREL_SET_STATION (R378). -/
def execTrelSetStation (io : HostIo) (s : State) : Host.Outcome State Fault Refusal :=
  done (serve { code := 0x0C00, needs := some 5, len := some 16 } io (stage 0x0C00 (fun p => fld p 0 1) (fun _ p =>
    orBadArg (fieldsOk p [⟨0, 1, 0, 15, false⟩, ⟨1, 1, 0, 1, false⟩, ⟨8, 8, -(2 ^ 50), 2 ^ 50, true⟩] [(2, 6)]))) s)

/-- Whether an identity is in range; a manager's names no trellis, device or ring. -/
def identityOk (s : State) (p : Bytes) : Bool :=
  let aux (v : Nat) : Bool := decide (v ≤ 11) || v == 0xFF
  fieldsOk p [⟨0, 1, 0, 15, false⟩, ⟨1, 1, 0, 15, false⟩, ⟨2, 1, 1, 16, false⟩, ⟨3, 1, 0, 1, false⟩] []
    && aux (fld p 12 1) && aux (fld p 13 1) && (fld p 14 2 == 0 || (decide (100 ≤ fld p 14 2) && decide (fld p 14 2 ≤ 10000)))
    && (!feature s 5 || (fld p 0 1 == 0 && fld p 1 1 == 0 && fld p 2 1 == 1))

/-- TREL.SET_IDENTITY (R365). (DEDUCED, log entry 70) -/
def setIdentity (s : State) (_q : Req) (p : Bytes) : Reply :=
  if !identityOk s p then reply stBadArg s
  else if formed s then reply 0x45 s
  else
    let i : Identity :=
      ⟨fld p 0 1, fld p 1 1, fld p 2 1, bitOf (fld p 3 1) 0, fld p 4 2, sfld p 6 2, sfld p 8 2, sfld p 10 2, fld p 12 1, fld p 13 1, fld p 14 2⟩
    reply stOk (joinTrellis (setTrel { s.trel with identity := some i } s))

/-- Row TREL_SET_IDENTITY. -/
def execTrelSetIdentity (io : HostIo) (s : State) : Host.Outcome State Fault Refusal :=
  done (serve { code := 0x0C10, needs := some 3, len := some 16 } io setIdentity s)

/-- TREL.GET_STATUS (Table 14.13). -/
def trelStatus (s : State) : Bytes :=
  let x := s.trel
  leBytes 1 x.st ++ leBytes 1 x.master ++ leBytes 2 x.epoch ++ leBytes 2 x.ring ++ zeros 2
    ++ leBytes 4 (b2n x.posStale + 2 * b2n x.detached + 4 * b2n x.diverged + 8 * b2n (x.absorb != 0 || x.estateAbsorb != 0)
      + 16 * b2n (x.broken != 0))
    ++ leBytes 4 (lagWire x.lag) ++ leBytes 4 x.commitId ++ leBytes 1 x.phase ++ zeros 3 ++ leInt 8 x.commitPc
    ++ leInt 8 (if x.absorb = 0 then x.estateAbsorb else x.absorb) ++ leInt 4 x.stationSlip ++ zeros 20

/-- Row TREL_GET_STATUS. -/
def execTrelGetStatus (io : HostIo) (s : State) : Host.Outcome State Fault Refusal :=
  done (serve { code := 0x0C11, needs := some 3, len := some 0 } io (query (fun _ _ => none) (fun s _ => trelStatus s)) s)

/-- The member that a request names, when there is such a one. -/
def namedMember (s : State) (p : Bytes) : Option Nat :=
  let t := fld p 0 1
  let d := fld p 1 1
  if s.trel.st = tsManager then (if t < 16 && d < 16 && (tfind s.trel.members (t * 16 + d)).isSome then some (t * 16 + d) else none)
  else match s.trel.identity with
    | some i => if t = i.trellis && d < ringSize s then some d else none
    | none => none

/-- Whether a member holds the master role, as this coordinator knows it. -/
def holdsRole (s : State) (k : Nat) : Bool :=
  if s.trel.st = tsManager then (match spurTo s (k / 16) with
    | some l => (linkOf s l).partner == some (k % 16)
    | none => false)
  else k == s.trel.master

/-- TREL.GET_MEMBER (Table 14.13). No message tells a coordinator that a device is ISOLATED: it shows as MEMBER until it is LOST. A manager
has no ring and shows path 0. (DEDUCED, log entry 70) -/
def memberBytes (s : State) (k : Nat) : Bytes :=
  let own := s.trel.st != tsManager && k == ownId s
  let m := memberOf s k
  let there := s.trel.st == tsManager || bitOf s.trel.ring k
  let st := if !there || m.lost then 0xFF else if holdsRole s k then tsMaster else tsMember
  let hops (side : Nat) : Nat := if own then 0 else if s.trel.st != tsManager && reachable s side k then hopsTo s side k else 0xFF
  let heard := match m.heardEast, m.heardWest with
    | some a, some b => if ticksFrom a b < 2 ^ 63 then b else a
    | some a, none => a
    | none, some b => b
    | none, none => 0
  let digest := if own then sha256 (canonImage s.mbx.accepted s.cfg.active) else m.digest
  leBytes 1 st ++ leBytes 1 (hops 0) ++ leBytes 1 (hops 1) ++ leBytes 1 (if s.trel.st = tsManager then 0 else sideTo s k)
    ++ leBytes 4 (if own then delayPs s 48 else m.delayEast) ++ leBytes 4 (if own then delayPs s 56 else m.delayWest)
    ++ leBytes 4 (if own then s.cfg.generation else m.generation) ++ fitTo 4 digest
    ++ leBytes 2 (if own then (match s.trel.identity with | some i => i.roleKey | none => 0xFFFF) else m.roleKey) ++ zeros 2
    ++ leBytes 8 (if own then dcNow s else heard) ++ zeros 16

/-- Row TREL_GET_MEMBER. -/
def execTrelGetMember (io : HostIo) (s : State) : Host.Outcome State Fault Refusal :=
  done (serve { code := 0x0C12, needs := some 3, len := some 8 } io (fun s _ p =>
    if !zeroRange p 2 6 then reply stBadArg s
    else match needsRole coordinates s with
      | some e => reply e s
      | none => match namedMember s p with
        | some k => replyOk (memberBytes s k) s
        | none => reply stBadArg s) s)

/-- TREL.COMMIT (R381). -/
def trelCommit (s : State) (q : Req) (p : Bytes) : Reply :=
  let b := fld p 0 1
  let scope := fld p 1 1
  if !((b == 0 || b == 2) && decide (scope ≤ 1) && zeroRange p 2 6 && (b == 2 || zeroRange p 8 8)) then reply stBadArg s
  else match needsRole (fun s => s.trel.st == (if scope = 1 then tsManager else tsMaster)) s with
    | some e => reply e s
    | none => if s.trel.coord.isSome then reply stBusy s
      else issueTicket q p (fun n t => coordStart n (scope == 1) b (sfld p 8 8) none t) s

/-- Row TREL_COMMIT. -/
def execTrelCommit (io : HostIo) (s : State) : Host.Outcome State Fault Refusal :=
  done (serve { code := 0x0C13, needs := some 3, len := some 16 } io trelCommit s)

/-- TREL.ABORT (R384): the commit's ticket ends with every member as one that has not applied. After a commit that has reached P_c it is too
late, the commit over or not. (DEDUCED, log entry 70) -/
def trelAbort (s : State) (_q : Req) (_p : Bytes) : Reply := match needsRole coordinates s with
  | some e => reply e s
  | none => match s.trel.coord with
    | none => reply (if s.trel.phase = 3 || s.trel.phase = 4 then 0x44 else stBadState) s
    | some t => if t.reached then reply 0x44 s else reply stOk (coordAbort 0x43 (partialBytes s t) s)

/-- Row TREL_ABORT. -/
def execTrelAbort (io : HostIo) (s : State) : Host.Outcome State Fault Refusal :=
  done (serve { code := 0x0C14, needs := some 3, len := some 0 } io trelAbort s)

/-- TREL.RESYNC (R383): the procedure again for one diverged device. -/
def trelResync (s : State) (q : Req) (p : Bytes) : Reply :=
  if !zeroRange p 2 6 then reply stBadArg s
  else match needsRole coordinates s with
    | some e => reply e s
    | none => match namedMember s p with
      | none => reply stBadArg s
      | some k =>
        let own := s.trel.st == tsMaster && k == ownId s
        if !(if own then s.trel.diverged else (memberOf s k).diverged) then reply 0x46 s
        else if s.trel.coord.isSome then reply stBusy s
        else issueTicket q p (fun n t => coordStart n (s.trel.st == tsManager) 0 0 (some k) t) s

/-- Row TREL_RESYNC. -/
def execTrelResync (io : HostIo) (s : State) : Host.Outcome State Fault Refusal :=
  done (serve { code := 0x0C15, needs := some 3, len := some 8 } io trelResync s)

/-- TREL.HANDOVER (R376). `healthy` is whether the named deputy's master channel works, which no message of the ring tells. -/
def trelHandover (healthy : Bool) (s : State) (_q : Req) (p : Bytes) : Reply :=
  let d := fld p 0 1
  if !zeroRange p 1 7 then reply stBadArg s
  else match needsRole isMaster s with
    | some e => reply e s
    | none =>
      let m := memberOf s d
      let ok := d != ownId s && bitOf s.trel.ring d && !m.lost && (m.strap == 1 || m.strap == 2) && (reachable s 0 d || reachable s 1 d) && healthy
      if ok then reply stOk (sendRing 4 d 0 0 (leBytes 1 d) s) else reply 0x47 s

/-- Row TREL_HANDOVER. -/
def execTrelHandover (io : HostIo) (healthy : Bool) (s : State) : Host.Outcome State Fault Refusal :=
  done (serve { code := 0x0C16, needs := some 3, len := some 8 } io (trelHandover healthy) s)

/-- TREL.REATTACH (R380): the next sample of the estate attaches the trellis again. -/
def trelReattach (s : State) (_q : Req) (_p : Bytes) : Reply := match needsRole isMaster s with
  | some e => reply e s
  | none => if s.trel.detached then reply stOk (setTrel { s.trel with reattach := true } s) else reply 0x48 s

/-- Row TREL_REATTACH. -/
def execTrelReattach (io : HostIo) (s : State) : Host.Outcome State Fault Refusal :=
  done (serve { code := 0x0C17, needs := some 3, len := some 0 } io trelReattach s)

/-- TREL.SET_EXPECTED (R385). -/
def setExpected (s : State) (_q : Req) (p : Bytes) : Reply :=
  let n := fld p 2 1
  if !(decide (fld p 0 2 ≠ 0xFFFF) && decide (n ≤ 2) && zeroRange p 3 5 && zeroRange p (8 + 32 * n) (64 - 32 * n)) then reply stBadArg s
  else match needsRole coordinates s with
    | some e => reply e s
    | none => reply stOk (setTrel { s.trel with
        expected := tset [] s.trel.expected (fld p 0 2) ((List.range n).map (fun j => (p.drop (8 + 32 * j)).take 32)) } s)

/-- Row TREL_SET_EXPECTED. -/
def execTrelSetExpected (io : HostIo) (s : State) : Host.Outcome State Fault Refusal :=
  done (serve { code := 0x0C18, needs := some 3, len := some 72 } io setExpected s)

/-- One entry of TREL.GET_DIGESTS. -/
def sweepEntryBytes (s : State) (e : SweepEntry) : Bytes :=
  let n := memberName s e.member
  leBytes 1 n.1 ++ leBytes 1 n.2 ++ leBytes 2 e.roleKey ++ leBytes 1 e.commitState ++ leBytes 1 (b2n e.agrees) ++ zeros 2 ++ leBytes 4 e.generation
    ++ zeros 4 ++ fitTo 32 e.digest

/-- TREL.GET_DIGESTS. -/
def getDigests (s : State) (q : Req) (_p : Bytes) : Reply :=
  if !respIndirect q.flags then reply stBadArg s
  else match needsRole coordinates s with
    | some e => reply e s
    | none => replyOk (s.trel.lastSweep.map (sweepEntryBytes s)).flatten s

/-- Row TREL_GET_DIGESTS. -/
def execTrelGetDigests (io : HostIo) (s : State) : Host.Outcome State Fault Refusal :=
  done (serve { code := 0x0C19, needs := some 3, len := some 0 } io getDigests s)

end Sys2Proof.Machine
end

