-- ==== Sys2Proof/Machine/Deepen.lean ====
section
/-! DEFINITION. Deepened graphs on their way between two devices: units cut into flits, flits taken or relayed, what TARGET computes with and
what ORIGIN delivers (R276, R277, R374, R375), and the rows of a graph. -/

namespace Sys2Proof.Machine

/-! Units that leave (Table 14.6) -/

/-- A unit as flit payloads of at most 228 bytes of data. -/
def unitFlits (g kind index : Nat) (pos : Int) (b : Bytes) : List Bytes :=
  let n := max 1 (ceilDiv b.length 228)
  (List.range n).map (fun (j : Nat) =>
    leBytes 1 g ++ leBytes 1 kind ++ leBytes 1 index ++ leBytes 1 (b2n (j == 0) + 2 * b2n (j + 1 == n)) ++ leBytes 4 (228 * j) ++ leInt 8 pos
      ++ (b.drop (228 * j)).take 228)

/-- The side that leads to a peer, and whether it is the other way round the ring, for the failure of the link that joins the two (R375). -/
def peerSideNow (s : State) (peer : Nat) : Nat × Bool :=
  match [0, 1].find? (fun side => neighbour s side == peer && graftUp s (sideFirst side)) with
  | some side => (side, false)
  | none => (if graftUp s 48 then 0 else 1, true)

/-- Send what a graph has for its peer. (DESIGN CHOICE, log entry 64) -/
def sendOutbound (g : Nat) (s : State) : State :=
  let x := graphOf s g
  match x.run with
  | none => if x.outbound.isEmpty then s else setGraph g { x with outbound := [] } s
  | some run =>
    let way := peerSideNow s run.plan.peer
    let first := dataGroup s way.1 g
    let flits := x.outbound.flatMap (fun u => (unitFlits g u.2.1 u.2.2.1 u.2.2.2.1 u.2.2.2.2).map (fun b => (⟨u.1, b⟩ : Flit)))
    flits.foldl (fun v f => sendFlit first f v)
      (setGraph g { x with outbound := [] } (if way.2 then bumpBy 12 15 flits.length s else s))

/-- Send what every graph has for its peer. -/
def sendAllOutbound (s : State) : State := (s.fab.graphs.map (·.1)).foldl (fun t g => sendOutbound g t) s

/-! Units that arrive -/

/-- A crossing value: the tag of its row, then its values (R277). -/
def readFwd (c : Cut) (index : Nat) (b : Bytes) : Fwd :=
  let ref : Ref := if 128 ≤ index then .src (index - 128) else .op index 0
  let lab := match ref with
    | .op k _ => match c.ops[k]? with | some o => if o.id = opLabel then o.ins.head? else none | none => none
    | .src _ => none
  let f := refFmt c (lab.getD ref)
  let w := containerOf f
  let v := b.drop 64
  { index := index
    meta0 := ⟨sfld b 0x10 8, 0, fld b 0x0A 2, fld b 8 2, fld b 0x0C 4, fld b 0x34 4, fld b 0x32 2, [fld b 0x32 2], fld b 0x20 8, 0⟩
    endG := sfld b 0x18 8, flags := fld b 3 1
    px := (unpackBits w (v.length * 8 / w) v).map (fun n => if fmtSigned f then signedOf w n else (n : Int)) }

/-- The row outputs that TARGET makes, as output records. -/
def targetRows (p : Plan) : List Nat := (List.range p.cut.outs.length).filter (fun i => match p.cut.outs[i]? with
  | some o => o.kind != 2 && (match o.ref with | .src _ => false | .op k _ => decide (p.split ≤ k))
  | none => false)

/-- The positions that still wait for results: those that some row output of TARGET has not yet returned (R375). -/
def stillOut (p : Plan) (sent : List (Nat × Int × Nat)) (l : List Int) : List Int :=
  let rows := targetRows p
  l.filter (fun q => rows.any (fun i => !sent.any (fun e => e.1 == i && decide (q ≤ e.2.1))))

/-- An output row that TARGET returned, as ORIGIN delivers it under its own device_id (R277); one that it has had already is dropped, one
that differs is delivered again (R270). -/
def takeReturned (g num : Nat) (b : Bytes) (s : State) : State := match (graphOf s g).run with
  | none => s
  | some run =>
    let p := run.plan
    match (List.range p.cut.outs.length).find? (fun i => match p.cut.outs[i]? with | some o => o.num == num | none => false) with
    | none => s
    | some i => match p.cut.outs[i]? with
      | none => s
      | some o =>
        let g0 := sfld b 0x10 8
        let f := refFmt p.cut o.ref
        let w := containerOf f
        let v := b.drop 64
        let g1 := sfld b 0x18 8
        let sets := (run.ops.metas.filter (fun m => decide (g0 ≤ m.g) && decide (m.g ≤ g1))).reverse.map (·.params)
        let period := (run.closed.find? (fun c => c.2.1.endPos == g1)).map (·.2.1)
        let dc := if o.kind = 0 then fld b 0x20 8 else match (if o.kind = 2 then period else none) with
          | some h => h.endDc
          | none => dcNow s
        let histo := match o.ref with
          | .op k _ => (match p.cut.ops[k]? with | some q => q.id == opHistogram | none => false)
          | .src _ => false
        let payload : Chunk := if histo then .raw v
          else .pix (fmtW f) w (fmtSigned f) ((unpackBits w (v.length * 8 / w) v).map (fun n => if fmtSigned f then signedOf w n else (n : Int)))
        let crc := crc32c v
        let old := run.sent.find? (fun e => e.1 == i && e.2.1 == g0)
        let gen := if o.kind = 2 then (match period with | some h => h.generation | none => s.cfg.generation) else originGeneration s g g0
        let u : DUnit :=
          { src := ⟨if o.kind = 1 then 4 else if o.kind = 2 then 5 else 1, g, o.num, 0⟩
            tagType := if o.kind = 1 then 4 else if o.kind = 2 then 5 else 1, flags := fld b 3 1 ||| (if old.isSome then 8 else 0)
            head := fld b 8 2, stream := fld b 0x0A 2, generation := gen, startPos := g0, endPos := g1
            deviceCount := dc, tvSelNs := tvAt s dc, tvEpoch := tvEpochAt s dc, paramSet := fld b 0x32 2, shortDigest := fld b 0x34 4, deviceId := tagDevice s
            trellisId := tagTrellis s, params := if sets.isEmpty then [[fld b 0x32 2]] else sets, again := old.isSome
            payload := [payload] }
        match old with
        | some e => if e.2.2 = crc then s else
            bump 9 (g * 16 + 3) (handUnit u (setRun g { run with
              sent := noteSent i g0 crc run.sent } s))
        | none =>
          if beyondSent i g0 run.sent then s
          else
            let sent := noteSent i g0 crc run.sent
            let s1 := setRun g { run with sent := sent } s
            handUnit u (setGraph g { graphOf s1 g with unreturned := stillOut p sent (graphOf s1 g).unreturned } s1)

/-- TARGET asks for a re-run: ORIGIN re-runs its part from that row and forwards again (R277). -/
def askedRerun (g : Nat) (pos : Int) (s : State) : State :=
  let x := graphOf s g
  match x.run with
  | none => s
  | some run =>
    let r : Rerun :=
      { restart := pos, tile := 0, slot := 0, engine := 0, code := 0, last := run.lastG.getD pos, clipped := 0, since := dcNow s, quiet := true }
    match x.rerun with
    | some old => if old.reroute || pos < old.restart then setGraph g { x with rerun := some { (if old.reroute then r else old) with
          restart := min pos old.restart } } s
      else s
    | none => setGraph g { x with rerun := some r } s

/-- A whole unit for this device: a crossing value at TARGET, a result at ORIGIN. Values of a re-run take the place of those that still
wait. -/
def takeUnit (g type kind index : Nat) (pos : Int) (b : Bytes) (s : State) : State :=
  if type = 3 then match cutOf (settingIn (fwdPlace s g (fld b 0x0C 4) (sfld b 0x18 8)).1 0x0900 g []) with
    | some c =>
      let u := readFwd c index b
      let kept := (graphOf s g).fwd.filter (fun w => !(bitOf u.flags 3 && w.index == index
        && (decide (u.meta0.g < w.meta0.g) || (w.meta0.g == u.meta0.g && !bitOf w.flags 3))))
      setGraph g { graphOf s g with fwd := kept ++ [u] } s
    | none => s
  else if kind = 1 then takeReturned g index b s
  else if kind = 2 then
    let t := takeRecord g b s
    match (graphOf t g).run with
    | some run => if (targetRows run.plan).isEmpty then
        setGraph g { graphOf t g with unreturned := (graphOf t g).unreturned.filter (fun q => decide (pos < q)) } t else t
    | none => t
  else askedRerun g pos s

/-- Whether a unit's kind is one that Table 14.6 defines. -/
def kindKnown (type kind : Nat) : Bool := if type = 3 then kind == 0 else decide (1 ≤ kind) && decide (kind ≤ 3)

/-- A piece of a unit for this device. -/
def takePiece (type : Nat) (b : Bytes) (s : State) : State :=
  let g := fld b 0 1
  let kind := fld b 1 1
  let index := fld b 2 1
  let pos := sfld b 8 8
  let key := type * 65536 + kind * 256 + index
  let data := b.drop 16
  let x := graphOf s g
  let rest := x.parts.filter (fun e => !(e.1 == key && e.2.1 == pos))
  let had : Option Bytes := if bitOf (fld b 3 1) 0 then some [] else (x.parts.find? (fun e => e.1 == key && e.2.1 == pos)).map (·.2.2)
  match had with
  | none => s
  | some h =>
    if fld b 4 4 ≠ h.length then setGraph g { x with parts := rest } s
    else if bitOf (fld b 3 1) 1 then takeUnit g type kind index pos (h ++ data) (setGraph g { x with parts := rest } s)
    else setGraph g { x with parts := (key, pos, h ++ data) :: rest } s

/-- A ROW_DATA or RESULT flit (R374, R375): a reserved kind is discarded and counted; a unit of a graph that is not this device's goes on
round the ring. -/
def dataFlit (first type : Nat) (b : Bytes) (s : State) : State :=
  let g := fld b 0 1
  let bound (img : Image) : Bool := (bindCfg img g).enable && (bindCfg img g).role == (if type = 3 then 2 else 1)
  let mine := bound (targetPlace s (sfld b 8 8)).1 || bound s.cfg.active || (s.cfg.commit.isSome && bound (nextImage s))
  if !kindKnown type (fld b 1 1) || 64 ≤ g then bump 12 7 s
  else if mine then takePiece type b s
  else if dataSide s first = 2 then s
  else sendFlit (dataGroup s (1 - dataSide s first) g) ⟨type, b⟩ s

/-- What a flit that no row of its own awaits does on arrival: units of deepened graphs, and CONTROL messages that are reserved. -/
def arrivedFlits (first : Nat) (s : State) : State :=
  let g := graftOf s first
  let now (f : Flit) : Bool := f.kind == 3 || f.kind == 4 || (f.kind == 5 && (fld f.payload 0 1 == 0 || decide (12 < fld f.payload 0 1)))
  let s1 := setGraft first { g with inbox := g.inbox.filter (fun f => !now f) } s
  (g.inbox.filter now).foldl (fun t f => if f.kind = 5 then bump 12 7 t else dataFlit first f.kind f.payload t) s1

/-- Row FLIT_RX: the CRC, then the map, the acknowledgement, a NAK, and the flit itself; the answer goes in the next
outgoing flit (R161 to R163, R168). (DESIGN CHOICE, log entry 49) -/
def execFlitRx (first : Nat) (data : Bytes) (s : State) : Host.Outcome State Fault Refusal :=
  done (
    let g := graftOf s first
    if (laneOf s first).set.mode != modeGraft || g.rxMap = 0 then s
    else
      let b := fitTo 256 data
      let k := 1024 + first * 8
      if fld b 252 4 != crc32 (b.take 252) then putFlit first 0 ⟨0, []⟩ (setGraft first { g with nak := true } (bump 2 (k + 2) s))
      else
        let partner := fld b 4 1
        let f : Flit := ⟨fld b 0 1, (b.drop 8).take (min 244 (fld b 6 2))⟩
        let here (t : State) : State := match (linkOf t first).partner with
          | some d => markHeard (sideOf first) d t
          | none => t
        let s1 := here <| setGraft first { g with
          partnerMap := partner
          emptySince := if partner = 0 then (match g.emptySince with | some t => some t | none => some (dcNow s)) else none }
          (bump 2 (k + 1) s)
        let s2 := takeAck first (fld b 3 1) (if partner = 0 then s1 else followMap first partner s1)
        let s3 := if bitOf (fld b 1 1) 1 && !(graftOf s2 first).held.isEmpty then
          replayFrom first (graftOf s2 first).held s2 else s2
        let s4 := if bitOf (fld b 1 1) 0 then takeSequenced first (fld b 2 1) f s3 else takePayload first f s3
        if bitOf (fld b 1 1) 0 || (graftOf s4 first).nak then arrivedFlits first (putFlit first 0 ⟨0, []⟩ s4) else arrivedFlits first s4)

/-! Rows of a graph -/

/-- Row GRAPH_ROW: a graph takes its next grid position, or on TARGET its next crossing value; `upsets` are the wrong values that a faulty
engine delivers in its place (R260, R267). -/
def execGraphRow (graph : Nat) (upsets : List Upset) (s : State) : Host.Outcome State Fault Refusal :=
  done (sendAllOutbound (graphRow graph upsets s))

/-- Row REGION_CLOSE. (DESIGN CHOICE, log entry 61) -/
def execRegionClose (s : State) : Host.Outcome State Fault Refusal := done (sendAllOutbound (regionClose s))

/-- Row RERUN_COMPLETE (R269, R270). -/
def execRerunComplete (graph : Nat) (s : State) : Host.Outcome State Fault Refusal := done (sendAllOutbound (rerunComplete graph s))

end Sys2Proof.Machine
end

