-- ==== Sys2Proof/Machine/Cal.lean ====
section
/-! DEFINITION. Self-calibration and trims (R18, R21, R408 to R418). -/

namespace Sys2Proof.Machine

/-- The place of a target's counters (R418). -/
def calBase (k : Nat) : Nat :=
  let i := k % 256
  match k / 256 with
  | 0 => i * 4
  | 1 => 256 + i * 4
  | 2 => 320 + i * 4
  | 3 => 576
  | _ => 580 + i * 4

/-- Count something of a target. -/
def calBump (k i : Nat) (s : State) : State := bump 13 (calBase k + i) s

/-- object of an event: class, index << 8. -/
def calObject (k : Nat) : Nat := k / 256 + k % 256 * 256

/-- The codes that a trim can take: its width of Table 16.1, and codes 0 to 95 of a delay line, on whose 8 bits fine_delay_ps adds 0 to
159 (R99). -/
def codeRange (k i : Nat) : Int × Int := match k / 256 with
  | 0 => if i < 16 then (-31, 31) else if i = 16 then (0, 31) else (0, 15)
  | 1 => (0, 63)
  | 4 => (0, 255)
  | _ => (0, 95)

/-- Exactly the codes that a target has, each within its range. -/
def fitCodes (k : Nat) (l : List Int) : List Int :=
  (List.range (calCodes k)).map (fun i => clampInt (codeRange k i).1 (codeRange k i).2 (nthD 0 l i))

/-! Temperature sets (R409, R410) -/

/-- The factory sets of a target. (DESIGN CHOICE, log entry 73) -/
def factorySets (k : Nat) : List TrimSet := [0, 1, 2].map (fun (i : Fin 3) => ⟨Config.factoryTemp k i, fitCodes k (Config.factoryCodes k i)⟩)

/-- Put a set into a list in order of temperature. -/
def insertSet (x : TrimSet × Bool) : List (TrimSet × Bool) → List (TrimSet × Bool)
  | [] => [x]
  | y :: t => if x.1.temp < y.1.temp then x :: y :: t else y :: insertSet x t

/-- The set list of R410, each with whether it is a field set: factory sets more than 5 °C from every field set, and the field sets. -/
def setList (k : Nat) (x : CalTarget) : List (TrimSet × Bool) :=
  let far := (factorySets k).filter (fun f => x.fields.all (fun g => decide (80 < (f.temp - g.temp).natAbs)))
  (x.fields.map (fun f => (f, true)) ++ far.map (fun f => (f, false))).foldl (fun l e => insertSet e l) []

/-- A code between two sets, rounded half up. -/
def codeBetween (c0 c1 t0 t1 t : Int) : Int := if t1 = t0 then c0 else c0 + (2 * (c1 - c0) * (t - t0) + (t1 - t0)) / (2 * (t1 - t0))

/-- The codes of a set list at a reading: between neighbours by interpolation, beyond the ends those of the end.
(DEDUCED, log entry 72) -/
def codesAt (n : Nat) (l : List TrimSet) (t : Int) : List Int :=
  let below := (l.filter (fun e => decide (e.temp ≤ t))).getLast?
  let above := (l.filter (fun e => decide (t ≤ e.temp))).head?
  match below, above with
  | some a, some b => (List.range n).map (fun i => codeBetween (nthD 0 a.codes i) (nthD 0 b.codes i) a.temp b.temp t)
  | some a, none => a.codes
  | none, some b => b.codes
  | none, none => []

/-- The codes of a target at a reading. -/
def targetCodes (k : Nat) (x : CalTarget) (t : Int) : List Int := codesAt (calCodes k) ((setList k x).map (·.1)) t

/-- Add a field set: it replaces one within 2.5 °C, or with eight held the nearest (R409). -/
def addField (f : TrimSet) (l : List TrimSet) : List TrimSet :=
  let nearest := l.foldl (fun best g => match best with
    | none => some g
    | some b => if (f.temp - g.temp).natAbs < (f.temp - b.temp).natAbs then some g else some b) (none : Option TrimSet)
  match nearest with
  | none => [f]
  | some b =>
    if (f.temp - b.temp).natAbs ≤ 40 || 8 ≤ l.length then l.map (fun g => if g = b then f else g) else l ++ [f]

/-- Codes that are to come into force wait for their boundary; those of a delay line are loaded into its idle twin (R413). -/
def calWait (k : Nat) (codes : List Int) (t : Int) (s : State) : State :=
  let x := calTarget s k
  let since' := if x.waiting.isSome then x.waitSince else dcNow s
  let twins := k / 256 = calTrg || k / 256 = calPps
  setCal k { x with waiting := some ⟨t, codes⟩, waitSince := since', idle := if twins then codes else x.idle } s

/-- A reading of a target's sensor: where it differs by 1 °C from that of the last application the codes are computed anew. The VCO band
is never interpolated (R410). -/
def calReading (k : Nat) (t : Int) (s : State) : State :=
  let s1 := setCal k { calTarget s k with tempNow := t } s
  let x := calTarget s1 k
  let codes := targetCodes k x t
  if k / 256 = calQuad || decide ((t - x.appliedTemp).natAbs < 16) then s1
  else if codes = x.active then setCal k { x with waiting := none, deferred := false } s1
  else calWait k codes t s1

/-- Row TRIM_RECOMPUTE: every 100 ms each target's reading, 1/16 °C. -/
def execTrimRecompute (readings : List (Nat × Int)) (s : State) : Host.Outcome State Fault Refusal :=
  done (if since s s.cal.recomputeAt < msTicks 100 then s
    else (readings.filter (fun e => calTargets.contains e.1)).foldl (fun t e => calReading e.1 e.2 t)
      { s with cal := { s.cal with recomputeAt := dcNow s } })

/-- The codes that waited come into force. -/
def calApply (k : Nat) (s : State) : State :=
  let x := calTarget s k
  match x.waiting with
  | none => s
  | some w => calBump k 3 (setCal k { x with
      active := w.codes, appliedTemp := w.temp, waiting := none, deferred := false, reanchor := false } s)

/-- Row TRIM_APPLY: an idle block or frame gap on the lane, or a tick without a timestamp in the converter (R408, R412). Trims wait for the
end of a W1 (R401). -/
def execTrimApply (target : Nat) (s : State) : Host.Outcome State Fault Refusal :=
  done (
    let x := calTarget s target
    if x.waiting.isNone || s.start.w1Running || !(target / 256 == calLane || target / 256 == calTdc) then s
    else
      let s1 := if x.reanchor && target / 256 = calLane then modLane target (fun y => { y with reanchor := true }) s else s
      calApply target s1)

/-- Row CAL_DEFERRED: a change has waited 100 ms for its boundary (R21). -/
def execCalDeferred (target : Nat) (s : State) : Host.Outcome State Fault Refusal :=
  done (
    let x := calTarget s target
    if x.waiting.isNone || x.deferred || since s x.waitSince < msTicks 100 then s
    else raise 0x0B04 1 (calObject target) 0 0 (bump 13 1026 (setCal target { x with deferred := true } s)))

/-- Whether an output is in its trigger gap: no pulse in flight and none to start within 200 ns; a disabled output is always (R413). -/
def twinGap (k : Nat) (s : State) : Bool :=
  if k / 256 = calPps then true
  else
    let x := trgOut s (k % 256)
    !(trgCfg (posImage s) (k % 256)).enable || (!x.level && (match x.scheduled with
      | e :: _ => decide (psNow s + 200000 ≤ e.1)
      | [] => true))

/-- Row TWIN_SWAP: the idle twin, loaded with the codes that wait, becomes the active one (R413). It does not while the idle twin is
calibrated (DESIGN CHOICE, log entry 117), nor in a W1 (R401). -/
def execTwinSwap (target : Nat) (s : State) : Host.Outcome State Fault Refusal :=
  done (
    let x := calTarget s target
    if x.waiting.isNone || x.running.isSome || s.start.w1Running || !(target / 256 == calTrg || target / 256 == calPps)
        || !twinGap target s then s
    else calApply target (setCal target { x with twin := 1 - x.twin, idle := x.active } s))

/-! Policies (Table 16.8) -/

/-- A class's policy: windows, GP input, interval in s (none: never), delta in 1/16 °C. -/
structure CalPolicy where
  gpWindow : Bool
  stillWindow : Bool
  gp : Nat
  interval : Option Nat
  delta : Nat
  deriving DecidableEq, Repr

/-- Reset value: no windows, 3,600 s, 10 °C. -/
def calPolicyReset (c : Nat) : Bytes := leBytes 16 c

/-- A class's policy in force. -/
def calPolicy (s : State) (c : Nat) : CalPolicy :=
  let p := settingIn s.cfg.active 0x0D00 c (calPolicyReset c)
  ⟨bitOf (fld p 1 1) 0, bitOf (fld p 1 1) 1, fld p 2 1
  , if fld p 4 4 = 0 then some 3600 else if fld p 4 4 = 0xFFFFFFFF then none else some (fld p 4 4), if fld p 8 2 = 0 then 160 else fld p 8 2⟩

/-- The checks of CAL.SET_POLICY. -/
def calPolicyCheck (_s : State) (p : Bytes) : Option Nat :=
  let i := fld p 4 4
  let d := fld p 8 2
  orBadArg (fieldsOk p [⟨0, 1, 0, 4, false⟩, ⟨1, 1, 0, if fld p 0 1 < 2 then 3 else 0, false⟩
      , ⟨2, 1, 0, if bitOf (fld p 1 1) 0 then 23 else 0, false⟩] [(3, 1), (10, 6)]
    && (i == 0 || i == 0xFFFFFFFF || (decide (60 ≤ i) && decide (i ≤ 604800))) && (d == 0 || (decide (16 ≤ d) && decide (d ≤ 480))))

/-- Row CAL_SET_POLICY. -/
def execCalSetPolicy (io : HostIo) (s : State) : Host.Outcome State Fault Refusal :=
  done (serve { code := 0x0D00, len := some 16 } io (stage 0x0D00 (fun p => fld p 0 1) calPolicyCheck) s)

/-! When a calibration runs (R411, R412, Table 16.3) -/

/-- Whether a window of a class's policy is open: its GP input is active, or NO_MOTION is set. -/
def windowOpen (s : State) (c : Nat) : Bool :=
  let p := calPolicy s c
  (p.gpWindow && gpActive s p.gp) || (p.stillWindow && noMotion s)

/-- Whether a field lane is free without a window: its port carries no head and is no PTP port, or has only heads that are OFF or LOST. -/
def laneFree (s : State) (l : Nat) : Bool :=
  let port := (laneOf s l).set.first
  let heads := portHeads (posImage s) port
  if heads.isEmpty then (ptpCfg (posImage s) port).role == 0
  else heads.all (fun h => (headOf s h).st == hsOff || (headOf s h).st == hsLost)

/-- What bars a calibration of a target whatever FORCE says (R412). -/
def calBarred (s : State) (k : Nat) : Bool :=
  let busy (j : Nat) : Bool := (calTarget s j).running.isSome
  let away (l : Nat) : Bool := [lsTest, lsTraining, lsRetraining, lsFault].contains (laneOf s l).st
  busy k || s.start.w1Running || s.fault.throttle || !s.start.blocksUp || (match k / 256 with
    | 0 =>
      let x := laneOf s k
      let others := (List.range 64).filter busy
      away k || busy (quadTarget k) || decide (8 ≤ others.length)
        || others.any (fun j => j / 4 == k / 4)
        || (x.set.mode == modeGraft && (others.any (fun j => (laneOf s j).set.mode == modeGraft && (laneOf s j).set.first == x.set.first)
          || (x.set.lanes != 1 && bitOf (graftOf s x.set.first).txMap (k - x.set.first) && activeLanes (graftOf s x.set.first).txMap == 1)))
    | 1 => (quadLanes (k % 256)).any (fun l => busy l || away l)
    | 4 => busy (256 * calQuad + k % 256)
    | _ => false)

/-- Whether a calibration of a target may start without FORCE: a lane in service needs a window, a quad needs idle lanes. -/
def calOpen (s : State) (k : Nat) : Bool := match k / 256 with
  | 0 =>
    let x := laneOf s k
    if x.set.mode = modeGraft then x.set.lanes != 1 || windowOpen s calLane else laneFree s k || windowOpen s calLane
  | 1 => (quadLanes (k % 256)).all (fun l => (laneOf s l).st == lsOff)
  | _ => true

/-- Whether FORCE opens a target: a Graft group's last lane stays closed (R417). -/
def calForced (s : State) (k : Nat) : Bool := match k / 256 with
  | 0 => !((laneOf s k).set.mode == modeGraft && (laneOf s k).set.lanes == 1)
  | 1 => (quadLanes (k % 256)).all (fun l =>
      let x := laneOf s l
      !(x.set.mode == modeGraft && graftUp s x.set.first
        && (setBits 8 (graftOf s x.set.first).txMap).all (fun j => (x.set.first + j) / 4 == k % 256)))
  | _ => true

/-- Take a lane out of service for a calibration: a Graft lane pair leaves its group's maps, a field lane is held. -/
def calTakeLane (l : Nat) (s : State) : State :=
  let x := laneOf s l
  let s1 := if x.set.mode = modeGraft && x.set.lanes ≠ 1 && bitOf (graftOf s x.set.first).rxMap (l - x.set.first) then restripeOut l s else s
  modLane l (fun y => { y with calFrom := y.st, st := lsCalibrating }) s1

/-- A calibration starts. With FORCE a field port whose lane is in service drops first (R417). -/
def calStart (k : Nat) (force : Bool) (s : State) : State :=
  let lanes := if k / 256 = calLane then [k] else if k / 256 = calQuad then quadLanes (k % 256) else []
  let s1 := if force && !calOpen s k then lanes.foldl (fun t l =>
    if (laneOf t l).set.mode != modeGraft && (laneOf t l).st == lsUp then dropPort (laneOf t l).set.first t else t) s else s
  let s2 := lanes.foldl (fun t l => calTakeLane l t) s1
  let x := calTarget s2 k
  setCal k { x with running := some (dcNow s), due := false, tickets := x.tickets ++ x.waits.map (·.ticket), waits := [] } s2

/-- Whether a target falls due: its interval has passed, or its reading lies more than delta from every set (R411). A quad is calibrated
at starts and by CAL.RUN only. (DEDUCED, log entry 72) -/
def calFallsDue (s : State) (k : Nat) : Bool :=
  let p := calPolicy s (k / 256)
  let x := calTarget s k
  s.start.blocksUp && k / 256 != calQuad && ((match p.interval with
      | some n => decide (secTicks n ≤ since s (x.acceptedAt.getD s.start.startDc))
      | none => false)
    || (setList k x).all (fun e => decide (p.delta < (x.tempNow - e.1.temp).natAbs)))

/-- Whether a due target may start now. -/
def calMayStart (s : State) (k : Nat) : Bool := (calTarget s k).due && !calBarred s k && (calOpen s k || ((calTarget s k).waits.any (·.force) && calForced s k))

/-- The work of CALIBRATION_DUE: the target falls due, and starts when it may; of targets that exclude each other the lowest goes first. A
CAL.RUN that has waited 10 s ends DEFERRED (R417). -/
def calibrationDue (k : Nat) (s : State) : State :=
  let x := calTarget s k
  if !calTargets.contains k || x.running.isSome then s
  else
    let s1 := if !x.due && calFallsDue s k then setCal k { x with due := true } s else s
    let lower := (List.range k).filter (calMayStart s1)
    let room := decide (((List.range 64).filter (fun j => (calTarget s1 j).running.isSome)).length + lower.length < 8)
    let first := k / 256 != calLane || (room && !lower.any (fun j => quadTarget j == quadTarget k
      || (laneOf s j).set.mode == modeGraft && (laneOf s j).set.first == (laneOf s k).set.first))
    if calMayStart s1 k && first then calStart k (x.waits.any (·.force)) s1
    else
      let late := x.waits.filter (fun w => decide (secTicks 10 ≤ since s w.at'))
      let rest := x.waits.filter (fun w => decide (since s w.at' < secTicks 10))
      if late.isEmpty then s1
      else late.foldl (fun t w => endTicket w.ticket 0x44 (calStatus s1 k) true t)
        (setCal k { calTarget s1 k with waits := rest, due := !rest.isEmpty } s1)

/-- Row RETRAIN_INTERVAL (R152); scheduled retrains wait for the end of a W1 (R401), and for a calibration of the lane that is due and may
start (R412). (DESIGN CHOICE, log entry 115) -/
def execRetrainInterval (lane : Nat) (s : State) : Host.Outcome State Fault Refusal :=
  done (match (laneOf s lane).eq.interval with
    | some n =>
      let first := ((calTarget s lane).due || calFallsDue s lane) && !calBarred s lane && calOpen s lane
      if !s.start.w1Running && !first && decide (secTicks n ≤ since s (laneOf s lane).anchorDc) then retrainLane lane s else s
    | none => s)

/-- Row CALIBRATION_DUE. -/
def execCalibrationDue (target : Nat) (s : State) : Host.Outcome State Fault Refusal := done (calibrationDue target s)

/-! Agreement (R414) -/

/-- Whether two codes of a target agree (Table 16.4). -/
def codeAgrees (k i : Nat) (a b : Int) : Bool :=
  let exact := k / 256 = calQuad || (k / 256 = calLane && 17 ≤ i)
  if exact then a == b else decide ((a - b).natAbs ≤ 1)

/-- Whether two runs agree. -/
def runsAgree (k : Nat) (a b : List Int) : Bool := (List.range (calCodes k)).all (fun i => codeAgrees k i (nthD 0 a i) (nthD 0 b i))

/-- The mean of two runs, rounded half up. -/
def runsMean (k : Nat) (a b : List Int) : List Int := (List.range (calCodes k)).map (fun i => (nthD 0 a i + nthD 0 b i + 1) / 2)

/-- The result of a calibration's runs, and whether it took the third. -/
def calResult (k : Nat) (r : CalRuns) : Option (List Int) × Bool :=
  let a := fitCodes k r.run1
  let b := fitCodes k r.run2
  let c := fitCodes k r.run3
  if runsAgree k a b then (some (runsMean k a b), false)
  else if runsAgree k a c then (some (runsMean k a c), true)
  else if runsAgree k b c then (some (runsMean k b c), true)
  else (none, true)

/-- µs that a calibration takes, with two runs and with three (Table 16.3). -/
def calTime (k : Nat) (third : Bool) : Nat := match k / 256 with
  | 0 => if third then 175 else 120
  | 1 => if third then 440 else 300
  | 4 => if third then 2520000 else 1680000
  | _ => if third then 120 else 80

/-- A calibration's runs have ended: accepted, its result becomes a field set and waits for its boundary (a VCO band comes into force at
once); rejected, everything stays (R409, R410, R414). (DEDUCED, log entry 72) -/
def calFinish (k : Nat) (r : CalRuns) (s : State) : State :=
  let res := calResult k r
  let x := calTarget s k
  let lanes := if k / 256 = calLane then [k] else if k / 256 = calQuad then quadLanes (k % 256) else []
  let y := { x with count := x.count + 1, third := x.third + b2n res.2, lastTemp := r.temp }
  let s1 := if res.2 then calBump k 2 s else s
  match res.1 with
  | none =>
    let s2 := setCal k { y with rejects := x.rejects + 1 } (calBump k 1 s1)
    raise 0x0B01 2 (calObject k) 0 0 (calEnded k 3 0x41 (lanes.foldl (fun t l => calReturnLane l t) s2))
  | some codes =>
    let z := { y with fields := addField ⟨r.temp, codes⟩ x.fields, acceptedAt := some (dcNow s), tempNow := r.temp }
    let s2 := setCal k z (calBump k 0 s1)
    let s3 := if k / 256 = calQuad then calBump k 3 (setCal k { z with active := codes, appliedTemp := r.temp } s2)
      else calWait k (targetCodes k z r.temp) r.temp s2
    let s4 := if k / 256 = calLane then
      setCal k { calTarget s3 k with reanchor := !(laneOf s k).eq.fixed && (laneOf s k).set.mode != 0 } s3 else s3
    let s5 := lanes.foldl (fun t l => calReturnLane l t) s4
    calEnded k (if res.2 then 2 else 1) stOk { s5 with cal := { s5.cal with storeDue := true } }

/-- Row CALIBRATION_RUN_DONE. -/
def execCalibrationRunDone (target : Nat) (runs : CalRuns) (s : State) : Host.Outcome State Fault Refusal :=
  done (match (calTarget s target).running with
    | some t => if usTicks (calTime target (calResult target runs).2) ≤ since s t then calFinish target runs s else s
    | none => s)

/-! Storage (R415) -/

/-- The bytes of a target's codes (Table 16.6). -/
def codeBytes (k : Nat) (l : List Int) : Bytes := match k / 256 with
  | 0 => (List.range 16).flatMap (fun i => leInt 1 (nthD 0 l i)) ++ leInt 1 (nthD 0 l 16)
      ++ leBytes 1 ((nthD 0 l 17).toNat % 16 + (nthD 0 l 18).toNat % 16 * 16) ++ zeros 2
  | 4 => (List.range 256).flatMap (fun i => leInt 1 (nthD 0 l i))
  | _ => leInt 1 (nthD 0 l 0)

/-- The codes that such bytes give, each within its range. -/
def codesOf (k : Nat) (b : Bytes) : List Int := fitCodes k (match k / 256 with
  | 0 => (List.range 16).map (fun i => sfld b i 1) ++ [(fld b 16 1 : Int), ((fld b 17 1 % 16 : Nat) : Int), ((fld b 17 1 / 16 : Nat) : Int)]
  | 4 => (List.range 256).map (fun i => (fld b i 1 : Int))
  | _ => [(fld b 0 1 : Int)])

/-- A record of a target in a calibration slot (Table 16.6). -/
def targetRecord (k : Nat) (l : List TrimSet) : Bytes :=
  leBytes 1 (k / 256) ++ leBytes 1 (k % 256) ++ leBytes 1 l.length ++ leBytes 1 ((codeBytes k []).length % 256) ++ zeros 4
    ++ l.flatMap (fun x => padTo 8 (leInt 2 x.temp ++ codeBytes k x.codes))

/-- The bytes of a calibration slot with a sequence and field sets, its crc apart: header and records (Tables 16.5, 16.6). -/
def slotParts (sequence : Nat) (sets : Tab (List TrimSet)) : Bytes × Bytes :=
  let body := sets.flatMap (fun e => targetRecord e.1 e.2)
  ([0x4B, 0x50, 0x5A, 0x54] ++ leBytes 2 1 ++ leBytes 2 sets.length ++ leBytes 4 sequence ++ leBytes 4 (32 + body.length)
    ++ leBytes 8 Config.eui64 ++ zeros 4, body)

/-- The bytes of a calibration slot. -/
def slotBytes (sequence : Nat) (sets : Tab (List TrimSet)) : Bytes :=
  let x := slotParts sequence sets
  x.1 ++ leBytes 4 (crc32 (x.1 ++ x.2)) ++ x.2

/-- The field sets of a record's `n` sets of `size` bytes each. -/
def recordSets (k size : Nat) : Nat → Bytes → List TrimSet
  | 0, _ => []
  | n + 1, b => ⟨sfld b 0 2, codesOf k (b.drop 2)⟩ :: recordSets k size n (b.drop size)

/-- The records of a slot, at most `n`. -/
def slotSets : Nat → Bytes → Tab (List TrimSet)
  | 0, _ => []
  | n + 1, b =>
    let k := fld b 0 1 * 256 + fld b 1 1
    let size := (2 + (codeBytes k []).length + 7) / 8 * 8
    (k, recordSets k size (fld b 2 1) (b.drop 8)) :: slotSets n (b.drop (8 + size * fld b 2 1))

/-- What a calibration slot holds. -/
def calSlot (s : State) (n : Nat) : Bytes := tget [] s.cal.slots n

/-- Whether a slot is valid: magic, version and device_eui match, and crc is correct (R415). -/
def calSlotValid (b : Bytes) : Bool :=
  b.take 4 == [0x4B, 0x50, 0x5A, 0x54] && fld b 4 2 == 1 && fld b 0x10 8 == Config.eui64 % 2 ^ 64
    && fld b 0x1C 4 == crc32 (b.take 28 ++ (b.drop 32).take (fld b 0x0C 4 - 32))

/-- A slot's sequence. -/
def calSequence (b : Bytes) : Nat := fld b 8 4

/-- The slot that holds the valid image of higher sequence. -/
def calNewer (s : State) : Option Nat :=
  let a := calSlot s 0
  let b := calSlot s 1
  if calSlotValid a then (if calSlotValid b && decide (calSequence a < calSequence b) then some 1 else some 0)
  else if calSlotValid b then some 1 else none

/-- The field sets then held. -/
def heldFields (s : State) : Tab (List TrimSet) := calTargets.foldl (fun t k =>
  let f := (calTarget s k).fields
  if f.isEmpty then t else tput t k f) []

/-- Row CAL_SLOT_STORE: the other slot is erased, programmed and read back; `good` is whether the read-back agrees. Of its own accord the
device stores at most once per 60 s. (DEDUCED, log entry 72) -/
def execCalSlotStore (good : Bool) (s : State) : Host.Outcome State Fault Refusal :=
  done (
    let soon := match s.cal.storedAt with
      | some t => decide (since s t < secTicks 60)
      | none => false
    if !s.start.windowUp || (s.cal.storeTicket.isNone && (!s.cal.storeDue || soon)) then s
    else
      let newer := calNewer s
      let n := match newer with | some 0 => 1 | _ => 0
      let seq := (match newer with | some m => calSequence (calSlot s m) + 1 | none => 1) % 2 ^ 32
      let parts := slotParts seq (heldFields s)
      let slot := if good then slotBytes seq (heldFields s) else parts.1 ++ List.replicate 4 0xFF ++ parts.2
      let s1 := { s with cal := { s.cal with
        slots := tset [] s.cal.slots n slot, storeDue := !good, storedAt := some (dcNow s), storeTicket := none } }
      let s2 := if good then bump 13 1024 s1 else raise 0x0B02 2 n 0 0 (bump 13 1025 s1)
      match s.cal.storeTicket with
      | some t => endTicket t (if good then stOk else 0x43) [] true s2
      | none => s2)

/-- The field sets of the valid slot with the higher sequence (R416). (DEDUCED, log entry 77) -/
def loadFields (s : State) : State := match calNewer s with
  | some n =>
    let b := calSlot s n
    (slotSets (fld b 6 2) (b.drop 32)).foldl (fun t e => if calTargets.contains e.1 then setCal e.1 { calTarget t e.1 with fields := e.2 } t else t) s
  | none => raise 0x0B03 1 0 0 0 s

/-! CAL commands (Tables 16.7 to 16.9) -/

/-- The target that a request names. -/
def namedTarget (p : Bytes) : Option Nat := if fld p 1 1 < calCount (fld p 0 1) then some (fld p 0 1 * 256 + fld p 1 1) else none

/-- CAL.RUN (R417). (DEDUCED, log entry 72) -/
def calRun (s : State) (q : Req) (p : Bytes) : Reply :=
  let force := bitOf (fld p 2 1) 0
  let wait := bitOf (fld p 2 1) 1
  match namedTarget p with
  | none => reply stBadArg s
  | some k =>
    if !(decide (fld p 2 1 ≤ 3) && zeroRange p 3 5) then reply stBadArg s
    else if !calBarred s k && (calOpen s k || (force && calForced s k)) then
      issueTicket q p (fun n t => calStart k force (setCal k { calTarget t k with tickets := (calTarget t k).tickets ++ [n] } t)) s
    else if wait then
      issueTicket q p (fun n t => setCal k { calTarget t k with due := true, waits := (calTarget t k).waits ++ [⟨n, dcNow t, force⟩] } t) s
    else reply 0x40 s

/-- Row CAL_RUN. -/
def execCalRun (io : HostIo) (s : State) : Host.Outcome State Fault Refusal := done (serve { code := 0x0D10, len := some 8 } io calRun s)

/-- The highest sensor reading. -/
def highestReading (s : State) : Int :=
  let l := s.fault.temps ++ s.cal.targets.map (·.2.tempNow)
  match l with
  | [] => 0
  | a :: t => t.foldl max a

/-- CAL.GET_STATUS of the DEVICE: sums over all targets, and the most recent calibration of any. -/
def deviceCalStatus (s : State) : Bytes :=
  let x : CalTarget := match s.cal.latest with | some k => calTarget s k | none => {}
  let sum (f : CalTarget → Nat) : Nat := sumBy (fun e => f e.2) s.cal.targets
  leBytes 1 0 ++ leBytes 1 x.outcome ++ zeros 2 ++ leInt 2 (highestReading s) ++ leInt 2 x.lastTemp ++ leBytes 4 (sum (·.count))
    ++ leBytes 4 (sum (·.rejects)) ++ leBytes 8 x.lastDc ++ leBytes 8 (x.lastTv0 / 1000000000 % 2 ^ 48) ++ leBytes 4 (x.lastTv0 % 1000000000)
    ++ leBytes 4 (sum (·.third)) ++ zeros 8

/-- Row CAL_GET_STATUS. -/
def execCalGetStatus (io : HostIo) (s : State) : Host.Outcome State Fault Refusal :=
  done (serve { code := 0x0D11, len := some 8 } io (fun s _ p =>
    if !zeroRange p 2 6 then reply stBadArg s
    else if fld p 0 2 = 255 then replyOk (deviceCalStatus s) s
    else match namedTarget p with
      | some k => replyOk (calStatus s k) s
      | none => reply stBadArg s) s)

/-- The CAL.GET_TRIMS response. (DEDUCED, log entry 72) -/
def trimBytes (s : State) (k : Nat) : Bytes :=
  let x := calTarget s k
  let l := setList k x
  leBytes 1 l.length ++ leBytes 1 ((codeBytes k []).length % 256) ++ leInt 2 x.appliedTemp ++ zeros 4 ++ padTo 8 (codeBytes k x.active)
    ++ l.flatMap (fun e => leInt 2 e.1.temp ++ leBytes 1 (b2n e.2) ++ zeros 5 ++ padTo 8 (codeBytes k e.1.codes))

/-- Row CAL_GET_TRIMS. -/
def execCalGetTrims (io : HostIo) (s : State) : Host.Outcome State Fault Refusal :=
  done (serve { code := 0x0D12, len := some 8 } io (fun s _ p => match namedTarget p with
    | some k => if zeroRange p 2 6 then replyOk (trimBytes s k) s else reply stBadArg s
    | none => reply stBadArg s) s)

/-- Row CAL_STORE. -/
def execCalStore (io : HostIo) (s : State) : Host.Outcome State Fault Refusal :=
  done (serve { code := 0x0D13, len := some 0 } io (fun s q p =>
    if s.cal.storeTicket.isSome then reply stBusy s
    else issueTicket q p (fun n t => { t with cal := { t.cal with storeTicket := some n } }) s) s)

/-- Row CAL_CLEAR_FIELD. -/
def execCalClearField (io : HostIo) (s : State) : Host.Outcome State Fault Refusal :=
  done (serve { code := 0x0D14, len := some 8 } io (fun s _ p =>
    let drop (k : Nat) (t : State) : State := setCal k { calTarget t k with fields := [] } t
    let due (t : State) : State := { t with cal := { t.cal with storeDue := true } }
    if !zeroRange p 2 6 then reply stBadArg s
    else if fld p 0 2 = 255 then reply stOk (due (calTargets.foldl (fun t k => drop k t) s))
    else match namedTarget p with
      | some k => reply stOk (due (drop k s))
      | none => reply stBadArg s) s)

end Sys2Proof.Machine
end

