-- ==== Sys2Proof/Machine/Crypto.lean ====
section
/-! DEFINITION. The verification of ECDSA signatures over P-384 (FIPS 186), which checks firmware images (Table 15.7). -/

namespace Sys2Proof.Machine

def curveP : Nat := 2 ^ 384 - 2 ^ 128 - 2 ^ 96 + 2 ^ 32 - 1
def curveN : Nat := 0xFFFFFFFFFFFFFFFFFFFFFFFFFFFFFFFFFFFFFFFFFFFFFFFFC7634D81F4372DDF581A0DB248B0A77AECEC196ACCC52973
def curveB : Nat := 0xB3312FA7E23EE7E4988E056BE3F82D19181D9C6EFE8141120314088F5013875AC656398D8A2ED19D2A85C8EDD3EC2AEF
def curveG : Nat × Nat :=
  (0xAA87CA22BE8B05378EB1C71EF320AD746E1D3B628BA79B9859F741E082542A385502F25DBF55296C3A545E3872760AB7,
   0x3617DE4A96262C6F5D9E98BF9292DC29F8F41DBD289A147CE9DA3113B5F0B8C00A60B1CE1D7E819D7A431D7C90EA0E5F)

/-- A power modulo `m`; the exponent has at most `k` bits. -/
def powMod (m : Nat) : Nat → Nat → Nat → Nat
  | 0, _, _ => 1
  | k + 1, b, e => (if e % 2 = 1 then b else 1) * powMod m k (b * b % m) (e / 2) % m

/-- The inverse modulo a prime of at most 384 bits. -/
def invMod (m a : Nat) : Nat := powMod m 384 a (m - 2)

/-- A difference modulo `m` of numbers below it. -/
def subMod (m a b : Nat) : Nat := (a + m - b) % m

/-- The sum of two points of the curve; none is the point at infinity. -/
def curveAdd : Option (Nat × Nat) → Option (Nat × Nat) → Option (Nat × Nat)
  | none, q => q
  | p, none => p
  | some (x1, y1), some (x2, y2) =>
    let m := curveP
    if x1 = x2 && (y1 + y2) % m = 0 then none
    else
      let l := if x1 = x2 then (3 * x1 * x1 + (m - 3)) * invMod m (2 * y1) % m else subMod m y2 y1 * invMod m (subMod m x2 x1) % m
      let x3 := subMod m (subMod m (l * l % m) x1) x2
      some (x3, subMod m (l * subMod m x1 x3 % m) y1)

/-- A multiple of a point; the factor has at most `k` bits. -/
def curveMul : Nat → Nat → Option (Nat × Nat) → Option (Nat × Nat)
  | 0, _, _ => none
  | k + 1, n, q => curveAdd (if n % 2 = 1 then q else none) (curveMul k (n / 2) (curveAdd q q))

/-- Whether a pair is a point of the curve. -/
def onCurve (q : Nat × Nat) : Bool :=
  decide (q.1 < curveP) && decide (q.2 < curveP) && decide (q.2 * q.2 % curveP = (q.1 * q.1 * q.1 + (curveP - 3) * q.1 + curveB) % curveP)

/-- Verify a signature r, s over a SHA-384 hash with a public key x, y (each 48 bytes, big-endian). -/
def ecdsaOk (key hash sig : Bytes) : Bool :=
  let q := (beNat (key.take 48), beNat ((key.drop 48).take 48))
  let r := beNat (sig.take 48)
  let s := beNat ((sig.drop 48).take 48)
  let w := invMod curveN s
  let z := beNat hash
  onCurve q && decide (0 < r) && decide (r < curveN) && decide (0 < s) && decide (s < curveN)
    && (match curveAdd (curveMul 384 (z * w % curveN) (some curveG)) (curveMul 384 (r * w % curveN) (some q)) with
      | some (x, _) => x % curveN == r
      | none => false)

end Sys2Proof.Machine
end

