-- ==== Sys2Proof/Machine/Fault.lean ====
section
/-! DEFINITION. Memory faults, HBM channels and stacks, thermal steps, and the event limit (chapter 17: R421 to R425, R428, R429). -/

namespace Sys2Proof.Machine

/-- Set the fault part. -/
def setFault (x : FaultSt) (s : State) : State := { s with fault := x }

/-! Starts that a fault calls for -/

/-- A start falls due: 0 cold, 1 W2, 2 W1. A start of greater reach that is due already takes its place. The safe state is left by a cold
start alone (R403). -/
def fallDue (kind cause : Nat) (slot : Option Nat) (s : State) : State := if s.start.safe && kind != 0 then s else match s.start.due with
  | some d => if d.kind ≤ kind then s else { s with start := { s.start with due := some ⟨kind, cause, slot, dcNow s⟩ } }
  | none => { s with start := { s.start with due := some ⟨kind, cause, slot, dcNow s⟩ } }

/-- The start that a watchdog expiry or a lost word of Headstock memory begins: a W1 where HITLESS_CONTROL_RESTART is accepted and no W1
has failed since the last successful start, else a W2 (R397, Table 17.1). -/
def watchdogStart (s : State) : State := fallDue (if feature s 13 && !s.start.w1Failed then 2 else 1) 4 none s

/-! HBM (R213, R421, R422) -/

/-- What a mark does to the look-back buffer without parity, or on a second stack: the lines that touch the marked granules read as
overwritten; without parity the granules are counted, every one of a stack that has failed (a quarter of the ring), and LB_STACK_LOST
raised (R213, R422). (DESIGN CHOICE, log entry 39) -/
def loseLines (stack : Nat) (double : Bool) (s : State) : State :=
  let b := s.ing.lb
  let hit (l : LbLine) : Bool := if double then (List.range 4).any (fun k => granulesLost s k l != 0) else granulesLost s stack l != 0
  let n := if bitOf s.fault.failedStacks stack then lookbackGranules (posImage s) / 4
    else sumBy (fun l => if l.lost then 0 else granulesLost s stack l) b.lines
  let s1 := setLb { b with lines := b.lines.map (fun l => if hit l then { l with lost := true } else l) } s
  if parityOn s then s1 else raise 0x0602 4 stack n 0 (bumpBy 7 2115 n s1)

/-- The device stops writing to a stack, and its lines read through rebuild or as lost. A mark on a second stack is a double fault, and a
W2 with cause ESCALATION falls due (R422). -/
def giveUpStack (stack : Nat) (s : State) : State :=
  let b := s.ing.lb
  let others := (setBits 4 b.lostStacks).filter (· != stack)
  let s1 := if others.isEmpty then (if parityOn s then s else loseLines stack false s) else loseLines stack true s
  let s2 := setLb { s1.ing.lb with lostStacks := s1.ing.lb.lostStacks ||| 2 ^ stack } s1
  match others with
  | [] => s2
  | k :: _ => if bitOf b.lostStacks stack then s2 else fallDue 1 5 none (raise 0x0C03 4 (stack + k * 256) 0 0 s2)

/-- A stack is declared failed. (DESIGN CHOICE, log entry 39) -/
def failStack (stack : Nat) (s : State) : State :=
  if bitOf s.fault.failedStacks stack then s
  else giveUpStack stack (raise 0x0C02 3 stack 0 0 (setFault { s.fault with failedStacks := s.fault.failedStacks ||| 2 ^ stack } s))

/-- A channel is declared failed; the fourth takes its stack with it. -/
def failChannel (stack channel : Nat) (s : State) : State :=
  let m := tget 0 s.fault.marked stack
  if bitOf m channel then s
  else
    let m' := m ||| 2 ^ channel
    let s1 := bump 14 (16 + stack * 4 + 3) (setFault { s.fault with marked := tset 0 s.fault.marked stack m' } s)
    let s2 := raise 0x0C01 3 (stack + channel * 256) 0 0 s1
    if 4 ≤ (setBits 16 m').length then failStack stack s2 else giveUpStack stack s2

/-- Row HBM_CHANNEL_FAILED. `cause`: 0 a command or address parity error that persists after a retry, 1 an uncorrectable sector, of which
the fourth within 1 s declares the channel failed, 2 the stack's power or temperature check. (DESIGN CHOICE, log entry 39) -/
def hbmFault (stack channel cause : Nat) (s : State) : State :=
  if 4 ≤ stack || 16 ≤ channel then s
  else match cause with
    | 0 => failChannel stack channel s
    | 1 =>
      let k := stack * 16 + channel
      let recent := (tget [] s.fault.uncorrectable k).filter (fun t => decide (since s t < secTicks 1))
      let s1 := bump 14 (16 + stack * 4 + 1) (bump 14 1 (setFault { s.fault with
        uncorrectable := tset [] s.fault.uncorrectable k ((dcNow s :: recent).take 4) } s))
      if 3 ≤ recent.length then failChannel stack channel s1 else s1
    | 2 => failStack stack s
    | _ => s

/-- Row HBM_CHANNEL_FAILED (R422). -/
def execHbmChannelFailed (stack channel cause : Nat) (s : State) : Host.Outcome State Fault Refusal := done (hbmFault stack channel cause s)

/-- Count corrected sectors of the stacks. -/
def countCorrected (corrected : List Nat) (s : State) : State :=
  (List.range 4).foldl (fun t k => bumpBy 14 (16 + k * 4) (nthD 0 corrected k) (bumpBy 14 0 (nthD 0 corrected k) t)) s

/-- Row SCRUB: the daily scrub, and the corrected sectors it has found per stack (R421). -/
def execScrub (corrected : List Nat) (s : State) : Host.Outcome State Fault Refusal :=
  done (if since s s.fault.scrubAt < secTicks 86400 then s else countCorrected corrected (setFault { s.fault with scrubAt := dcNow s } s))

/-! SRAM (R421, Table 17.1) -/

/-- A word of a tile's SRAM is lost: the graph whose it was re-runs from the restart row of its last passed check, on the same engines and
without a test. (DEDUCED, log entry 40) -/
def tileWordLost (tile g : Nat) (injected : Bool) (s : State) : State :=
  let slots := (tget [] s.fab.fab.placed g).filter (fun k => k / 16 == tile)
  let run := (graphOf s g).run
  let passedAt (k : Nat) : Option Int := run.bind (fun r => tfind r.passed k)
  let earlier (a b : Nat) : Bool := match passedAt a, passedAt b with
    | none, _ => true
    | some _, none => false
    | some x, some y => decide (x ≤ y)
  match slots with
  | [] => s
  | k :: rest =>
    if (graphOf s g).stopped then s
    else
      let slot := rest.foldl (fun a b => if earlier a b then a else b) k
      startRerun g tile (slot % 16) 0 0 injected true s

/-- Cloche memory is lost: the staged image is discarded and an armed commit is missed (R49). A commit that is being applied works from
its shadow copies and goes on. (DEDUCED, log entry 40) -/
def clocheLost (s : State) : State :=
  let s1 := raise 0x0003 3 s.cfg.staged.length 0 0 s
  if applying s then s1
  else
    let s2 := missCommit s1
    { s2 with cfg := { s2.cfg with staged := [] }, trel := { s2.trel with prep := none }, fab := { s2.fab with fab := { s2.fab.fab with planned := [] } } }

/-- SRAM_UNCORRECTABLE: `memory` 0 TILE_SRAM (index a tile, `graph` whose row ring or contexts it was), 1 BED_INGEST, 2 CLOCHE, 3 HEADSTOCK,
4 GRAFT_REPLAY (index a group_first). A line lost in a bed's buffer is read again from the look-back buffer, which changes nothing.
(DEDUCED, log entry 40) -/
def sramLost (memory index graph : Nat) (injected : Bool) (s : State) : State :=
  let s1 := raiseFrom injected 0x0707 3 (memory + index * 256) 0 0 (bump 14 3 s)
  match memory with
  | 0 => tileWordLost index graph injected s1
  | 2 => clocheLost s1
  | 3 => watchdogStart s1
  | 4 => if graftUp s1 index then failGraft index s1 else s1
  | _ => s1

/-- Row SRAM_UNCORRECTABLE. -/
def execSramUncorrectable (memory index graph : Nat) (s : State) : Host.Outcome State Fault Refusal :=
  done (if 4 < memory then s else sramLost memory index graph false s)

/-! Thermal steps (R423 to R425) -/

/-- Thresholds of a step in 1/16 °C: die and stack rising, die and stack clear (Table 17.2). -/
structure StepLimits where
  dieUp : Int
  stackUp : Int
  dieClear : Int
  stackClear : Int
  deriving DecidableEq, Repr

def warnLimits : StepLimits := ⟨1600, 1440, 1552, 1392⟩
def throttleLimits : StepLimits := ⟨1680, 1520, 1632, 1472⟩
def stopLimits : StepLimits := ⟨1760, 1600, 1520, 1360⟩

/-- The first sensor that two consecutive samples have at or above the rising threshold. -/
def risen (x : StepLimits) (before now : List Int) : Option Nat :=
  (List.range 7).find? (fun k =>
    let t := if k < 3 then x.dieUp else x.stackUp
    decide (k < before.length) && decide (k < now.length) && decide (t ≤ nthD 0 before k) && decide (t ≤ nthD 0 now k))

/-- Whether every sensor is below the clear threshold. -/
def allClear (x : StepLimits) (now : List Int) : Bool :=
  (List.range now.length).all (fun k => decide (nthD 0 now k < if k < 3 then x.dieClear else x.stackClear))

/-- Every lane goes OFF. A test of it ends, and a commit that waited for that end reaches the lane's settings (R172). -/
def lanesOff (s : State) : State :=
  (List.range 64).foldl (fun t l =>
    if (laneOf t l).st = lsOff then t
    else modLane l (fun x =>
      let y := if x.st = lsTest then { x with set := laneSet (posImage s) l, eq := eqSet (posImage s) l, waits := false, test := {} } else x
      { y with st := lsOff, locked := false }) (laneOutOfService l t)) s

/-- Every output at its cold-start state: disabled and low, with what waited to move it gone (R60, R100, R105, R454). -/
def outputsCold (s : State) : State :=
  let low := ((s.pins.filter (·.2)).map (·.1)).foldl (fun t pin => drivePin pin false (psNow t) t) s
  { low with
    trig := { low.trig with trgs := [], acts := [], marks := low.trig.marks.filter (fun m => m.asserted.isNone) }
    pos := { low.pos with divs := [], emus := [] } }

/-- A graph finishes what waits for it: contexts fetched, its re-run run through, its rows taken. -/
def finishGraph (g : Nat) : Nat → State → State
  | 0, s => s
  | k + 1, s =>
    let x := graphOf s g
    if x.held then finishGraph g k (contextFetchDone g s)
    else if x.rerun.isSome then finishGraph g k (rerunComplete g s)
    else if x.inq.isEmpty && x.fwd.isEmpty then s
    else finishGraph g k (graphRow g [] s)

/-- Rows that a gate has released on some of its beds are released on the others. -/
def finishGates (s : State) : State :=
  (List.range 192).foldl (fun t k => match gateOf t k with
    | some g => if g.beds.isEmpty then t else (List.range 8).foldl (fun u b => bedRowEmit b k u) t
    | none => t) s

/-- The last unit of each producer of rows or overview rows carries truncated and degraded. -/
def markLast : List DUnit → List DUnit
  | [] => []
  | u :: t =>
    let last := (u.src.kind == 1 || u.src.kind == 4) && !t.any (fun v => v.src == u.src)
    (if last then { u with flags := u.flags ||| 9 } else u) :: markLast t

/-- Hand every waiting unit to its routes. -/
def handAll : Nat → State → State
  | 0, s => s
  | k + 1, s => handAll k (unitHandoff s)

/-- Row blocks that are open close with truncated and degraded. -/
def closeBlocks (s : State) : State :=
  let marked := setBlocks (s.deliv.blocks.map (fun e => (e.1, { e.2 with unit := { e.2.unit with flags := e.2.unit.flags ||| 9 } }))) s
  (marked.deliv.blocks.map (·.1)).foldl (fun t r => closeRowBlock r t) marked

/-- Every open region closes as FLUSHED with degraded. -/
def flushRegions (s : State) : State :=
  (s.fab.graphs.map (·.1)).foldl (fun t g => match (graphOf t g).run with
    | none => t
    | some run => match labels run.plan with
      | none => t
      | some k =>
        let degraded (x : Region) : Region := { x with acc := { x.acc with flags := x.acc.flags ||| 8 } }
        let lab := { run.ops.lab with regions := run.ops.lab.regions.map (fun e => (e.1, degraded e.2)) }
        let c := closeAll 16 lab
        setRun g { run with ops := { run.ops with lab := c.2 } } (sendClosed run.plan k false c.1 t)) s

/-- Entry to thermal STOP (R425). (DEDUCED, log entry 38) -/
def enterStop (s : State) : State :=
  let s1 := finishGates s
  let s2 := (s1.fab.graphs.map (·.1)).foldl (fun t g =>
    finishGraph g ((graphOf t g).inq.length + (graphOf t g).fwd.length + 4) t) s1
  let s3 := { s2 with handoff := markLast s2.handoff }
  let s4 := closeBlocks (handAll s3.handoff.length s3)
  let s5 := setFault { s4.fault with stop := true } (flushRegions s4)
  let units : Tab TrigUnit := s5.trig.units.map (fun e => (e.1, { e.2 with queue := [], gev := [] }))
  lanesOff (outputsCold { s5 with trig := { s5.trig with units := units } })

/-- The steps that a sample leaves, the one with the higher thresholds first. STOP is left through a start alone.
(DEDUCED, log entry 38) -/
def thermalLeave (now : List Int) (s : State) : State :=
  let s1 := if s.fault.throttle && allClear throttleLimits now then
      raise 0x0D03 1 2 0 0 (setFault { (throttlePeriod s).fault with throttle := false } (throttlePeriod s))
    else s
  if s1.fault.warn && allClear warnLimits now then raise 0x0D03 1 1 0 0 (setFault { s1.fault with warn := false } s1) else s1

/-- The steps that two samples in a row enter, in the order of Table 17.2. (DEDUCED, log entry 38) -/
def thermalEnter (before now : List Int) (s : State) : State :=
  let at' (k : Nat) : Int := nthD 0 now k
  let s1 := if s.fault.warn then s else match risen warnLimits before now with
    | some k => raise 0x0D01 2 k (at' k) 0 (setFault { s.fault with warn := true } s)
    | none => s
  let s2 := if s1.fault.throttle then s1 else match risen throttleLimits before now with
    | some k => raise 0x0D02 3 k (at' k) 0 (setFault { s1.fault with throttle := true, throttleAt := dcNow s1 } s1)
    | none => s1
  if s2.fault.stop then s2
  else match risen stopLimits before now with
    | some k => raise 0x0D04 4 k (at' k) 0 (enterStop s2)
    | none => s2

/-- The highest die reading of a sample. -/
def dieMax (now : List Int) : Int := match now.take 3 with
  | [] => 0
  | t :: l => l.foldl max t

/-- One sample of the seven sensors, and the input power. (DEDUCED, log entry 38) -/
def thermalSample (now : List Int) (power : Nat) (s : State) : State :=
  let f := s.fault
  let early := match f.sampledAt with | some t => decide (since s t < msTicks 1) | none => false
  if s.start.held then
    (if dieMax now < 1520 then fallDue 0 0 none { s with start := { s.start with held := false } } else s)
  else if s.start.rstLow || now.length ≠ 7 || early then s
  else
    let tick := f.history.isEmpty || decide (secTicks 1 ≤ since s f.historyAt)
    let s1 := setFault { f with
      before := f.temps, temps := now, power := power, sampledAt := some (dcNow s)
      history := if tick then (now :: f.history).take 3600 else f.history, historyAt := if tick then dcNow s else f.historyAt
      hotSeconds := if tick && decide (1600 < dieMax now) then f.hotSeconds + 1 else f.hotSeconds } s
    let peak := match s.ev.tjPeak with | some p => max p (dieMax now) | none => dieMax now
    let s2 := thermalEnter f.temps now (thermalLeave now { s1 with ev := { s1.ev with tjPeak := some peak } })
    setFault { s2.fault with alert := s2.fault.warn || s2.fault.throttle || s2.fault.stop } s2

/-- Row THERMAL_SAMPLE (R423). -/
def execThermalSample (temps : List Int) (power : Nat) (s : State) : Host.Outcome State Fault Refusal := done (thermalSample temps power s)

/-! The event limit and the summary's own registers (R428, R429) -/

/-- Row EVENTS_SUPPRESSED: once a second, the excess of each code over 1,000 is reported. (DEDUCED, log entry 35) -/
def execEventsSuppressed (s : State) : Host.Outcome State Fault Refusal :=
  done (if since s s.ev.secondStart < secTicks 1 then s
  else
    let beyond := s.ev.second.filter (fun e => decide (eventLimit < e.2))
    beyond.foldl (fun t e => raise 0x0E02 1 e.1 (e.2 - eventLimit : Nat) 0 t) { s with ev := { s.ev with second := [], secondStart := dcNow s } })

/-- Row FAULT_STICKY_CLEAR: a write of a PF to FAULT_STICKY clears the bits it has at 1. -/
def execFaultStickyClear (fn mask : Nat) (s : State) : Host.Outcome State Fault Refusal :=
  done (if fnIsPf fn && s.start.windowUp then
    { s with ev := { s.ev with sticky := s.ev.sticky ^^^ (s.ev.sticky &&& mask) } } else s)

/-- Row TJ_PEAK_READ: a read by a PF clears the peak. -/
def execTjPeakRead (fn : Nat) (s : State) : Host.Outcome State Fault Refusal :=
  done (if fnIsPf fn && s.start.windowUp then { s with ev := { s.ev with tjPeak := none } } else s)

end Sys2Proof.Machine
end

