-- ==== Sys2Proof/Machine/Sys.lean ====
section
/-! DEFINITION. Mailbox slots, the SYS commands of chapter 2, feature negotiation and tickets (R22 to R40). -/

namespace Sys2Proof.Machine

/-! Slots (R23, R24) -/

/-- Row SLOT_GO: the host writes GO to a slot of a function that exists; before cold start step 3 nothing answers (R467). -/
def execSlotGo (fn slot : Nat) (s : State) : Host.Outcome State Fault Refusal :=
  done (if s.start.windowUp && fnExists s fn && decide (slot < slotCount fn) then slotGo fn slot s else s)

/-- Row SLOT_OVERRUN_CLEAR: a 1 written to OVERRUN clears it. -/
def execSlotOverrunClear (fn slot : Nat) (s : State) : Host.Outcome State Fault Refusal :=
  done (if s.start.windowUp && fnExists s fn && decide (slot < slotCount fn)
    then setSlot fn slot { slotOf s fn slot with overrun := false } s else s)

/-! SYS.NOP -/

/-- Row SYS_NOP. -/
def execSysNop (io : HostIo) (s : State) : Host.Outcome State Fault Refusal :=
  done (serve { code := 0x0000, vf := true, inSafe := true } io (fun s _ p => replyOk p s) s)

/-! Features (R38 to R40) -/

/-- The bits that are always offered; 3 to 5 as the strap permits (Tables 2.8, 14.1). -/
def offeredFeatures (s : State) : Nat :=
  0x7FC7 + 8 + (match s.start.trellisRole with | 1 => 16 | 2 => 16 | 3 => 32 | _ => 0)

/-- The bit that a feature requires (Table 2.8). (DEDUCED, log entry 52) -/
def requiredFeature (bit : Nat) : Nat := match bit with
  | 4 => 3
  | 5 => 3
  | 14 => 1
  | _ => 0

/-- The lowest bit that a map may not have, or lacks (R40). -/
def badFeature (s : State) (map : Nat) : Option Nat :=
  (List.range 256).find? (fun b =>
    if b = 0 then !bitOf map 0
    else bitOf map b && (!bitOf (offeredFeatures s) b || !bitOf map (requiredFeature b)))

/-- Row SYS_GET_FEATURES. -/
def execSysGetFeatures (io : HostIo) (s : State) : Host.Outcome State Fault Refusal :=
  done (serve { code := 0x0001, vf := true, len := some 0 } io (query (fun _ _ => none) (fun s _ =>
    leBytes 32 (offeredFeatures s) ++ leBytes 32 (if s.mbx.locked then s.mbx.accepted else 0) ++ leBytes 4 (b2n s.mbx.locked) ++ zeros 4)) s)

/-- The response of SYS.SET_FEATURES (Table 2.9). -/
def featureReply (status : Nat) (bad : Option Nat) (s : State) : Reply :=
  ⟨status, leBytes 2 (bad.getD 0xFFFF) ++ zeros 2 ++ leBytes 4 (b2n s.mbx.locked), 0, s⟩

/-- SYS.SET_FEATURES (R39, R40). -/
def setFeatures (s : State) (_q : Req) (p : Bytes) : Reply :=
  let map := fld p 0 32
  if s.mbx.locked then featureReply (if map = s.mbx.accepted then stOk else 0x40) none s
  else match badFeature s map with
    | some b => featureReply stBadArg (some b) s
    | none => featureReply stOk none (joinTrellis { s with mbx := { s.mbx with locked := true, accepted := map } })

/-- Row SYS_SET_FEATURES. -/
def execSysSetFeatures (io : HostIo) (s : State) : Host.Outcome State Fault Refusal :=
  done (serve { code := 0x0002, len := some 32 } io setFeatures s)

/-! Tickets (R31, Table 2.11) -/

/-- SYS.TICKET_STATUS. -/
def ticketStatus (s : State) (q : Req) (p : Bytes) : Reply :=
  let n := fld p 0 4
  if !zeroRange p 4 4 then reply stBadArg s
  else match tfind s.mbx.tickets n with
    | none => reply 0x41 s
    | some t =>
      if t.fn != q.fn then reply 0x41 s
      else if !t.done then replyOk (leBytes 2 t.command ++ leBytes 2 stInProgress ++ leBytes 4 0) s
      else replyOk (leBytes 2 t.command ++ leBytes 2 t.status ++ leBytes 4 t.resultLen ++ t.result)
        { s with mbx := { s.mbx with tickets := tdel s.mbx.tickets n } }

/-- Row SYS_TICKET_STATUS. -/
def execSysTicketStatus (io : HostIo) (s : State) : Host.Outcome State Fault Refusal :=
  done (serve { code := 0x0003, vf := true, inSafe := true, len := some 8 } io ticketStatus s)

/-- Row TICKET_EXPIRY: 60 s after its work ended a ticket's response is gone. -/
def execTicketExpiry (ticket : Nat) (s : State) : Host.Outcome State Fault Refusal :=
  done (match tfind s.mbx.tickets ticket with
    | none => s
    | some t => if t.done && decide (secTicks 60 ≤ since s t.doneAt) then { s with mbx := { s.mbx with tickets := tdel s.mbx.tickets ticket } } else s)

end Sys2Proof.Machine
end

