-- ==== Sys2Proof/Machine/Start.lean ====
section
/-! DEFINITION. Resets and starts: the reset pins, cold, device warm and control warm starts, failed starts and the safe state, the
watchdog, and the SYS commands for starts and firmware (chapter 15). -/

namespace Sys2Proof.Machine

/-- Set the start part. -/
def setStart (x : StartSt) (s : State) : State := { s with start := x }

/-- A firmware slot: 0 A, 1 B. -/
def fwSlot (s : State) (n : Nat) : FwSlot := if n = 0 then s.start.slotA else s.start.slotB

/-- Set a firmware slot. -/
def setFwSlot (n : Nat) (x : FwSlot) (s : State) : State :=
  setStart (if n = 0 then { s.start with slotA := x } else { s.start with slotB := x }) s

/-- Header fields of a slot (Table 15.6). -/
def FwSlot.present (f : FwSlot) : Bool := !f.header.isEmpty
def FwSlot.fwVersion (f : FwSlot) : Nat := fld f.header 8 4
def FwSlot.dpLevel (f : FwSlot) : Nat := fld f.header 0x10 2
def FwSlot.confirmed (f : FwSlot) : Bool := fld f.header 0x1F4 4 == 0x3C5AC3A5
def FwSlot.installSeq (f : FwSlot) : Nat := fld f.header 0x1F8 4

/-- The first check of Table 15.7 after the commit mark that an image fails, its last 12 header bytes ignored: header, size, key, signature,
payload hash, security version. (DESIGN CHOICE, log entry 26) -/
def imageReason (b : Bytes) : Nat :=
  let n := fld b 0x14 4
  let key := (b.drop 0x50).take 96
  if !(b.take 4 == [0x4B, 0x50, 0x5A, 0x46] && fld b 4 2 == 1 && zeroRange b 0x12 2 && zeroRange b 0x18 8 && zeroRange b 0x110 228) then 2
  else if n < 1 || 16776704 < n then 3
  else if 3 < fld b 6 2 || Config.keyHash (fld b 6 2) ≠ some (sha384 key) then 4
  else if !ecdsaOk key (sha384 (b.take 0xB0)) ((b.drop 0xB0).take 96) then 5
  else if (b.drop 0x20).take 48 ≠ sha384 ((b.drop 512).take n) then 6
  else if fld b 0x0C 4 < Config.minSecurity then 7
  else 0

/-- The first check of Table 15.7 that a slot fails. -/
def slotReason (header payload : Bytes) : Nat :=
  if fld header 0x1FC 4 ≠ 0xA5C35A3C then 1 else imageReason (header ++ payload)

/-- Whether a slot is valid (R395). -/
def slotValid (s : State) (n : Nat) : Bool := (fwSlot s n).present && (fwSlot s n).reason == 0

/-- A byte of a part of the flash; the part is erased beyond what it lists. -/
def putByte (i b : Nat) (l : Bytes) : Bytes := (l ++ List.replicate (i + 1 - l.length) 0xFF).set i (BitVec.ofNat 8 b)

/-- One byte of the flash changes (Table 15.5). A firmware slot is verified anew, whether it is booted or not (R395); where nothing has
changed, the checks give what they gave. -/
def flashByte (part off b : Nat) (s : State) : State :=
  if part < 2 then
    let f := fwSlot s part
    if 512 + 16776704 ≤ off then s else
      let h := if off < 512 then putByte off b f.header else f.header
      let p := if off < 512 then f.payload else putByte (off - 512) b f.payload
      setFwSlot part ⟨h, p, slotReason h p⟩ s
  else if part = 2 then (if off < 48 then setStart { s.start with board := putByte off b s.start.board } s else s)
  else if part < 5 && off < 65536 then { s with cal := { s.cal with
    slots := tset [] s.cal.slots (part - 3) (putByte off b (tget [] s.cal.slots (part - 3))) } }
  else s

/-- The subsystem identifiers of a board record: those of Table 13.2 where its magic or crc fails (R396). -/
def boardIds (b : Bytes) : Nat × Nat :=
  if b.take 4 == [0x4B, 0x50, 0x5A, 0x42] && fld b 0x2C 4 == crc32c (b.take 0x2C) then (fld b 6 2, fld b 8 2) else (0x1F3D, 0x0001)

/-- The confirmed valid slot with the higher install_seq (R396). -/
def confirmedSlot (s : State) : Option Nat :=
  let l := [0, 1].filter (fun n => slotValid s n && (fwSlot s n).confirmed)
  match l with
  | [0, 1] => some (if s.start.slotA.installSeq < s.start.slotB.installSeq then 1 else 0)
  | n :: _ => some n
  | [] => none

/-- The slots that a cold start tries, in order (R396): one that SYS.FW_RECOVER names, the confirmed ones, the others, each by
install_seq. (DEDUCED, log entry 27) -/
def bootOrder (s : State) (named : Option Nat) : List Nat :=
  let newer := if s.start.slotA.installSeq < s.start.slotB.installSeq then [1, 0] else [0, 1]
  let valid := newer.filter (slotValid s)
  let plain := valid.filter (fun n => (fwSlot s n).confirmed) ++ valid.filter (fun n => !(fwSlot s n).confirmed)
  match named with
  | some n => (if slotValid s n then [n] else []) ++ plain.filter (· != n)
  | none => plain

/-! Resets (R389, R390, R393) -/

/-- The levels at the encoder inputs and GP inputs, which a start does not change. (DEDUCED, log entry 24; DEDUCED, log entry 75) -/
def pinLevels (x : PosSt) : PosSt :=
  { chans := (x.chans.map (fun e => (e.1, ({ a := e.2.a, b := e.2.b, z := e.2.z } : Chan)))).filter (fun e => e.2 != {})
    gps := (x.gps.map (fun e => (e.1, ({ level := e.2.level } : GpIn)))).filter (fun e => e.2 != {}) }

/-- The signal energy at the receivers, which a start does not change. (DEDUCED, log entry 75) -/
def laneEnergy (x : LaneSt) : LaneSt :=
  { lanes := (x.lanes.map (fun e => (e.1, { laneDefault e.1 with energy := e.2.energy }))).filter (fun e => e.2.energy) }

/-- The device with everything reset that a cold start resets, and every output at its cold-start state. What stays: the flash, the
identity storage, the registers that RST_N does not clear, the level of the port reset pins and of the inputs, and the latched straps.
(DEDUCED, log entry 75) -/
def freshState (s : State) : State :=
  let x := s.start
  { pending := s.pending, outbox := (outputsCold s).outbox, draws := s.draws, pos := pinLevels s.pos, lane := laneEnergy s.lane
    start := { due := none, perst := x.perst, trellisRole := x.trellisRole, bootSel := x.bootSel, testEn := x.testEn, slotA := x.slotA
               slotB := x.slotB, board := x.board, coldFails := x.coldFails, w2Fails := x.w2Fails, w1Failed := x.w1Failed, fromSafe := x.safe || x.fromSafe
               coldCount := x.coldCount, w2Count := x.w2Count, w1Count := x.w1Count, held := x.held, tapId := x.tapId }
    cal := { slots := s.cal.slots }
    fab := { sprint := { lifetimeMs := sprintLifeMs s } }
    fault := { hotSeconds := s.fault.hotSeconds } }

/-- Row RST_N_ASSERT: RST_N low for 1 ms. -/
def execRstNAssert (s : State) : Host.Outcome State Fault Refusal :=
  let t := freshState s
  done (setStart { t.start with rstLow := true } t)

/-- Row RST_N_RELEASE: the straps are latched and a cold start with cause POWER_ON falls due, unless a TRIP holds the device. -/
def execRstNRelease (role : Nat) (bootSel testEn : Bool) (s : State) : Host.Outcome State Fault Refusal :=
  done (if !s.start.rstLow then s
    else
      let t := setStart { s.start with
        rstLow := false, trellisRole := role % 4, bootSel := bootSel, testEn := testEn, latched := !s.start.held } s
      if s.start.held then t else fallDue 0 0 none t)

/-- Row PERST: PERSTn_N of a port goes low, which resets the port alone, or high, when it trains. -/
def execPerst (port : Nat) (low : Bool) (unacked : List (Nat × Nat)) (s : State) : Host.Outcome State Fault Refusal :=
  done (if 2 ≤ port || bitOf s.start.perst port == low then s
    else if low then
      let t := setStart { s.start with perst := s.start.perst + 2 ^ port } s
      if (hostPort t port).link < 2 then setHostPort port { upSince := (hostPort t port).upSince } t else portLoss port unacked t
    else setHostPort port { hostPort s port with link := 1 } (setStart { s.start with perst := s.start.perst - 2 ^ port } s))

/-- Row BROWN_OUT: while RST_N is high, a monitored rail has stayed below its threshold for over 1 µs. -/
def execBrownOut (s : State) : Host.Outcome State Fault Refusal :=
  done (if s.start.rstLow then s else fallDue 0 1 none (freshState s))

/-- Row ROOT_PLL_UNLOCK: the cold start that falls due waits for REFCLK_SYS. -/
def execRootPllUnlock (s : State) : Host.Outcome State Fault Refusal :=
  done (if s.start.rstLow then s else fallDue 0 2 none (freshState s))

/-- Row THERMAL_TRIP: the hardware sensor of the die reaches 115 °C; the device holds itself in reset until the die is below 95 °C. -/
def execThermalTrip (temp : Int) (s : State) : Host.Outcome State Fault Refusal :=
  let t := freshState s
  done (if temp < 1840 || s.start.held then s else setStart { t.start with held := true, rstLow := s.start.rstLow } t)

/-! The safe state (R403) -/

/-- Enter the safe state from a device that has just been reset: the boot ROM answers on slot 0 of each PF. -/
def enterSafe (cause stage : Nat) (s : State) : State :=
  { s with
    start := { s.start with
      safe := true, safeCause := cause, stage := stage, ready := false, windowUp := true, blocksUp := false, due := none, runningSlot := none
      trial := false, fwVersion := 0, dpLevel := 0 }
    mbx := { s.mbx with answering := true } }

/-! Mailbox ready -/

/-- A start reaches mailbox ready: the slots are IDLE, START_COMPLETE is raised and START_DONE set in both PFs. -/
def mailboxReady (stage : Nat) (s : State) : State :=
  let x := s.start
  let s1 := { s with
    start := { x with
      stage := stage, ready := true, due := none, w1Running := false, torn := false, injected := false, idleSince := some (dcNow s)
      stageDc := dcNow s, keptAt := if x.kind = 1 then some (dcNow s) else x.keptAt, succeeded := false, watchdogAt := dcNow s, watchdogStopped := false, lastHeartbeat := dcNow s }
    mbx := { s.mbx with answering := true } }
  let s2 := raiseFrom x.injected 0x0E01 1 (x.kind + x.cause * 256) x.durationMs 0 s1
  raiseCause 4 64 (raiseCause 4 0 s2)

/-- The image of a slot runs. -/
def runSlot (n : Nat) (s : State) : State :=
  let f := fwSlot s n
  setStart { s.start with runningSlot := some n, trial := !f.confirmed, fwVersion := f.fwVersion, dpLevel := f.dpLevel } s

/-! Cold start (R391, R396, R398, R272) -/

/-- The slots of a tile whose engines the built-in test has retired. (DEDUCED, log entry 24) -/
def missingSlots (retired : List Nat) (tile : Nat) : List Nat :=
  (List.range 16).filter (fun k => retired.contains (slotEngine (tile * 16 + k)))

/-- The fabric after the built-in test: the spare takes the place of the first missing engine of its tile, and each further one costs a
slot (R272). -/
def testedFab (retired : List Nat) : Fab :=
  (List.range 32).foldl (fun f tile =>
    let bad := missingSlots retired tile
    if retired.contains (spareEngine tile) then { f with lost := f.lost ++ bad.map (· + tile * 16) }
    else match bad with
      | [] => f
      | k :: rest => { f with spareAt := tput f.spareAt tile k, lost := f.lost ++ rest.map (· + tile * 16) })
    ({ retired := retired } : Fab)

/-- Take the calibrations of a start, of every lane and quad (R411): lanes are OFF, so their trims apply at once. What the operand does not
give is free. (DESIGN CHOICE, log entry 73) -/
def takeRuns (runs : List (Nat × CalRuns)) (s : State) : State :=
  draw ((calTargets.filter (fun k => k / 256 ≤ 1)).foldl (fun t k =>
    let t1 := calFinish k ((tfind runs k).getD (Config.startRuns s.draws k)) t
    if k / 256 = calLane then calApply k t1 else t1) s)

/-- The trims of a cold start, from the sensor readings then (R410); both lines of a twin take them. (DESIGN CHOICE, log entry 73) -/
def loadTrims (s : State) : State :=
  draw (calTargets.foldl (fun t k =>
    let x := calTarget t k
    let temp := Config.sensorReading s.draws k
    let codes := targetCodes k x temp
    setCal k { x with active := codes, idle := if k / 256 = calTrg || k / 256 = calPps then codes else x.idle, appliedTemp := temp, tempNow := temp } t) s)

/-- Steps 6 to 12 of a cold start. (DESIGN CHOICE, log entry 23; DEDUCED, log entry 24; DEDUCED, log entry 77) -/
def coldFinish (f : ColdFacts) (slot : Nat) (s : State) : State :=
  let s1 := runSlot slot { s with
    start := { s.start with blocksUp := true, subsystem := boardIds s.start.board }
    fab := { s.fab with fab := testedFab (f.retired.filter (· < 544)).eraseDups }
    stat := { s.stat with startDc := f.dc, origin := f.dc, lastBoundary := f.dc } }
  let s2 := f.failed.foldl (fun t e => if e.1 < 4 && e.2 < 16 then failChannel e.1 e.2 t else t) s1
  let due := s2.start.due
  let s3 := mailboxReady 12 (takeRuns f.runs (loadTrims (loadFields s2)))
  setStart { s3.start with due := due } s3

/-- A cold start, from step 1 to mailbox ready or the safe state. -/
def coldStart (f : ColdFacts) (s : State) : State := match s.start.due with
  | none => s
  | some d =>
    if d.kind ≠ 0 || s.start.rstLow || s.start.held then s
    else
      let t := freshState s
      let x := t.start
      let y : StartSt := if s.start.latched then x else { x with trellisRole := f.role % 4, bootSel := f.bootSel, testEn := f.testEn }
      let t1 := { t with
        start := { y with kind := 0, cause := d.cause, startDc := 0, durationMs := f.ms, windowUp := true, coldCount := x.coldCount + 1 }
        time := { dc := f.dc } }
      let t2 := f.flash.foldl (fun u e => flashByte e.1 e.2.1 e.2.2 u) t1
      if y.bootSel then enterSafe 3 4 t2
      else if y.testEn then enterSafe 4 4 t2
      else match bootOrder t2 d.slot with
        | [] => enterSafe 2 4 t2
        | n :: _ => coldFinish f n t2

/-- Row COLD_START. (DESIGN CHOICE, log entry 2; DESIGN CHOICE, log entry 23) -/
def execColdStart (facts : ColdFacts) (s : State) : Host.Outcome State Fault Refusal := done (coldStart facts s)

/-! Device warm start (R399, R400, Tables 15.11, 15.13, 20.5) -/

/-- What a W2 keeps of a lane: its values, for the lane's next commit. Of a lane that is OFF, what an earlier W2 kept, while it stands. -/
def keepLane (l : Nat) (still : Bool) (x : Lane) : Lane :=
  { laneDefault l with
    energy := x.energy
    kept := if x.set.mode = 0 then (if still then x.kept else none) else some ⟨x.set, x.eq, x.coeffs, x.anchor, x.hasAnchor, x.pre, x.post⟩ }

/-- What a W2 keeps of a view: its value, rate and epoch (R115). (DEDUCED, log entry 25) -/
def keepView (x : View) : View :=
  { baseDc := x.baseDc, baseNs := x.baseNs, rate := x.rate, heldRate := x.heldRate, epoch := x.epoch, freq := x.freq, phase := x.phase
    phaseUntil := x.phaseUntil }

/-- What a W2 keeps of a calibration target. -/
def keepTarget (x : CalTarget) : CalTarget :=
  { x with waiting := none, deferred := false, running := none, due := false, tickets := [], waits := [] }

/-- Steps 1 and 2 of a W2: START_BEGIN, the period closed with cause START, and the data path down. Thermal STOP is left only by the W2 of
a SYS.RESTART (R425); every W2 that begins is counted (Table 15.17). -/
def warmBegin (s : State) : State :=
  let s0 := raiseCause 3 64 (raiseCause 3 0 { s with start := { s.start with w2Count := s.start.w2Count + 1 } })
  let asked := match s.start.due with | some d => d.cause == 3 | none => false
  if s.start.torn then { s0 with start := { s0.start with startDc := dcNow s0, durationMs := 0, recalibrated := false } }
  else
    let s1 := closePeriod s0.pos.sp.pos 3 false (genNow s0) (digestNow s0) s0
    let t := freshState s1
    let x := s1.start
    { t with
      win := { s1.win with
        fns := s1.win.fns.map (fun e => (e.1, { e.2 with spin := ({} : FnRegs).spin }))
        slots := s1.win.slots.map (fun e => (e.1, { e.2 with st := 0 })) }
      mbx := { nextTicket := s1.mbx.nextTicket }
      stat := { snap := s1.stat.snap, hdr := s1.stat.hdr }
      ev := { s1.ev with injecting := false }
      time := { dc := s1.time.dc, views := s1.time.views.map (fun e => (e.1, keepView e.2)), past := s1.time.past
                sel := { s1.time.sel with healthySince := none, kept := true } }
      start := { x with torn := true, ready := false, w1Running := false, stage := 2, startDc := dcNow s1, recalibrated := false, idleSince := none }
      lane := { lanes := s1.lane.lanes.map (fun e => (e.1, keepLane e.1 (keptLanes s1) e.2)) }
      fab := { t.fab with sprint := sprintPast s1, fab := { ({} : Fab) with
        retired := s1.fab.fab.retired, spareAt := s1.fab.fab.spareAt, lost := s1.fab.fab.lost, transients := s1.fab.fab.transients } }
      fault := { s1.fault with stop := s1.fault.stop && !asked, throttled := false, uncorrectable := [], snapshot := none, inject := none }
      trel := { identity := s1.trel.identity }
      cal := { s1.cal with targets := s1.cal.targets.map (fun e => (e.1, keepTarget e.2)), storeTicket := none }
      deliv := { ports := s1.deliv.ports }
      ing := { lb := { lostStacks := stacksMarked s1 } } }

/-- Whether step 6 recalibrates: a quad has left the ±10 °C around the temperature of its trims in force. -/
def warmRecalibrates (f : WarmFacts) (s : State) : Bool :=
  f.quads.any (fun e => decide (160 < (e.2 - (calTarget s (256 + e.1)).appliedTemp).natAbs))

/-- Steps 3 to 7 of a W2. (DESIGN CHOICE, log entry 23; DEDUCED, log entry 25) -/
def warmFinish (f : WarmFacts) (slot : Nat) (s : State) : State :=
  let s1 := runSlot slot { s with
    time := { s.time with dc := ahead s (msTicks f.ms) }
    start := { s.start with blocksUp := true, durationMs := f.ms, recalibrated := warmRecalibrates f s } }
  let s2 := { s1 with stat := { s1.stat with startDc := dcNow s1, origin := dcNow s1, lastBoundary := dcNow s1 } }
  mailboxReady 7 (if warmRecalibrates f s then takeRuns f.runs s2 else s2)

/-! Failed starts (R402) -/

/-- The slot that a failed start's image is replaced from: the confirmed one where the image was on trial. -/
def retrySlot (failed : Option Nat) (s : State) : Option Nat := match failed with
  | some n => if (fwSlot s n).confirmed then some n else (match confirmedSlot s with | some k => some k | none => some n)
  | none => confirmedSlot s

/-- The whole ms since a start fell due, which is its duration when it fails. -/
def dueMs (s : State) : Nat := match s.start.due with
  | some d => since s d.startDc / msTicks 1
  | none => 0

/-- A start of a kind, for a cause, has failed at a step after some ms: W1 to W2, the third W2 to cold, the third cold start to the safe
state. `s` is the device as the start has left it. (DEDUCED, log entry 27) -/
def failStart (kind cause stage ms : Nat) (slot : Option Nat) (s : State) : State :=
  let x : StartSt := { s.start with kind := kind, cause := cause, stage := stage, durationMs := ms, due := none }
  match kind with
  | 0 =>
    let n := min 3 (x.coldFails + 1)
    let t := setStart { x with coldFails := n } s
    if x.fromSafe || n = 3 then enterSafe 1 stage t else fallDue 0 5 none t
  | 1 =>
    let n := min 3 (x.w2Fails + 1)
    let t := setStart { x with w2Fails := n } s
    if n = 3 then fallDue 0 5 none t else fallDue 1 5 (retrySlot slot s) t
  | _ =>
    let t := setStart { x with w1Failed := true, w1Running := false } s
    fallDue 1 5 (retrySlot slot s) { t with mbx := { t.mbx with answering := false } }

/-- The firmware slot of a due start: the one it was told, else the one that runs. -/
def dueSlot (d : DueStart) (s : State) : Option Nat := match d.slot with
  | some n => some n
  | none => s.start.runningSlot

/-- A W2. With two stacks marked it fails at step 4 (R422). -/
def warmStart (f : WarmFacts) (s : State) : State := match s.start.due with
  | none => s
  | some d =>
    if d.kind ≠ 1 || s.start.rstLow || s.start.held then s
    else
      let t0 := warmBegin s
      let t := setStart { t0.start with kind := 1, cause := d.cause } t0
      match dueSlot d t with
      | none => failStart 1 d.cause 3 f.ms none t
      | some n =>
        if !slotValid t n then failStart 1 d.cause 3 f.ms (some n) t
        else if 2 ≤ (setBits 4 (stacksMarked t)).length then failStart 1 d.cause 4 f.ms (some n) t
        else warmFinish f n t

/-- Row DEVICE_WARM_START. (DESIGN CHOICE, log entry 23) -/
def execDeviceWarmStart (facts : WarmFacts) (s : State) : Host.Outcome State Fault Refusal := done (warmStart facts s)

/-! Control warm start (R33, R401) -/

/-- A late value whose request the Headstock still holds goes with the request: a command that a W1 interrupts has no effect (R33). -/
def dropLate (s : State) : State := match s.mbx.hold with
  | some k => if 64 ≤ k.head then setTrigUnit (k.head - 64) { trigUnit s (k.head - 64) with late := none } s else s
  | none => s

/-- The jobs that requests and tickets of the host have given to the heads go with them: what is not sent yet is not sent, and what was is
not sent again (R33). -/
def dropProxies (s : State) : State := (s.cam.heads.map (·.1)).foldl (fun t h => modHead h (fun x => { x with
  jobs := x.jobs.filter (fun j => decide (j.tag < 3))
  out := match x.out with | some o => (if o.job.tag < 3 then some o else none) | none => none }) t) s

/-- Step 1 of a W1: the slots go OFFLINE. Commit preparation that is running is interrupted, and begins again at step 3 (R45, R401): none
ends while the W1 runs. Preparation that has ended stands. -/
def controlBegin (d : DueStart) (s0 : State) : State :=
  let s := dropProxies (dropLate s0)
  let s1 := { s with
    mbx := { s.mbx with answering := false }
    start := { s.start with
      w1Running := true, kind := 2, cause := d.cause, stage := 1, ready := false, startDc := dcNow s, durationMs := 0, idleSince := none
      w1Count := s.start.w1Count + 1, recalibrated := false } }
  raiseCause 3 64 (raiseCause 3 0 s1)

/-- Requests that a W1 interrupted are answered FAULT with fault_code 1, and outstanding tickets end so (R33). (DEDUCED, log entry 25) -/
def interruptRequests (s : State) : State :=
  let waiting := (match s.mbx.hold with | some h => [h.req] | none => []) ++ s.mbx.inbox
  let s1 := waiting.foldl (fun t q => putResponse q stFault (leBytes 4 1) 4 0 t) { s with mbx := { s.mbx with inbox := [], hold := none } }
  (s1.mbx.tickets.map (·.1)).foldl (fun t n => closeTicket n stFault (leBytes 4 1) true t) s1

/-- The slots with a request that the Headstock had taken. -/
def busySlots (m : Mbx) : List Nat :=
  ((match m.hold with | some h => [h.req] | none => []) ++ m.inbox).map (fun q => q.fn * 64 + q.slot)

/-- Every slot that was not BUSY reads IDLE after a W1 (R33). -/
def idleSlots (before : Mbx) (keys : List Nat) (s : State) : State := { s with win := { s.win with
  slots := (keys.filter (fun k => !(busySlots before).contains k)).foldl (fun t k => tmod {} t k (fun x => { x with st := 0 })) s.win.slots } }

/-- Steps 2 to 4 of a W1. (DESIGN CHOICE, log entry 23; DEDUCED, log entry 25) -/
def controlFinish (d : DueStart) (ms : Nat) (s : State) : State := match dueSlot d s with
  | none => failStart 2 d.cause 2 ms none s
  | some n =>
    if !slotValid s n || (fwSlot s n).dpLevel ≠ s.start.dpLevel then failStart 2 d.cause 2 ms (some n) s
    else
      let s1 := runSlot n (setStart { s.start with durationMs := ms } s)
      let s2 := interruptRequests { s1 with fault := { s1.fault with snapshot := none } }
      mailboxReady 4 (idleSlots s.mbx (s.win.slots.map (·.1)) s2)

/-- A W1: the first occurrence is its step 1, the second its end `ms` later; the data path runs between them. -/
def controlStart (ms : Nat) (s : State) : State := match s.start.due with
  | none => s
  | some d =>
    if d.kind ≠ 2 || s.start.rstLow || s.start.held then s
    else if s.start.w1Running then controlFinish d ms s
    else controlBegin d s

/-- Row CONTROL_WARM_START. (DESIGN CHOICE, log entry 23) -/
def execControlWarmStart (ms : Nat) (s : State) : Host.Outcome State Fault Refusal := done (controlStart ms s)

/-- A start that fails has begun: a cold start is counted with the device reset, a W2 has taken the data path down, a W1 the slots. -/
def failBegin (d : DueStart) (s : State) : State := match d.kind with
  | 0 =>
    let t := freshState s
    setStart { t.start with coldCount := t.start.coldCount + 1, startDc := 0 } t
  | 1 => warmBegin s
  | _ => if s.start.w1Running then s else controlBegin d s

/-- Row START_FAILURE: the start in progress errors at a step, or does not reach mailbox ready in its bound. (DEDUCED, log entry 27) -/
def execStartFailure (stage : Nat) (s : State) : Host.Outcome State Fault Refusal :=
  done (match s.start.due with
    | none => s
    | some d =>
      if s.start.rstLow || s.start.held then s
      else failStart d.kind d.cause stage (dueMs s) (dueSlot d s) (failBegin d s))

/-! The watchdog and successful starts (R397, R402) -/

/-- Row WATCHDOG: 100 ms without service. (DESIGN CHOICE, log entry 28) -/
def execWatchdog (s : State) : Host.Outcome State Fault Refusal :=
  done (if !s.mbx.answering || s.start.safe || s.start.due.isSome || decide (since s s.start.watchdogAt < msTicks 100) then s
    else watchdogStart (setStart { s.start with idleSince := none, injected := s.start.watchdogStopped } s))

/-- Row START_SUCCESS: the slots have been IDLE for 10 s without a watchdog expiry; the failure counts clear. -/
def execStartSuccess (s : State) : Host.Outcome State Fault Refusal :=
  done (match s.start.idleSince with
    | some t =>
      if s.start.succeeded || decide (since s t < secTicks 10) then s
      else setStart { s.start with succeeded := true, coldFails := 0, w2Fails := 0, w1Failed := false, fromSafe := false } s
    | none => s)

/-! SYS commands (Tables 15.14 to 15.17) -/

/-- Whether every sensor is below its STOP clear threshold, or the device is not in STOP (R425). -/
def stopCleared (s : State) : Bool := !s.fault.stop || allClear stopLimits s.fault.temps

/-- SYS.RESTART (R403, R404, R407, R425). -/
def sysRestart (s : State) (_q : Req) (p : Bytes) : Reply :=
  let k := fld p 0 1
  if !(decide (k ≤ 2) && zeroRange p 1 7) then reply stBadArg s
  else if k ≠ 0 && !stopCleared s then reply stBadState s
  else reply stOk (fallDue (2 - k) 3 none s)

/-- Row SYS_RESTART. -/
def execSysRestart (io : HostIo) (s : State) : Host.Outcome State Fault Refusal :=
  done (serve { code := 0x0010, len := some 8, exempt := true, inSafe := true } io sysRestart s)

/-- slot_state to fw_version of a slot (Table 15.17). -/
def slotInfo (f : FwSlot) : Bytes :=
  let st := if !f.present then 0 else if f.reason ≠ 0 then 1 else if f.confirmed then 3 else 2
  leBytes 1 st ++ leBytes 1 f.reason ++ leBytes 2 f.dpLevel ++ leBytes 4 f.fwVersion

/-- The SYS.GET_START_INFO response (Table 15.17). -/
def startInfo (s : State) : Bytes :=
  let x := s.start
  leBytes 1 x.kind ++ leBytes 1 x.cause ++ leBytes 1 x.stage ++ leBytes 1 (b2n x.safe + 2 * b2n x.trial + 4 * b2n x.recalibrated)
    ++ leBytes 1 x.safeCause ++ leBytes 1 (x.runningSlot.getD 0xFF) ++ leBytes 1 x.coldFails ++ leBytes 1 x.w2Fails
    ++ leBytes 4 x.durationMs ++ zeros 4 ++ leBytes 8 x.startDc ++ slotInfo x.slotA ++ slotInfo x.slotB
    ++ leBytes 4 x.coldCount ++ leBytes 4 x.w2Count ++ leBytes 4 x.w1Count ++ zeros 12

/-- Row SYS_GET_START_INFO. -/
def execSysGetStartInfo (io : HostIo) (s : State) : Host.Outcome State Fault Refusal :=
  done (serve { code := 0x0011, len := some 0, exempt := true, inSafe := true } io (query (fun _ _ => none) (fun s _ => startInfo s)) s)

/-- The slot that SYS.FW_WRITE writes; none where it names the running one. In the safe state 0xFF names a slot that is not valid, else
the older one. -/
def writeSlot (s : State) (n : Nat) : Option Nat := match s.start.runningSlot with
  | some r => if n = 0xFF then some (1 - r) else if n = r then none else some n
  | none => if n ≠ 0xFF then some n else if !slotValid s 0 then some 0 else if !slotValid s 1 then some 1
      else some (if s.start.slotA.installSeq ≤ s.start.slotB.installSeq then 0 else 1)

/-- SYS.FW_WRITE (R405): a good image's slot is erased, and programmed as the ticket's work. (DESIGN CHOICE, log entry 26) -/
def fwWrite (s : State) (q : Req) (p : Bytes) : Reply :=
  let n := fld p 0 1
  let img := p.drop 8
  let shape := reqIndirect q.flags && decide (520 ≤ p.length) && (decide (n ≤ 1) || n == 0xFF) && zeroRange p 1 7
  match writeSlot s n with
  | none => reply stBadArg s
  | some k =>
    if !shape then reply stBadArg s
    else if s.start.trial then reply 0x44 s
    else if !(ticketsRunning s 0x0012).isEmpty then reply stBusy s
    else
      let r := imageReason img
      if r ≠ 0 then ⟨0x42, leBytes 1 r ++ zeros 7, 0, s⟩
      else if img.length ≠ 512 + fld img 0x14 4 then reply stBadArg s
      else issueTicket q (leBytes 1 k) (fun _ t =>
        setFwSlot k ⟨img.take 0x1F4 ++ List.replicate 12 0xFF, img.drop 512, 1⟩ t) s

/-- Row SYS_FW_WRITE. -/
def execSysFwWrite (io : HostIo) (s : State) : Host.Outcome State Fault Refusal :=
  done (serve { code := 0x0012, inSafe := true } io fwWrite s)

/-- The end of SYS.FW_WRITE's work: the slot holds the image with the other slot's install_seq plus 1, or on a flash error is left
without commit_mark. (DESIGN CHOICE, log entry 26) -/
def fwWriteEnd (good : Bool) (args : Bytes) (s : State) : Nat × Bytes × State :=
  let k := fld args 0 1
  let f := fwSlot s k
  if !good then (0x47, [], s)
  else
    let n := ((fwSlot s (1 - k)).installSeq + 1) % 2 ^ 32
    (stOk, leBytes 1 k ++ zeros 3 ++ leBytes 4 n
    , setFwSlot k { f with header := f.header.take 0x1F8 ++ leBytes 4 n ++ leBytes 4 0xA5C35A3C, reason := 0 } s)

/-- SYS.FW_ACTIVATE (R406, R407). -/
def fwActivate (s : State) (_q : Req) (p : Bytes) : Reply :=
  let mode := fld p 0 1
  let n := fld p 1 1
  if !(decide (mode ≤ 1) && decide (n ≤ 1) && zeroRange p 2 6) then reply stBadArg s
  else if s.start.trial then reply 0x44 s
  else if !slotValid s n || (fwSlot s n).confirmed then reply 0x45 s
  else if mode = 0 && (fwSlot s n).dpLevel ≠ s.start.dpLevel then reply 0x43 s
  else reply stOk (fallDue (2 - mode) 6 (some n) s)

/-- Row SYS_FW_ACTIVATE. -/
def execSysFwActivate (io : HostIo) (s : State) : Host.Outcome State Fault Refusal :=
  done (serve { code := 0x0013, len := some 8 } io fwActivate s)

/-- SYS.FW_CONFIRM: the confirm_mark of the running slot; `good` says that the flash took it. -/
def fwConfirm (good : Bool) (s : State) (_q : Req) (_p : Bytes) : Reply := match s.start.runningSlot with
  | some n =>
    if !s.start.trial then reply 0x46 s
    else if !good then reply 0x47 s
    else
      let f := fwSlot s n
      let t := setFwSlot n { f with header := f.header.take 0x1F4 ++ leBytes 4 0x3C5AC3A5 ++ f.header.drop 0x1F8 } s
      reply stOk (setStart { t.start with trial := false } t)
  | none => reply 0x46 s

/-- Row SYS_FW_CONFIRM. -/
def execSysFwConfirm (io : HostIo) (good : Bool) (s : State) : Host.Outcome State Fault Refusal :=
  done (serve { code := 0x0014, len := some 0 } io (fwConfirm good) s)

/-- SYS.FW_RECOVER: in the safe state only, a cold start from the named slot. (DEDUCED, log entry 27) -/
def fwRecover (s : State) (_q : Req) (p : Bytes) : Reply :=
  if !s.start.safe then reply stBadState s
  else if !(decide (fld p 0 1 ≤ 1) && zeroRange p 1 7) then reply stBadArg s
  else reply stOk (fallDue 0 7 (some (fld p 0 1)) s)

/-- Row SYS_FW_RECOVER. -/
def execSysFwRecover (io : HostIo) (s : State) : Host.Outcome State Fault Refusal :=
  done (serve { code := 0x0015, len := some 8, inSafe := true } io fwRecover s)

/-! What a W2 kept (R400) -/

/-- Row KEPT_LANE_VALUES_EXPIRY: 60 s after mailbox ready the kept values are discarded. -/
def execKeptLaneValuesExpiry (s : State) : Host.Outcome State Fault Refusal :=
  done (match s.start.keptAt with
    | some t =>
      if since s t < secTicks 60 then s
      else { s with lane := { s.lane with lanes := s.lane.lanes.map (fun e => (e.1, { e.2 with kept := none })) } }
    | none => s)

end Sys2Proof.Machine
end

