-- ==== Sys2Proof/Machine/Window.lean ====
section
/-! DEFINITION. The direct register window (chapter 20): what its registers show, and what a write does; SMBus (R461) and JTAG (R442). -/

namespace Sys2Proof.Machine

/-- A 32-bit word of a list of words. -/
def wordAt (l : List Nat) (i : Nat) : Nat := nthD 0 l i % 2 ^ 32

/-- A 32-bit word of a byte string. -/
def wordOf (b : Bytes) (off : Nat) : Nat := fld b off 4

/-! What registers show -/

/-- The identity and status block (Table 20.3), with the differences that a VF's block has (R466). (DESIGN CHOICE, log entry 11) -/
def identityReg (f : Fn) (off : Nat) (s : State) : Nat :=
  let x := s.start
  let pf := fnIsPf f
  match off with
  | 0x00 => 0x1F3D + 65536 * (if pf then 0x4816 else 0x4817)
  | 0x04 => 0xB1 + 256
  | 0x08 => if pf then Config.eui64 % 2 ^ 32 else fnField f
  | 0x0C => if pf then Config.eui64 / 2 ^ 32 % 2 ^ 32 else 0
  | 0x10 => if pf then x.fwVersion % 2 ^ 32 else 0
  | 0x14 => if pf then x.dpLevel % 65536 + 65536 * (x.runningSlot.getD 3) + 2 ^ 18 * b2n x.trial else 0
  | 0x18 => x.stage % 256 + 256 * x.kind + 65536 * (x.cause % 256) + 2 ^ 24 * b2n x.ready + 2 ^ 25 * b2n x.safe
  | 0x1C => if pf then x.trellisRole + 4 * b2n x.bootSel + 8 * b2n x.testEn + 256 * fnPort f + 512 * b2n s.mbx.locked else 0
  | 0x20 => if pf then dcNow s % 2 ^ 32 else 0
  | 0x24 => if pf then (fnRegs s f).dcHi else 0
  | 0x28 => x.heartbeat
  | 0x2C => (fnRegs s f).scratch
  | _ => 0

/-- The configuration identity of a function, by field of its PCI configuration header (Table 13.2): IDs, Revision ID with the class code
above it, and of a PF the subsystem IDs. Every other field of the identity reads 0: header type 0x00, Interrupt Pin 0x00. -/
def configIdentity (f : Fn) (off : Nat) (s : State) : Nat :=
  let pf := fnIsPf f
  match off with
  | 0x00 => if pf then 0x1F3D + 65536 * 0x4816 else 0xFFFF + 65536 * 0xFFFF
  | 0x08 => 0xB1 + 256 * 0x120000
  | 0x2C => s.start.subsystem.1 + 65536 * s.start.subsystem.2
  | _ => 0

/-- The SR-IOV VF Device ID of a PF (Table 13.2). -/
def vfDeviceId : Nat := 0x4817

/-- A capability of Table 13.3. -/
inductive Capability where
  | powerManagement | msix | pciExpress | aer | serialNumber | secondary | dataLink | gt16 | gt32 | gt64 | margining | ari | sriov
  deriving DecidableEq, Repr

/-- The capability list of a function: offset and capability, those of a PF or of a VF; no other is reported (R330, Table 13.3). -/
def capabilityList (pf : Bool) : List (Nat × Capability) :=
  let both : List (Nat × Capability) := [(0x040, .powerManagement), (0x050, .msix), (0x070, .pciExpress), (0x100, .aer), (0x2C0, .ari)]
  if pf then both ++ [(0x140, .serialNumber), (0x150, .secondary), (0x180, .dataLink), (0x1C0, .gt16), (0x200, .gt32), (0x240, .gt64),
    (0x280, .margining), (0x300, .sriov)] else both

/-- What the SR-IOV capability of a PF reports (R332): TotalVFs, First VF Offset, VF Stride and the supported page size in bytes. -/
def sriovReport : Nat × Nat × Nat × Nat := (63, 1, 1, 4096)

/-- The size of a memory BAR of a function in bytes, 0 where it is not implemented (R331, Table 13.4). -/
def barSize (pf : Bool) (bar : Nat) : Nat := if bar = 0 then (if pf then 0x800000 else 0x10000) else if bar = 2 && pf then 0x10000 else 0

/-- The Device Serial Number of a PF: the device EUI-64. -/
def serialNumber : Nat := Config.eui64

/-- The interrupt control block (Table 20.4). -/
def interruptReg (f : Fn) (off : Nat) (s : State) : Nat :=
  let r := fnRegs s f
  match off with
  | 0x00 => r.cause
  | 0x04 => r.enable
  | 0x08 => r.ticketDone
  | 0x10 => r.mboxDone % 2 ^ 32
  | 0x14 => r.mboxDone / 2 ^ 32
  | 0x18 => 256 + 2 * 65536
  | _ => 0

/-- SLOT_STATE (Table 2.2). -/
def slotReg (f : Fn) (n : Nat) (s : State) : Nat := slotState s f n + 4 * b2n (slotOf s f n).overrun + 65536 * (slotOf s f n).seqLow

/-- The header of the last event of severity FAULT or CRITICAL (Table 17.6). -/
def lastFaultHeader (s : State) : Bytes := match s.ev.lastFault with
  | some e => eventHeader e
  | none => zeros 32

/-- The fault summary (Table 17.6). -/
def faultReg (off : Nat) (s : State) : Nat := match off with
  | 0x00 => faultStatus s
  | 0x04 => s.ev.sticky
  | 0x08 => s.fab.fab.retired.length + 1024 * (tilesWithoutSpare s).length + 65536 * s.fab.fab.lost.length
  | 0x0C => patternOf 16 (dieMax s.fault.temps)
  | 0x10 => patternOf 16 (s.ev.tjPeak.getD 0)
  | 0x14 => s.ev.seq
  | n => if 0x20 ≤ n then wordOf (lastFaultHeader s) (n - 0x20) else 0

/-- A transmit timestamp queue block (Table 5.7); ENTRY0 is the word that its read pops. -/
def txqReg (port off : Nat) (s : State) : Nat :=
  let q := txq s port
  if !txqLive s port then 0
  else match off with
    | 0x00 => q.entries.length + 256 * b2n q.overflow + 512
    | 0x04 => q.drops
    | n => if 8 ≤ n then wordAt q.latched ((n - 8) / 4) else 0

/-- The snapshot: header and counters (Table 2.19, R58). -/
def snapReg (off : Nat) (s : State) : Nat :=
  if off < 64 then wordOf (snapHeader s.stat.hdr) off
  else if 0x1000 ≤ off then
    let v := snapWord (tget 0 s.stat.snap ((off - 0x1000) / 8))
    if off % 8 = 0 then v % 2 ^ 32 else v / 2 ^ 32
  else 0

/-- What a view block reads before its first latch: the Reset column of Table 5.1, views 0 to 7 and TV_SEL at 8.
(DEDUCED, log entry 17) -/
def viewBlockReset (v : Nat) : List Nat := [0, 0, 0, 0, 0, if v = 8 then 0x700 else if v = 7 then 64 else 4, 0, 0]

/-- The blocks that answer from cold start step 11 on, outside the safe state (R467): PF BAR0 from the timestamp queues to the spindle. -/
def lateReg (f : Fn) (off : Nat) (s : State) : Nat :=
  if !s.start.blocksUp then 0
  else if decide (0x200000 ≤ off) && decide (off < 0x200000 + 49 * 0x40) then txqReg ((off - 0x200000) / 0x40) (off % 0x40) s
  else if decide (0x300000 ≤ off) && decide (off < 0x301000 + 16 * 0x8000) then snapReg (off - 0x300000) s
  else if decide (0x400000 ≤ off) && decide (off < 0x400240) then
    wordAt (tget (viewBlockReset ((off - 0x400000) / 0x40)) (fnRegs s f).views ((off - 0x400000) / 0x40)) (off % 0x40 / 4)
  else if decide (0x408000 ≤ off) && decide (off < 0x408020) then wordAt (fnRegs s f).spin ((off - 0x408000) / 4)
  else 0

/-- A word of an MSI-X table of a function; its PBA. (PRESUMED, log entry 19) -/
def msixReg (f : Fn) (off : Nat) (s : State) : Nat :=
  let e := tget {} s.win.msix (f * 1024 + off / 16)
  match off % 16 with
  | 0 => e.addrLo
  | 4 => e.addrHi
  | 8 => e.data
  | _ => b2n e.masked
def pbaReg (f : Fn) (word : Nat) (s : State) : Nat :=
  sumBy (fun i => 2 ^ i * b2n (tget false s.win.pba (f * 1024 + 32 * word + i))) (List.range 32)

/-- A 32-bit register of BAR0 of a PF (Table 20.1). -/
def pfReg (f : Fn) (off : Nat) (s : State) : Nat :=
  if off < 0x1000 then identityReg f off s
  else if off < 0x1020 then interruptReg f (off - 0x1000) s
  else if decide (0x8000 ≤ off) && decide (off < 0x8400) then (if off % 16 = 4 then slotReg f ((off - 0x8000) / 16) s else 0)
  else if decide (0x10000 ≤ off) && decide (off < 0x90000) then
    leNat (slotRead s f ((off - 0x10000) / 0x2000) ((off - 0x10000) % 0x2000) 4)
  else if decide (0x500000 ≤ off) && decide (off < 0x500040) then faultReg (off - 0x500000) s
  else lateReg f off s

/-- A 32-bit register of the BAR of a VF (Table 20.2). -/
def vfReg (f : Fn) (off : Nat) (s : State) : Nat :=
  if off < 0x3C then identityReg f off s
  else if decide (0x100 ≤ off) && decide (off < 0x120) then interruptReg f (off - 0x100) s
  else if decide (0x400 ≤ off) && decide (off < 0x440) then lateReg f (off - 0x400 + 0x400200) s
  else if off = 0x804 then slotReg f 0 s
  else if decide (0x2000 ≤ off) && decide (off < 0x4000) then leNat (slotRead s f 0 (off - 0x2000) 4)
  else if decide (0xC000 ≤ off) && decide (off < 0xC100) then msixReg f (off - 0xC000) s
  else if off = 0xD000 then pbaReg f 0 s
  else 0

/-- What a 4-byte read by a function shows, 0 at a reserved offset and at an odd alignment (R463, R464, R467). Of a register whose read
latches, this is the value latched. -/
def readReg (f : Fn) (bar off : Nat) (s : State) : Nat :=
  if !s.start.windowUp || !fnExists s f || off % 4 != 0 then 0
  else if fnIsPf f then
    (if bar = 0 then pfReg f off s
     else if bar = 2 then
       (if off < 0x4000 then msixReg f off s else if decide (0x8000 ≤ off) && decide (off < 0x8080) then pbaReg f ((off - 0x8000) / 4) s else 0)
     else 0)
  else if bar = 0 then vfReg f off s else 0

/-- What an aligned 8-byte read shows: two registers in one access, the lower one's effect first (R464). -/
def readReg8 (f : Fn) (bar off : Nat) (s : State) : Nat :=
  if off % 8 = 0 then readReg f bar off s + 2 ^ 32 * readReg f bar (off + 4) s else 0

/-! Writes -/

/-- A write of 1s to W1C bits clears them, and leaves the others (R7). -/
def w1c (reg mask : Nat) : Nat := reg ^^^ (reg &&& mask)

/-- INT_CAUSE (Table 20.4). -/
def intCauseClear (f : Fn) (mask : Nat) (s : State) : State :=
  let r := fnRegs s f
  setFnRegs f { r with cause := w1c r.cause mask } s

/-- Row INT_CAUSE_CLEAR. -/
def execIntCauseClear (fn mask : Nat) (s : State) : Host.Outcome State Fault Refusal :=
  done (if s.start.windowUp && fnExists s fn then intCauseClear fn (mask % 2 ^ 32) s else s)

/-- MBOX_DONE_LO, or MBOX_DONE_HI (Table 20.4). -/
def mboxDoneClear (f : Fn) (high : Bool) (mask : Nat) (s : State) : State :=
  let r := fnRegs s f
  setFnRegs f { r with mboxDone := w1c r.mboxDone (if high then mask * 2 ^ 32 else mask) } s

/-- Row MBOX_DONE_CLEAR. -/
def execMboxDoneClear (fn : Nat) (high : Bool) (mask : Nat) (s : State) : Host.Outcome State Fault Refusal :=
  done (if s.start.windowUp && fnExists s fn then mboxDoneClear fn high (mask % 2 ^ 32) s else s)

/-- Four bytes written into a request area; the response area is the device's. -/
def requestWrite (f : Fn) (n off v : Nat) (s : State) : State := if off < 0x1000 then slotWrite f n off (leBytes 4 v) s else s

/-- A word of an MSI-X table. (PRESUMED, log entry 19) -/
def msixWrite (f : Fn) (off v : Nat) (s : State) : State :=
  let k := f * 1024 + off / 16
  let e := tget {} s.win.msix k
  let put (x : MsixEntry) : State := { s with win := { s.win with msix := tset {} s.win.msix k x } }
  match off % 16 with
  | 0 => put { e with addrLo := v - v % 4 }
  | 4 => put { e with addrHi := v }
  | 8 => put { e with data := v }
  | _ => setMask f (off / 16) (bitOf v 0) s

/-- A slot's two registers: GO, and OVERRUN. -/
def slotRegWrite (f : Fn) (n off v : Nat) (s : State) : State := match off with
  | 0 => if bitOf v 0 then slotGo f n s else s
  | 4 => if bitOf v 2 then setSlot f n { slotOf s f n with overrun := false } s else s
  | _ => s

/-- A register of the interrupt control block. -/
def interruptWrite (f : Fn) (off v : Nat) (s : State) : State := match off with
  | 0x00 => intCauseClear f v s
  | 0x04 => setFnRegs f { fnRegs s f with enable := v % 32 } s
  | 0x10 => mboxDoneClear f false v s
  | 0x14 => mboxDoneClear f true v s
  | _ => s

/-- A 4-byte write to BAR0 of a PF. -/
def pfWrite (f : Fn) (off v : Nat) (s : State) : State :=
  if off = 0x2C then setFnRegs f { fnRegs s f with scratch := v } s
  else if decide (0x1000 ≤ off) && decide (off < 0x1020) then interruptWrite f (off - 0x1000) v s
  else if decide (0x8000 ≤ off) && decide (off < 0x8400) then slotRegWrite f ((off - 0x8000) / 16) (off % 16) v s
  else if decide (0x10000 ≤ off) && decide (off < 0x90000) then
    requestWrite f ((off - 0x10000) / 0x2000) ((off - 0x10000) % 0x2000) v s
  else if decide (0x100000 ≤ off) && decide (off < 0x140000) then doorbellWrite f ((off - 0x100000) / 8) (off % 8 != 0) v s
  else if decide (0x200000 ≤ off) && decide (off < 0x200000 + 49 * 0x40) then
    (if off % 0x40 = 0 && bitOf v 8 then txqOverflowClear ((off - 0x200000) / 0x40) s else s)
  else if off = 0x500004 then { s with ev := { s.ev with sticky := w1c s.ev.sticky v } }
  else s

/-- A 4-byte write to the BAR of a VF. -/
def vfWrite (f : Fn) (off v : Nat) (s : State) : State :=
  if off = 0x2C then setFnRegs f { fnRegs s f with scratch := v } s
  else if decide (0x100 ≤ off) && decide (off < 0x120) then interruptWrite f (off - 0x100) v s
  else if decide (0x800 ≤ off) && decide (off < 0x808) then slotRegWrite f 0 (off - 0x800) v s
  else if decide (0x2000 ≤ off) && decide (off < 0x3000) then requestWrite f 0 (off - 0x2000) v s
  else if decide (0x4000 ≤ off) && decide (off < 0x4800) then doorbellWrite f ((off - 0x4000) / 8) (off % 8 != 0) v s
  else if decide (0xC000 ≤ off) && decide (off < 0xC100) then msixWrite f (off - 0xC000) v s
  else s

/-- A naturally aligned 4-byte write. (DEDUCED, log entry 16) -/
def write4 (f : Fn) (bar off v : Nat) (s : State) : State :=
  if fnIsPf f then (if bar = 0 then pfWrite f off v s else if bar = 2 && decide (off < 0x4000) then msixWrite f off v s else s)
  else if bar = 0 then vfWrite f off v s else s

/-- A write of the host to the window: 4 or 8 bytes at their natural alignment, the 8 as two words, the lower first; any other has no
effect (R464). (DEDUCED, log entry 16) -/
def regWrite (f : Fn) (bar off size data : Nat) (s : State) : State :=
  if !s.start.windowUp || !fnExists s f then s
  else if size = 4 && off % 4 = 0 then write4 f bar off (data % 2 ^ 32) s
  else if size = 8 && off % 8 = 0 then write4 f bar (off + 4) (data / 2 ^ 32 % 2 ^ 32) (write4 f bar off (data % 2 ^ 32) s)
  else s

/-- Row REGISTER_WRITE. (DEDUCED, log entry 16) -/
def execRegisterWrite (fn bar offset size data : Nat) (s : State) : Host.Outcome State Fault Refusal :=
  done (regWrite fn bar offset size data s)

/-- Row DC_LO_READ: a PF's read latches DC_HI; in a VF both registers read 0 (R466). (DEDUCED, log entry 17) -/
def execDcLoRead (fn : Nat) (s : State) : Host.Outcome State Fault Refusal :=
  done (if s.start.windowUp && fnExists s fn && fnIsPf fn then
    setFnRegs fn { fnRegs s fn with dcHi := dcNow s / 2 ^ 32 % 2 ^ 32 } s else s)

/-- Row HEARTBEAT_TICK: 1 ms after the last one the Headstock counts on, unless every slot is OFFLINE; it services the watchdog as long as
it has not been stopped (R397, R432). (DESIGN CHOICE, log entry 28) -/
def execHeartbeatTick (s : State) : Host.Outcome State Fault Refusal :=
  let x := s.start
  done (if !s.mbx.answering || decide (since s x.lastHeartbeat < msTicks 1) then s
    else setStart { x with
      heartbeat := (x.heartbeat + 1) % 2 ^ 32, lastHeartbeat := (x.lastHeartbeat + msTicks 1) % 2 ^ 64
      watchdogAt := if x.watchdogStopped then x.watchdogAt else dcNow s } s)

/-! SMBus (R461, Table 19.9) -/

/-- One step of the packet error code of SMBus: CRC-8 with x^8 + x^2 + x + 1, by bits. -/
def crc8Bits : Nat → Nat → Nat
  | 0, c => c
  | k + 1, c => crc8Bits k (if 128 ≤ c then (2 * c - 256) ^^^ 7 else 2 * c)

/-- The packet error code of some bytes. (PRESUMED, log entry 20) -/
def crc8 (b : Bytes) : Nat := b.foldl (fun c x => crc8Bits 8 (c ^^^ x.toNat)) 0

/-- The device's SMBus address. -/
def smbAddress : Nat := 0x5A

/-- What a read puts on the bus: the bytes, and with PEC the code over the whole transfer. (PRESUMED, log entry 20) -/
def smbAnswer (code : Nat) (data : Bytes) (pec : Bool) : Bytes :=
  data ++ (if pec then leBytes 1 (crc8 (leBytes 1 (2 * smbAddress) ++ leBytes 1 code ++ leBytes 1 (2 * smbAddress + 1) ++ data)) else [])

/-- Answer on SMBus, from cold start step 2 on. (PRESUMED, log entry 20) -/
def smbReply (b : Bytes) (s : State) : State := if s.start.windowUp then emit (.smbus b) s else s

/-- Row SMB_READ_TEMPERATURE. (DESIGN CHOICE, log entry 22) -/
def execSmbReadTemperature (sensor : Nat) (pec : Bool) (s : State) : Host.Outcome State Fault Refusal :=
  done (if sensor ≤ 6 then smbReply (smbAnswer sensor (leInt 2 ((s.fault.temps[sensor]?).getD (Config.firstTemp sensor))) pec) s
    else smbReply [] s)

/-- The thermal step: the highest one the device is in. -/
def thermalStep (s : State) : Nat := if s.fault.stop then 3 else if s.fault.throttle then 2 else if s.fault.warn then 1 else 0

/-- Row SMB_READ_THERMAL_STEP. -/
def execSmbReadThermalStep (pec : Bool) (s : State) : Host.Outcome State Fault Refusal :=
  done (smbReply (smbAnswer 0x10 (leBytes 1 (thermalStep s)) pec) s)

/-- Row SMB_READ_POWER. (DESIGN CHOICE, log entry 22) -/
def execSmbReadPower (pec : Bool) (s : State) : Host.Outcome State Fault Refusal :=
  done (smbReply (smbAnswer 0x11 (leBytes 2 (if s.fault.sampledAt.isSome then s.fault.power else Config.firstPower)) pec) s)

/-- Row SMB_READ_STATUS. -/
def execSmbReadStatus (pec : Bool) (s : State) : Host.Outcome State Fault Refusal :=
  done (smbReply (smbAnswer 0x12 (leBytes 1 (b2n s.fab.sprint.on + 2 * b2n s.start.safe + 4 * b2n (coverageReduced s))) pec) s)

/-- Row SMB_READ_DEVICE_ID. -/
def execSmbReadDeviceId (pec : Bool) (s : State) : Host.Outcome State Fault Refusal :=
  done (smbReply (smbAnswer 0x20 (leBytes 2 0x4816) pec) s)

/-- Row SMB_READ_STEPPING. -/
def execSmbReadStepping (pec : Bool) (s : State) : Host.Outcome State Fault Refusal :=
  done (smbReply (smbAnswer 0x21 (leBytes 1 0xB1) pec) s)

/-- Row SMB_ALERT_RESPONSE. (PRESUMED, log entry 20) -/
def execSmbAlertResponse (s : State) : Host.Outcome State Fault Refusal := done (smbReply (leBytes 1 smbAddress) s)

/-- The command codes of Table 19.9. -/
def smbKnown (code : Nat) : Bool := decide (code ≤ 6) || [0x10, 0x11, 0x12, 0x20, 0x21].contains code

/-- Row SMB_UNKNOWN_COMMAND: the command byte is not acknowledged, which the model shows as an answer without bytes. -/
def execSmbUnknownCommand (code : Nat) (s : State) : Host.Outcome State Fault Refusal := done (if smbKnown code then s else smbReply [] s)

/-! JTAG (R442) -/

/-- The bits of IDCODE, the lowest first. -/
def idcodeBits : List Bool := (List.range 32).map (bitOf 0xB481656B)

/-- A scan: 0 the reset of the TAP, which selects IDCODE; 1 an instruction scan that selects IDCODE, 2 one that selects BYPASS (any other
instruction is BYPASS); 3 a data scan, which shifts the selected register out ahead of the bits that are shifted in.
(DESIGN CHOICE, log entry 21) -/
def tapScan (scan : Nat) (tdi : List Bool) (s : State) : State := match scan with
  | 0 => setStart { s.start with tapId := true } s
  | 1 => emit (.tdo Config.tapCapture) (setStart { s.start with tapId := true } s)
  | 2 => emit (.tdo Config.tapCapture) (setStart { s.start with tapId := false } s)
  | 3 => emit (.tdo ((((if s.start.tapId then idcodeBits else [false]) ++ tdi)).take tdi.length)) s
  | _ => s

/-- Row JTAG_TAP_ACCESS. (DESIGN CHOICE, log entry 21) -/
def execJtagTapAccess (scan : Nat) (tdi : List Bool) (s : State) : Host.Outcome State Fault Refusal := done (tapScan scan tdi s)

end Sys2Proof.Machine
end

