-- ==== Sys2Proof/Machine/Diag.lean ====
section
/-! DEFINITION. Diagnostics (R430 to R433): the diagnostic snapshot, the event log, the state of HBM and fault injection; and the end of a
ticket's work (R31). -/

namespace Sys2Proof.Machine

/-! DIAG.GET_HBM (R431) -/

/-- The DIAG.GET_HBM response. -/
def hbmState (s : State) : Bytes := (List.range 4).flatMap (fun (k : Nat) =>
  let st := if bitOf s.fault.failedStacks k then 2 else if markedChannels s k ≠ 0 then 1 else 0
  leBytes 2 (markedChannels s k) ++ leBytes 1 st ++ zeros 5 ++ leBytes 4 (min (liveCounter s 14 (16 + 4 * k)) (2 ^ 32 - 1))
    ++ leBytes 4 (min (liveCounter s 14 (17 + 4 * k)) (2 ^ 32 - 1)))

/-- Row DIAG_GET_HBM; `corrected` is what reads of each stack corrected and `sram` the words corrected in on-die SRAM since the last such
count (R421). -/
def execDiagGetHbm (io : HostIo) (corrected : List Nat) (sram : Nat) (s : State) : Host.Outcome State Fault Refusal :=
  done (serve { code := 0x0E12, len := some 0 } io (fun t _ _ =>
    let t1 := bumpBy 14 2 sram (countCorrected corrected t)
    replyOk (hbmState t1) t1) s)

/-! DIAG.READ_EVENTS (R431) -/

/-- The age of a sequence number: how far it lies behind the last event raised; numbers ahead of that have negative age.
(DEDUCED, log entry 36) -/
def seqAge (s : State) (n : Nat) : Int := signedOf 32 ((s.ev.seq + 2 ^ 32 - n % 2 ^ 32) % 2 ^ 32)

/-- Whether entries from a sequence on have been overwritten: the log is full, and its oldest entry is later. (DEDUCED, log entry 36) -/
def eventsGone (s : State) (n : Nat) : Bool := match s.ev.log.getLast? with
  | none => false
  | some e => decide (eventLogSize ≤ s.ev.log.length) && decide (seqAge s e.sequence < seqAge s n) && !(e.sequence == 1 && n == 0)

/-- DIAG.READ_EVENTS. (DEDUCED, log entry 36) -/
def readEvents (s : State) (_q : Req) (p : Bytes) : Reply :=
  let n := fld p 0 4
  let most := fld p 4 2
  if !(decide (1 ≤ most) && decide (most ≤ 63) && zeroRange p 6 2) then reply stBadArg s
  else if eventsGone s n then ⟨0x42, leBytes 4 ((s.ev.log.getLast?.map (·.sequence)).getD 0), 0, s⟩
  else
    let l := (s.ev.log.reverse.filter (fun e => decide (seqAge s e.sequence ≤ seqAge s n))).take most
    replyOk (leBytes 4 l.length ++ zeros 4 ++ l.flatMap eventLogEntry) s

/-- Row DIAG_READ_EVENTS. -/
def execDiagReadEvents (io : HostIo) (s : State) : Host.Outcome State Fault Refusal :=
  done (serve { code := 0x0E11, len := some 8 } io readEvents s)

/-! DIAG.SNAPSHOT (R430, Table 17.8) -/

/-- The bytes of a diagnostic snapshot. -/
def snapshotBytes : Nat := 67108864

/-- The most bytes of each section, ids 1 to 10. -/
def sectionMax : List Nat := [4096, 4194304, 8388608, 1048576, 65536, 65536, 1048576, 131072, 524288, 33554432]

/-- IDENTITY: the identity block, the straps, the SYS.GET_START_INFO response and the seconds above 100 °C (R462). -/
def identitySection (f : Fn) (s : State) : Bytes :=
  ((List.range 12).flatMap (fun (k : Nat) => leBytes 4 (identityReg f (4 * k) s)))
    ++ leBytes 1 s.start.trellisRole ++ leBytes 1 (b2n s.start.bootSel) ++ leBytes 1 (b2n s.start.testEn) ++ zeros 13
    ++ startInfo s ++ leBytes 4 s.fault.hotSeconds

/-- COUNTERS: the live counters and the snapshot bank. -/
def counterSection (s : State) : Bytes :=
  ((List.range 65536).flatMap (fun (k : Nat) => leBytes 8 (snapWord (tget 0 s.stat.live k)))) ++ (List.range 16).flatMap (snapFamily s)

/-- A calibration slot as the flash holds it (Tables 16.5, 16.6): what is not programmed reads erased. -/
def calSlotImage (s : State) (n : Nat) : Bytes := calSlot s n ++ List.replicate (65536 - (calSlot s n).length) 0xFF

/-- ENGINES: the GRAPH.GET_ENGINES response and the tick of the last transient of each engine that has had one. -/
def engineSection (s : State) : Bytes :=
  engineTable s ++ s.fab.fab.transients.flatMap (fun e => leBytes 2 e.1 ++ zeros 6 ++ leBytes 8 e.2)

/-- HBM: the DIAG.GET_HBM response, and per channel the ticks of its uncorrectable sectors of the last second. -/
def hbmSection (s : State) : Bytes :=
  hbmState s ++ s.fault.uncorrectable.flatMap (fun e => leBytes 2 e.1 ++ leBytes 2 e.2.length ++ zeros 4 ++ e.2.flatMap (leBytes 8))

/-- The sections as captured, each with whether it is ABSENT: in the safe state the log, which lies in HBM, and the calibration slots in
the flash are not in on-die memory. (DESIGN CHOICE, log entry 37) -/
def captureSections (f : Fn) (s : State) : List (Bool × Bytes) :=
  let safe := s.start.safe
  let there (b : Bytes) : Bool × Bytes := (false, b)
  let fetched (b : Bytes) : Bool × Bytes := if safe then (true, []) else (false, b)
  let lanes := (List.range 64).flatMap (fun (l : Nat) => laneStatus s l ++ laneEq s l)
  let config := canonImage s.mbx.accepted s.cfg.active ++ stagedCanon s
  [there (identitySection f s), fetched (s.ev.log.reverse.flatMap eventLogEntry), there config, there (counterSection s), there lanes
   , there (engineSection s), there (hbmSection s), fetched (calSlotImage s 0 ++ calSlotImage s 1)
   , there (s.fault.history.reverse.flatMap (fun l => l.flatMap (leInt 2))), there (Config.privateSection s.draws)]

/-- The offset at which each section starts: 4 KiB-aligned, one after another at their greatest size. -/
def sectionStart (k : Nat) : Nat := 4096 + sumBy id (sectionMax.take k)

/-- A directory entry. -/
def directoryEntry (x : Snapshot) (k : Nat) : Bytes :=
  let c := nthD (true, []) x.sections k
  let most := nthD 0 sectionMax k
  leBytes 2 (k + 1) ++ leBytes 2 (b2n c.1 + 2 * b2n (decide (most < c.2.length))) ++ zeros 4
    ++ leBytes 8 (if c.1 then 0 else sectionStart k) ++ leBytes 8 (min most c.2.length) ++ leBytes 8 (if c.1 then 0 else x.dc)

/-- The header of a snapshot, with its crc. -/
def snapshotHeader (x : Snapshot) (crc : Nat) : Bytes :=
  [0x4B, 0x50, 0x5A, 0x44] ++ leBytes 2 1 ++ leBytes 2 10 ++ leBytes 8 snapshotBytes ++ leBytes 8 Config.eui64 ++ leBytes 8 x.dc
    ++ leBytes 4 x.fwVersion ++ zeros 24 ++ leBytes 4 crc

/-- The whole snapshot. (DESIGN CHOICE, log entry 37) -/
def snapshotImage (x : Snapshot) : Bytes :=
  let rest := fitTo (4096 - 64) ((List.range 10).flatMap (directoryEntry x))
    ++ (List.range 10).flatMap (fun (k : Nat) => fitTo (nthD 0 sectionMax k) ((nthD (true, []) x.sections k).2))
  let body := fitTo (snapshotBytes - 64) rest
  snapshotHeader x (crc32c (snapshotHeader x 0 ++ body)) ++ body

/-- DIAG.SNAPSHOT: the sections are captured as they stand at the request. (DESIGN CHOICE, log entry 37) -/
def diagSnapshot (s : State) (q : Req) (_p : Bytes) : Reply ⊕ State :=
  if !respIndirect q.flags then .inl (reply stBadArg s)
  else if s.fault.snapshot.isSome then .inl (reply 0x40 s)
  else if respRoom q < snapshotBytes then .inr (respond q stNoResource [] snapshotBytes 0 s)
  else .inl (issueTicket q [] (fun n t =>
    draw { t with fault := { t.fault with
      snapshot := some ⟨n, dcNow t, if t.start.safe then 0 else t.start.fwVersion, captureSections q.fn t⟩ } }) s)

/-- Row DIAG_SNAPSHOT. -/
def execDiagSnapshot (io : HostIo) (s : State) : Host.Outcome State Fault Refusal :=
  done (serveOrHold { code := 0x0E10, len := some 0, inSafe := true } io diagSnapshot s)

/-! DIAG.INJECT (R432) -/

/-- Whether the recovery of an earlier fault is still under way (R419). (DESIGN CHOICE, log entry 29) -/
def recovering (s : State) : Bool :=
  s.start.w1Running || s.start.due.isSome || s.start.watchdogStopped || s.fault.inject.isSome || !s.fab.fab.tests.isEmpty
    || s.fab.graphs.any (fun e => e.2.rerun.isSome) || s.ing.streams.any (fun e => e.2.st == 2)
    || (List.range 64).any (fun (l : Nat) => (laneOf s l).set.mode == modeGraft && (laneOf s l).st == lsRetraining)

/-- Whether the target of an injection is a thing of its kind. -/
def injectTarget (s : State) (kind flags target : Nat) : Bool := match kind with
  | 1 => decide (flags < 2) && decide (target < 544) && (match slotOfEngine s target with
    | some k => (graphOnSlot s k).isSome
    | none => false)
  | 2 => flags == 0 && decide (target < 32)
  | 3 => flags == 0 && decide (target % 256 < 4) && decide (target / 256 < 16)
  | 4 => flags == 0 && decide (target < 64) && (laneOf s target).set.mode == modeGraft
      && bitOf (graftOf s (laneOf s target).set.first).txMap (target - (laneOf s target).set.first)
  | 5 => flags == 0 && target == 0
  | _ => false

/-- Whether COVERAGE_REDUCED is set for the target. -/
def uncovered (s : State) (kind target : Nat) : Bool := match kind with
  | 1 => (tilesWithoutSpare s).contains (target / 17)
  | 2 => (tilesWithoutSpare s).contains target
  | 3 => stacksMarked s != 0
  | 4 => activeLanes (graftOf s (laneOf s target).set.first).txMap == 1
  | _ => false

/-- A change of state whose events carry INJECTED. -/
def injected (f : State → State) (s : State) : State :=
  let t := f { s with ev := { s.ev with injecting := true } }
  { t with ev := { t.ev with injecting := false } }

/-- Inject one fault. -/
def inject (kind flags target : Nat) (s : State) : State := match kind with
  | 1 => setFault { s.fault with inject := some ⟨target, flags == 1⟩ } s
  | 2 => sramLost 0 target (((s.fab.fab.placed.find? (fun e => e.2.any (fun k => k / 16 == target))).map (·.1)).getD 0xFF) true s
  | 3 => injected (failChannel (target % 256) (target / 256)) s
  | 4 => injected (retrainOut target) s
  | 5 => { s with start := { s.start with watchdogStopped := true } }
  | _ => s

/-- DIAG.INJECT. (DESIGN CHOICE, log entry 29) -/
def diagInject (s : State) (_q : Req) (p : Bytes) : Reply :=
  let kind := fld p 0 1
  let flags := fld p 1 1
  let target := fld p 2 2
  if !(zeroRange p 4 4 && injectTarget s kind flags target) then reply stBadArg s
  else if uncovered s kind target || recovering s then reply 0x41 s
  else reply stOk (inject kind flags target (bump 14 7 s))

/-- Row DIAG_INJECT. -/
def execDiagInject (io : HostIo) (s : State) : Host.Outcome State Fault Refusal :=
  done (serve { code := 0x0E13, len := some 8 } io diagInject s)

/-! The end of a ticket's work (R31) -/

/-- The response of CAM.DISCOVER: the acknowledges received, each with its length. (DESIGN CHOICE, log entry 51) -/
def discoverBytes (found : List Bytes) : Bytes :=
  leBytes 4 found.length ++ zeros 4 ++ found.flatMap (fun a => padTo 8 (leBytes 2 a.length ++ zeros 6 ++ a))

/-- The status, the response and the state after the work of a ticket whose work has no row of its own. -/
def ticketWork (n : Nat) (t : Ticket) (fin : WorkFin) (s : State) : Option (Nat × Bytes × State) := match t.command with
  | 0x0012 => some (fwWriteEnd fin.good t.args s)
  | 0x0313 => some (stOk, discoverBytes fin.found, s)
  | 0x0713 => some (readLinesEnd s t.args)
  | 0x0813 => some (averageEnd s t.args)
  | 0x0E10 => match s.fault.snapshot with
    | some x => if x.ticket = n then
        some (stOk, snapshotImage x, raise 0x0E03 0 n 0 0 (setFault { s.fault with snapshot := none } s))
      else none
    | none => none
  | _ => none

/-- A ticket's work ends, or exceeds its limit. -/
def ticketEnd (n : Nat) (fin : WorkFin) (s : State) : State := match tfind s.mbx.tickets n with
  | none => s
  | some t =>
    if t.done || !s.mbx.answering then s
    else match ticketWork n t fin s with
      | none => s
      | some r =>
        if fin.timeout then
          endTicket n stTimeout [] fin.respOk (if t.command = 0x0E10 then setFault { s.fault with snapshot := none } s
            else if t.command = 0x0012 then (fwWriteEnd false t.args s).2.2 else s)
        -- a result that cannot be given leaves no effect (R29)
        else endTicket n r.1 r.2.1 fin.respOk (if resultGoes t r.2.1 fin.respOk then r.2.2
          else if t.command = 0x0E10 then setFault { s.fault with snapshot := none } s else s)

/-- Row TICKET_WORK_END. -/
def execTicketWorkEnd (ticket : Nat) (fin : WorkFin) (s : State) : Host.Outcome State Fault Refusal := done (ticketEnd ticket fin s)

end Sys2Proof.Machine
end

