-- ==== Sys2Proof/Machine/Dispatch.lean ====
section
/-! DEFINITION. The meaning of every command: one arm per constructor. -/

namespace Sys2Proof.Machine

/-- What a command does to everything but the queue. -/
def exec (i : Instr) (s : State) : Host.Outcome State Fault Refusal :=
  match i with
  | .slotGo fn slot => Sys2Proof.Machine.execSlotGo fn slot s
  | .slotOverrunClear fn slot => Sys2Proof.Machine.execSlotOverrunClear fn slot s
  | .ticketWorkEnd ticket fin => Sys2Proof.Machine.execTicketWorkEnd ticket fin s
  | .ticketExpiry ticket => Sys2Proof.Machine.execTicketExpiry ticket s
  | .sysNop io => Sys2Proof.Machine.execSysNop io s
  | .sysGetFeatures io => Sys2Proof.Machine.execSysGetFeatures io s
  | .sysSetFeatures io => Sys2Proof.Machine.execSysSetFeatures io s
  | .sysTicketStatus io => Sys2Proof.Machine.execSysTicketStatus io s
  | .cfgStatus io => Sys2Proof.Machine.execCfgStatus io s
  | .cfgCommit io => Sys2Proof.Machine.execCfgCommit io s
  | .cfgCancel io => Sys2Proof.Machine.execCfgCancel io s
  | .cfgDiscard io => Sys2Proof.Machine.execCfgDiscard io s
  | .cfgReadImage io => Sys2Proof.Machine.execCfgReadImage io s
  | .statSetPeriod io => Sys2Proof.Machine.execStatSetPeriod io s
  | .statLatchNow io => Sys2Proof.Machine.execStatLatchNow io s
  | .commitPreparationDone => Sys2Proof.Machine.execCommitPreparationDone s
  | .commitIdleApply => Sys2Proof.Machine.execCommitIdleApply s
  | .timeLatticePoint => Sys2Proof.Machine.execTimeLatticePoint s
  | .encoderEdgeAccepted ch levels t => Sys2Proof.Machine.execEncoderEdgeAccepted ch levels t s
  | .overspeed ch => Sys2Proof.Machine.execOverspeed ch s
  | .ssiFrame ch startHigh endLow bits => Sys2Proof.Machine.execSsiFrame ch startHigh endLow bits s
  | .stuckZ ch => Sys2Proof.Machine.execStuckZ ch s
  | .stale ch => Sys2Proof.Machine.execStale ch s
  | .spindleUpdate => Sys2Proof.Machine.execSpindleUpdate s
  | .speedSample => Sys2Proof.Machine.execSpeedSample s
  | .flagLiveExpiry ch => Sys2Proof.Machine.execFlagLiveExpiry ch s
  | .emuOutputCount e => Sys2Proof.Machine.execEmuOutputCount e s
  | .gpInputEdge gp level tick => Sys2Proof.Machine.execGpInputEdge gp level tick s
  | .gpStuck g => Sys2Proof.Machine.execGpStuck g s
  | .spinPosLoRead f => Sys2Proof.Machine.execSpinPosLoRead f s
  | .posSetChannel io => Sys2Proof.Machine.execPosSetChannel io s
  | .posSetSpindle io => Sys2Proof.Machine.execPosSetSpindle io s
  | .posSetDiv io => Sys2Proof.Machine.execPosSetDiv io s
  | .posSetEmu io => Sys2Proof.Machine.execPosSetEmu io s
  | .posSetGpInput io => Sys2Proof.Machine.execPosSetGpInput io s
  | .posGetStatus io => Sys2Proof.Machine.execPosGetStatus io s
  | .posGetChannel io => Sys2Proof.Machine.execPosGetChannel io s
  | .posGetIndexHistory io => Sys2Proof.Machine.execPosGetIndexHistory io s
  | .posClearFlags io => Sys2Proof.Machine.execPosClearFlags io s
  | .posRestoreMaster io => Sys2Proof.Machine.execPosRestoreMaster io s
  | .compareMatch u depPs => Sys2Proof.Machine.execCompareMatch u depPs s
  | .lateTrigger u depPs => Sys2Proof.Machine.execLateTrigger u depPs s
  | .trgPulseStart o => Sys2Proof.Machine.execTrgPulseStart o s
  | .trgPulseEnd o => Sys2Proof.Machine.execTrgPulseEnd o s
  | .gevActionSend u => Sys2Proof.Machine.execGevActionSend u s
  | .gevAchievedSample u => Sys2Proof.Machine.execGevAchievedSample u s
  | .markAssert => Sys2Proof.Machine.execMarkAssert s
  | .markDeassert => Sys2Proof.Machine.execMarkDeassert s
  | .trigSetUnit io => Sys2Proof.Machine.execTrigSetUnit io s
  | .trigSetTrgOutput io => Sys2Proof.Machine.execTrigSetTrgOutput io s
  | .trigSetActBank io => Sys2Proof.Machine.execTrigSetActBank io s
  | .trigSetActOutput io => Sys2Proof.Machine.execTrigSetActOutput io s
  | .trigSetActionRule io => Sys2Proof.Machine.execTrigSetActionRule io s
  | .trigSetGevAction io => Sys2Proof.Machine.execTrigSetGevAction io s
  | .trigQueueAdd io => Sys2Proof.Machine.execTrigQueueAdd io s
  | .trigQueueCancel io => Sys2Proof.Machine.execTrigQueueCancel io s
  | .trigQueueFlush io => Sys2Proof.Machine.execTrigQueueFlush io s
  | .trigGetUnit io => Sys2Proof.Machine.execTrigGetUnit io s
  | .trigReadLog io => Sys2Proof.Machine.execTrigReadLog io s
  | .trigMarkAdd io => Sys2Proof.Machine.execTrigMarkAdd io s
  | .servoMeasurement v offsetPs path => Sys2Proof.Machine.execServoMeasurement v offsetPs path s
  | .viewLost v => Sys2Proof.Machine.execViewLost v s
  | .selectRevert => Sys2Proof.Machine.execSelectRevert s
  | .qualificationEnd v => Sys2Proof.Machine.execQualificationEnd v s
  | .ptpMessageRx port m => Sys2Proof.Machine.execPtpMessageRx port m s
  | .ptpMasterTransmit port sync => Sys2Proof.Machine.execPtpMasterTransmit port sync s
  | .ptpDelayReqSend port sub => Sys2Proof.Machine.execPtpDelayReqSend port sub s
  | .txqEntry0Read port => Sys2Proof.Machine.execTxqEntry0Read port s
  | .txqDropsRead port => Sys2Proof.Machine.execTxqDropsRead port s
  | .txqOverflowClear port => Sys2Proof.Machine.execTxqOverflowClear port s
  | .ppsInEdge falling sub => Sys2Proof.Machine.execPpsInEdge falling sub s
  | .clk10Gate g => Sys2Proof.Machine.execClk10Gate g s
  | .ppsOutPulse => Sys2Proof.Machine.execPpsOutPulse s
  | .viewBlockRead f v => Sys2Proof.Machine.execViewBlockRead f v s
  | .viewStepApply v => Sys2Proof.Machine.execViewStepApply v s
  | .timeSetView io => Sys2Proof.Machine.execTimeSetView io s
  | .timeSetPtpPort io => Sys2Proof.Machine.execTimeSetPtpPort io s
  | .timeSetSelect io => Sys2Proof.Machine.execTimeSetSelect io s
  | .timeSetPps io => Sys2Proof.Machine.execTimeSetPps io s
  | .timeGetView io => Sys2Proof.Machine.execTimeGetView io s
  | .timeStepView io => Sys2Proof.Machine.execTimeStepView io s
  | .timeFeedOffset io => Sys2Proof.Machine.execTimeFeedOffset io s
  | .timeSelectNow io => Sys2Proof.Machine.execTimeSelectNow io s
  | .timeClearFlags io => Sys2Proof.Machine.execTimeClearFlags io s
  | .refclkLost input => Sys2Proof.Machine.execRefclkLost input s
  | .adaptationFreeze lane transitions idleRun => Sys2Proof.Machine.execAdaptationFreeze lane transitions idleRun s
  | .adaptationResume lane transitions dataBlock => Sys2Proof.Machine.execAdaptationResume lane transitions dataBlock s
  | .boundHit lane tap upper => Sys2Proof.Machine.execBoundHit lane tap upper s
  | .retrainInterval lane => Sys2Proof.Machine.execRetrainInterval lane s
  | .reanchor lane now => Sys2Proof.Machine.execReanchor lane now s
  | .trainingFrameRx lane control status identity wish satisfied => Sys2Proof.Machine.execTrainingFrameRx lane control status identity wish satisfied s
  | .trainingEnd lane now => Sys2Proof.Machine.execTrainingEnd lane now s
  | .trainingTimeout lane => Sys2Proof.Machine.execTrainingTimeout lane s
  | .blockLock lane roundTripPs => Sys2Proof.Machine.execBlockLock lane roundTripPs s
  | .lockLoss lane invalid => Sys2Proof.Machine.execLockLoss lane invalid s
  | .flitRx first data => Sys2Proof.Machine.execFlitRx first data s
  | .replayTimeout first => Sys2Proof.Machine.execReplayTimeout first s
  | .alignmentMarker first => Sys2Proof.Machine.execAlignmentMarker first s
  | .laneReadmission lane => Sys2Proof.Machine.execLaneReadmission lane s
  | .graftLinkFail first => Sys2Proof.Machine.execGraftLinkFail first s
  | .checkerLock lane => Sys2Proof.Machine.execCheckerLock lane s
  | .checkerResync lane errors => Sys2Proof.Machine.execCheckerResync lane errors s
  | .laneSetLane io => Sys2Proof.Machine.execLaneSetLane io s
  | .laneSetEq io => Sys2Proof.Machine.execLaneSetEq io s
  | .laneGetStatus io tally => Sys2Proof.Machine.execLaneGetStatus io tally s
  | .laneGetEq io now => Sys2Proof.Machine.execLaneGetEq io now s
  | .laneRetrain io => Sys2Proof.Machine.execLaneRetrain io s
  | .laneBitSlip io errors => Sys2Proof.Machine.execLaneBitSlip io errors s
  | .laneLockHere io errors roundTripPs => Sys2Proof.Machine.execLaneLockHere io errors roundTripPs s
  | .laneSetTest io => Sys2Proof.Machine.execLaneSetTest io s
  | .laneGetTest io bits errors => Sys2Proof.Machine.execLaneGetTest io bits errors s
  | .laneClearFlags io => Sys2Proof.Machine.execLaneClearFlags io s
  | .ethFrameRx port data => Sys2Proof.Machine.execEthFrameRx port data s
  | .modulePoll bus seen => Sys2Proof.Machine.execModulePoll bus seen s
  | .gvcpAckRx head reqId status ackCommand payload iface respOk => Sys2Proof.Machine.execGvcpAckRx head reqId status ackCommand payload iface respOk s
  | .gvcpTimeout head respOk => Sys2Proof.Machine.execGvcpTimeout head respOk s
  | .heartbeatRead head => Sys2Proof.Machine.execHeartbeatRead head s
  | .headRetry head => Sys2Proof.Machine.execHeadRetry head s
  | .streamIdle head => Sys2Proof.Machine.execStreamIdle head s
  | .streamPacketRx p => Sys2Proof.Machine.execStreamPacketRx p s
  | .blockTimeout stream => Sys2Proof.Machine.execBlockTimeout stream s
  | .packetresendCmd stream => Sys2Proof.Machine.execPacketresendCmd stream s
  | .resendTimeout stream => Sys2Proof.Machine.execResendTimeout stream s
  | .cxpHeartbeatSend head => Sys2Proof.Machine.execCxpHeartbeatSend head s
  | .cxpHeartbeatTimeout head => Sys2Proof.Machine.execCxpHeartbeatTimeout head s
  | .paramWriteSend head => Sys2Proof.Machine.execParamWriteSend head s
  | .camSetPort io => Sys2Proof.Machine.execCamSetPort io s
  | .camSetHead io => Sys2Proof.Machine.execCamSetHead io s
  | .camSetStream io => Sys2Proof.Machine.execCamSetStream io s
  | .camGetHead io => Sys2Proof.Machine.execCamGetHead io s
  | .camGvcp io => Sys2Proof.Machine.execCamGvcp io s
  | .camCxpControl io => Sys2Proof.Machine.execCamCxpControl io s
  | .camDiscover io => Sys2Proof.Machine.execCamDiscover io s
  | .camScheduleParam io => Sys2Proof.Machine.execCamScheduleParam io s
  | .camCancelParam io => Sys2Proof.Machine.execCamCancelParam io s
  | .camModuleRead io data => Sys2Proof.Machine.execCamModuleRead io data s
  | .camModuleWrite io => Sys2Proof.Machine.execCamModuleWrite io s
  | .camGetModule io => Sys2Proof.Machine.execCamGetModule io s
  | .lineComplete stream => Sys2Proof.Machine.execLineComplete stream s
  | .lineWaitExpiry stream => Sys2Proof.Machine.execLineWaitExpiry stream s
  | .stripeFlush => Sys2Proof.Machine.execStripeFlush s
  | .bedServeLine bed => Sys2Proof.Machine.execBedServeLine bed s
  | .memberWaitExpiry grid => Sys2Proof.Machine.execMemberWaitExpiry grid s
  | .bedRowEmit bed grid refetch => Sys2Proof.Machine.execBedRowEmit bed grid refetch s
  | .ingSetBuffer io => Sys2Proof.Machine.execIngSetBuffer io s
  | .ingSetStream io => Sys2Proof.Machine.execIngSetStream io s
  | .ingSetGroup io => Sys2Proof.Machine.execIngSetGroup io s
  | .ingGetStream io => Sys2Proof.Machine.execIngGetStream io s
  | .ingGetBed io => Sys2Proof.Machine.execIngGetBed io s
  | .ingGetBuffer io => Sys2Proof.Machine.execIngGetBuffer io s
  | .ingReadLines io slow => Sys2Proof.Machine.execIngReadLines io slow s
  | .corSetStream io => Sys2Proof.Machine.execCorSetStream io s
  | .corSetHeadGeom io => Sys2Proof.Machine.execCorSetHeadGeom io s
  | .corSetGrid io => Sys2Proof.Machine.execCorSetGrid io s
  | .corSetCorrSet io => Sys2Proof.Machine.execCorSetCorrSet io s
  | .corLoadTable io => Sys2Proof.Machine.execCorLoadTable io s
  | .corSetStitch io => Sys2Proof.Machine.execCorSetStitch io s
  | .corGetStream io => Sys2Proof.Machine.execCorGetStream io s
  | .corReadTable io => Sys2Proof.Machine.execCorReadTable io s
  | .corGetStitch io => Sys2Proof.Machine.execCorGetStitch io s
  | .corAverageLines io slow => Sys2Proof.Machine.execCorAverageLines io slow s
  | .graphRow graph upsets => Sys2Proof.Machine.execGraphRow graph upsets s
  | .shadowCheck tile slot row same => Sys2Proof.Machine.execShadowCheck tile slot row same s
  | .engineEccError engine uncorrectable => Sys2Proof.Machine.execEngineEccError engine uncorrectable s
  | .knownAnswerTestDone tile slotOk spareOk => Sys2Proof.Machine.execKnownAnswerTestDone tile slotOk spareOk s
  | .rerunComplete graph => Sys2Proof.Machine.execRerunComplete graph s
  | .sprintStart => Sys2Proof.Machine.execSprintStart s
  | .sprintEnd => Sys2Proof.Machine.execSprintEnd s
  | .graphLoad io => Sys2Proof.Machine.execGraphLoad io s
  | .graphSetBinding io => Sys2Proof.Machine.execGraphSetBinding io s
  | .graphSetSprint io => Sys2Proof.Machine.execGraphSetSprint io s
  | .graphGetHeadroom io => Sys2Proof.Machine.execGraphGetHeadroom io s
  | .graphGetEngines io => Sys2Proof.Machine.execGraphGetEngines io s
  | .graphSprintNow io => Sys2Proof.Machine.execGraphSprintNow io s
  | .graphGetSprint io => Sys2Proof.Machine.execGraphGetSprint io s
  | .graphReadCutList io => Sys2Proof.Machine.execGraphReadCutList io s
  | .contextFetchDone graph => Sys2Proof.Machine.execContextFetchDone graph s
  | .regionClose => Sys2Proof.Machine.execRegionClose s
  | .tileCutStart => Sys2Proof.Machine.execTileCutStart s
  | .tileWaitExpiry => Sys2Proof.Machine.execTileWaitExpiry s
  | .rgnSetGraph io => Sys2Proof.Machine.execRgnSetGraph io s
  | .rgnSetTiles io => Sys2Proof.Machine.execRgnSetTiles io s
  | .rgnGetStatus io => Sys2Proof.Machine.execRgnGetStatus io s
  | .rgnGetGraph io => Sys2Proof.Machine.execRgnGetGraph io s
  | .rgnFlush io => Sys2Proof.Machine.execRgnFlush io s
  | .doorbellWrite fn index upper tail => Sys2Proof.Machine.execDoorbellWrite fn index upper tail s
  | .descriptorFetchDone furrow read timeout => Sys2Proof.Machine.execDescriptorFetchDone furrow read timeout s
  | .unitHandoff => Sys2Proof.Machine.execUnitHandoff s
  | .descriptorWriteback furrow src sub => Sys2Proof.Machine.execDescriptorWriteback furrow src sub s
  | .packFlush furrow => Sys2Proof.Machine.execPackFlush furrow s
  | .irqTimer furrow => Sys2Proof.Machine.execIrqTimer furrow s
  | .rowBlockIdleClose route => Sys2Proof.Machine.execRowBlockIdleClose route s
  | .burstError furrow good tail kind => Sys2Proof.Machine.execBurstError furrow good tail kind s
  | .portLoss port unacked => Sys2Proof.Machine.execPortLoss port unacked s
  | .functionReset fn unacked => Sys2Proof.Machine.execFunctionReset fn unacked s
  | .msixUnmask fn vector => Sys2Proof.Machine.execMsixUnmask fn vector s
  | .hostSetRoute io => Sys2Proof.Machine.execHostSetRoute io s
  | .hostSetQueue io => Sys2Proof.Machine.execHostSetQueue io s
  | .hostFurrowCreate io => Sys2Proof.Machine.execHostFurrowCreate io s
  | .hostFurrowStart io => Sys2Proof.Machine.execHostFurrowStart io s
  | .hostFurrowStop io rest => Sys2Proof.Machine.execHostFurrowStop io rest s
  | .hostFurrowDestroy io => Sys2Proof.Machine.execHostFurrowDestroy io s
  | .hostFurrowPair io => Sys2Proof.Machine.execHostFurrowPair io s
  | .hostFurrowSwitch io => Sys2Proof.Machine.execHostFurrowSwitch io s
  | .hostGetFurrow io => Sys2Proof.Machine.execHostGetFurrow io s
  | .hostGetPort io regs => Sys2Proof.Machine.execHostGetPort io regs s
  | .helloSend => Sys2Proof.Machine.execHelloSend s
  | .hello first => Sys2Proof.Machine.execHello first s
  | .formationTimeout => Sys2Proof.Machine.execFormationTimeout s
  | .formed first => Sys2Proof.Machine.execFormed first s
  | .timeFlitSend first sub => Sys2Proof.Machine.execTimeFlitSend first sub s
  | .timeFlit first rxDc rxSub => Sys2Proof.Machine.execTimeFlit first rxDc rxSub s
  | .positionSample => Sys2Proof.Machine.execPositionSample s
  | .positionFlit first => Sys2Proof.Machine.execPositionFlit first s
  | .posStale => Sys2Proof.Machine.execPosStale s
  | .isolated => Sys2Proof.Machine.execIsolated s
  | .masterLost => Sys2Proof.Machine.execMasterLost s
  | .roleClaim first => Sys2Proof.Machine.execRoleClaim first s
  | .handover first => Sys2Proof.Machine.execHandover first s
  | .memberLost device => Sys2Proof.Machine.execMemberLost device s
  | .estateDetached => Sys2Proof.Machine.execEstateDetached s
  | .prepare first => Sys2Proof.Machine.execPrepare first s
  | .prepared first => Sys2Proof.Machine.execPrepared first s
  | .prepareTimeout => Sys2Proof.Machine.execPrepareTimeout s
  | .commit first => Sys2Proof.Machine.execCommit first s
  | .commitRepeat => Sys2Proof.Machine.execCommitRepeat s
  | .armed first => Sys2Proof.Machine.execArmed first s
  | .abort first => Sys2Proof.Machine.execAbort first s
  | .prepareHoldExpiry => Sys2Proof.Machine.execPrepareHoldExpiry s
  | .applied first => Sys2Proof.Machine.execApplied first s
  | .commitPartialTimeout => Sys2Proof.Machine.execCommitPartialTimeout s
  | .digestSweep => Sys2Proof.Machine.execDigestSweep s
  | .digestReq first => Sys2Proof.Machine.execDigestReq first s
  | .digest first => Sys2Proof.Machine.execDigest first s
  | .trelSetStation io => Sys2Proof.Machine.execTrelSetStation io s
  | .trelSetIdentity io => Sys2Proof.Machine.execTrelSetIdentity io s
  | .trelGetStatus io => Sys2Proof.Machine.execTrelGetStatus io s
  | .trelGetMember io => Sys2Proof.Machine.execTrelGetMember io s
  | .trelCommit io => Sys2Proof.Machine.execTrelCommit io s
  | .trelAbort io => Sys2Proof.Machine.execTrelAbort io s
  | .trelResync io => Sys2Proof.Machine.execTrelResync io s
  | .trelHandover io healthy => Sys2Proof.Machine.execTrelHandover io healthy s
  | .trelReattach io => Sys2Proof.Machine.execTrelReattach io s
  | .trelSetExpected io => Sys2Proof.Machine.execTrelSetExpected io s
  | .trelGetDigests io => Sys2Proof.Machine.execTrelGetDigests io s
  | .rstNAssert => Sys2Proof.Machine.execRstNAssert s
  | .rstNRelease role bootSel testEn => Sys2Proof.Machine.execRstNRelease role bootSel testEn s
  | .perst port low unacked => Sys2Proof.Machine.execPerst port low unacked s
  | .brownOut => Sys2Proof.Machine.execBrownOut s
  | .rootPllUnlock => Sys2Proof.Machine.execRootPllUnlock s
  | .coldStart facts => Sys2Proof.Machine.execColdStart facts s
  | .deviceWarmStart facts => Sys2Proof.Machine.execDeviceWarmStart facts s
  | .controlWarmStart ms => Sys2Proof.Machine.execControlWarmStart ms s
  | .watchdog => Sys2Proof.Machine.execWatchdog s
  | .startFailure stage => Sys2Proof.Machine.execStartFailure stage s
  | .startSuccess => Sys2Proof.Machine.execStartSuccess s
  | .sysRestart io => Sys2Proof.Machine.execSysRestart io s
  | .sysGetStartInfo io => Sys2Proof.Machine.execSysGetStartInfo io s
  | .sysFwWrite io => Sys2Proof.Machine.execSysFwWrite io s
  | .sysFwActivate io => Sys2Proof.Machine.execSysFwActivate io s
  | .sysFwConfirm io good => Sys2Proof.Machine.execSysFwConfirm io good s
  | .sysFwRecover io => Sys2Proof.Machine.execSysFwRecover io s
  | .trimRecompute readings => Sys2Proof.Machine.execTrimRecompute readings s
  | .trimApply target => Sys2Proof.Machine.execTrimApply target s
  | .calibrationDue target => Sys2Proof.Machine.execCalibrationDue target s
  | .calibrationRunDone target runs => Sys2Proof.Machine.execCalibrationRunDone target runs s
  | .calDeferred target => Sys2Proof.Machine.execCalDeferred target s
  | .twinSwap target => Sys2Proof.Machine.execTwinSwap target s
  | .calSlotStore good => Sys2Proof.Machine.execCalSlotStore good s
  | .calSetPolicy io => Sys2Proof.Machine.execCalSetPolicy io s
  | .calRun io => Sys2Proof.Machine.execCalRun io s
  | .calGetStatus io => Sys2Proof.Machine.execCalGetStatus io s
  | .calGetTrims io => Sys2Proof.Machine.execCalGetTrims io s
  | .calStore io => Sys2Proof.Machine.execCalStore io s
  | .calClearField io => Sys2Proof.Machine.execCalClearField io s
  | .sramUncorrectable memory index graph => Sys2Proof.Machine.execSramUncorrectable memory index graph s
  | .hbmChannelFailed stack channel cause => Sys2Proof.Machine.execHbmChannelFailed stack channel cause s
  | .scrub corrected => Sys2Proof.Machine.execScrub corrected s
  | .thermalSample temps power => Sys2Proof.Machine.execThermalSample temps power s
  | .thermalTrip temp => Sys2Proof.Machine.execThermalTrip temp s
  | .eventsSuppressed => Sys2Proof.Machine.execEventsSuppressed s
  | .faultStickyClear fn mask => Sys2Proof.Machine.execFaultStickyClear fn mask s
  | .tjPeakRead fn => Sys2Proof.Machine.execTjPeakRead fn s
  | .diagSnapshot io => Sys2Proof.Machine.execDiagSnapshot io s
  | .diagReadEvents io => Sys2Proof.Machine.execDiagReadEvents io s
  | .diagGetHbm io corrected sram => Sys2Proof.Machine.execDiagGetHbm io corrected sram s
  | .diagInject io => Sys2Proof.Machine.execDiagInject io s
  | .smbReadTemperature sensor pec => Sys2Proof.Machine.execSmbReadTemperature sensor pec s
  | .smbReadThermalStep pec => Sys2Proof.Machine.execSmbReadThermalStep pec s
  | .smbReadPower pec => Sys2Proof.Machine.execSmbReadPower pec s
  | .smbReadStatus pec => Sys2Proof.Machine.execSmbReadStatus pec s
  | .smbReadDeviceId pec => Sys2Proof.Machine.execSmbReadDeviceId pec s
  | .smbReadStepping pec => Sys2Proof.Machine.execSmbReadStepping pec s
  | .smbAlertResponse => Sys2Proof.Machine.execSmbAlertResponse s
  | .smbUnknownCommand code => Sys2Proof.Machine.execSmbUnknownCommand code s
  | .dcLoRead fn => Sys2Proof.Machine.execDcLoRead fn s
  | .intCauseClear fn mask => Sys2Proof.Machine.execIntCauseClear fn mask s
  | .mboxDoneClear fn high mask => Sys2Proof.Machine.execMboxDoneClear fn high mask s
  | .heartbeatTick => Sys2Proof.Machine.execHeartbeatTick s
  | .registerWrite fn bar offset size data => Sys2Proof.Machine.execRegisterWrite fn bar offset size data s
  | .autonegResolved lane common => Sys2Proof.Machine.execAutonegResolved lane common s
  | .signalEnergyChange lane present => Sys2Proof.Machine.execSignalEnergyChange lane present s
  | .portL0Entry port rate width => Sys2Proof.Machine.execPortL0Entry port rate width s
  | .sriovConfigWrite port control enable => Sys2Proof.Machine.execSriovConfigWrite port control enable s
  | .cxpControlPacketRx head kind reqId status payload respOk => Sys2Proof.Machine.execCxpControlPacketRx head kind reqId status payload respOk s
  | .keptLaneValuesExpiry => Sys2Proof.Machine.execKeptLaneValuesExpiry s
  | .gvcpProxyDeadline respOk => Sys2Proof.Machine.execGvcpProxyDeadline respOk s
  | .selectionBiasSettled => Sys2Proof.Machine.execSelectionBiasSettled s
  | .jtagTapAccess scan tdi => Sys2Proof.Machine.execJtagTapAccess scan tdi s

end Sys2Proof.Machine
end

