-- ==== Sys2Proof/Machine/Idle.lean ====
section
/-! DEFINITION. What the block does when no command waits: one tick of the device counter passes (R112). -/

namespace Sys2Proof.Machine

/-- One tick of 1.6 ns: from cold start step 2 on the device counter counts, the Headstock has its turn, and a sprint's hold time is
kept. While the device is held in reset nothing happens. (DESIGN CHOICE, log entry 3) -/
def idle (s : State) : State :=
  if s.start.windowUp then headstockTurn (sprintTick { s with time := { s.time with dc := (s.time.dc + 1) % 2 ^ 64 } }) else s

end Sys2Proof.Machine
end

