-- ==== Sys2Proof/Safety.lean ====
section
/-! DEFINITION. What counts as a safe run, and the terms in which the statements speak of requests, responses, memory and the fault
status. -/

namespace Sys2Proof.Machine

/-! Runs -/

/-- The outcome is a next state. -/
def goesOn (o : Host.Outcome State Fault Refusal) : Bool := match o with
  | .next _ => true
  | .fault _ => false
  | .refused _ => false

/-- The state after a step, the same state where the step stops. -/
def after (s : State) : State := match step s with
  | .next t => t
  | .fault _ => s
  | .refused _ => s

/-- The state after a number of steps. -/
def runFor : Nat → State → State
  | 0, s => s
  | n + 1, s => runFor n (after s)

/-- A command answers the next state that an effect gives, under a condition on the state. -/
def Gives (i : Instr) (ok : State → Prop) (effect : State → State) : Prop :=
  ∀ s : State, ok s → exec i s = .next (syncFault (effect s))

/-! The fault status (Table 17.6, R429) -/

/-- FAULT_STATUS as last compared is what the state gives, and lies in its 16 bits. -/
def FaultStatusKept (s : State) : Prop := s.ev.status = faultStatus s ∧ faultStatus s < 65536

/-! Mailbox memory -/

/-- The canonical form of the mailbox areas: addresses strictly rising, and no entry equal to what an unlisted address reads as, 0. -/
def Memory.wf (m : Tab Byte) : Bool := m.wf 0

/-- A byte of the mailbox areas. -/
def memByte (s : State) (a : Nat) : Byte := tget 0 s.win.mem a

/-- Whether an address lies in the response area of a slot, header and payload room (R22). -/
def inResponse (q : Req) (a : Nat) : Prop := slotAddr q.fn q.slot 0x1000 ≤ a ∧ a < slotAddr q.fn q.slot 0x2000

/-! Requests and responses -/

/-- The state once the Headstock has taken its oldest request. -/
def taken (rest : List Req) (s : State) : State := { s with mbx := { s.mbx with inbox := rest } }

/-- The Headstock answers and holds no request, and `q` is the oldest request, one for the command `c`. -/
def Oldest (c : CmdSpec) (q : Req) (rest : List Req) (s : State) : Prop :=
  s.mbx.answering = true ∧ s.mbx.hold = none ∧ s.mbx.inbox = q :: rest ∧ q.command = c.code

/-- And `q` passes the checks of R35 that come before the command's own, with the request payload `p`. -/
def Comes (c : CmdSpec) (io : HostIo) (q : Req) (rest : List Req) (p : Bytes) (s : State) : Prop :=
  Oldest c q rest s ∧ firstBad c q (payloadOf q io.req) (taken rest s) = none ∧ payloadOf q io.req = some p

/-- A response payload reaches the host: it fits its room, and an indirect one is written (R28, R29). -/
def Reaches (q : Req) (io : HostIo) (a : Bytes) : Prop :=
  a.length ≤ respRoom q ∧ (respIndirect q.flags = true → a ≠ [] → io.respOk = true)

/-- The response of R25 in the slot, an indirect payload at resp_addr (R28). -/
def answered (q : Req) (status : Nat) (a : Bytes) (ticket : Nat) (t : State) : State :=
  if respIndirect q.flags && a.length != 0 then respond q status [] a.length ticket (sendHost q.fn (respAddr q) a t)
  else respond q status a a.length ticket t

/-- A staged command stages its setting and answers OK (R41, R42), when its check passes and no commit is armed or applying. -/
def Stages (mk : HostIo → Instr) (c : CmdSpec) (obj : Bytes → Nat) (check : State → Bytes → Option Nat) : Prop :=
  ∀ (io : HostIo) (q : Req) (rest : List Req) (p : Bytes) (s : State), Comes c io q rest p s → clocheBusy s = false →
    check (taken rest s) p = none →
    exec (mk io) s = .next (syncFault (respond q stOk [] 0 0 { taken rest s with
      cfg := { s.cfg with staged := tput s.cfg.staged (settingKey c.code (obj p)) p } }))

/-- A direct command has its effect and answers with a status and a payload, under a condition on the state, the request and its
payload. -/
def Performs (mk : HostIo → Instr) (c : CmdSpec) (ok : State → Req → Bytes → Prop) (status : Nat)
    (answer : State → Req → Bytes → Bytes) (effect : State → Req → Bytes → State) : Prop :=
  ∀ (io : HostIo) (q : Req) (rest : List Req) (p : Bytes) (s : State), Comes c io q rest p s → ok (taken rest s) q p →
    Reaches q io (answer (taken rest s) q p) →
    exec (mk io) s = .next (syncFault (answered q status (answer (taken rest s) q p) 0 (effect (taken rest s) q p)))

/-- A query answers OK from the state, which it leaves alone. -/
def Answers (mk : HostIo → Instr) (c : CmdSpec) (ok : State → Req → Bytes → Prop) (answer : State → Bytes → Bytes) : Prop :=
  Performs mk c ok stOk (fun s _ p => answer s p) (fun s _ _ => s)

/-- A direct command has its effect and answers OK without a payload. -/
def Acts (mk : HostIo → Instr) (c : CmdSpec) (ok : State → Req → Bytes → Prop) (effect : State → Req → Bytes → State) : Prop :=
  ∀ (io : HostIo) (q : Req) (rest : List Req) (p : Bytes) (s : State), Comes c io q rest p s → ok (taken rest s) q p →
    exec (mk io) s = .next (syncFault (respond q stOk [] 0 0 (effect (taken rest s) q p)))

/-- A direct command that the Headstock holds until a head answers (R26, R187): it has its effect and no response yet. -/
def Holds (mk : HostIo → Instr) (c : CmdSpec) (ok : State → Req → Bytes → Prop) (effect : State → Req → Bytes → State) : Prop :=
  ∀ (io : HostIo) (q : Req) (rest : List Req) (p : Bytes) (s : State), Comes c io q rest p s → ok (taken rest s) q p →
    exec (mk io) s = .next (syncFault (effect (taken rest s) q p))

/-- The ticket that a request is given (R31). -/
def ticketFor (q : Req) (args : Bytes) : Ticket :=
  ⟨q.fn, q.command, args, [], if respIndirect q.flags then some (respAddr q) else none, respRoom q, false, 0, [], 0, 0⟩

/-- The state with the next ticket issued to a request (R31). -/
def ticketed (q : Req) (args : Bytes) (s : State) : State := { s with mbx := { s.mbx with
  nextTicket := if s.mbx.nextTicket = 2 ^ 32 - 1 then 1 else s.mbx.nextTicket + 1
  tickets := tput s.mbx.tickets s.mbx.nextTicket (ticketFor q args) } }

/-- A direct command whose work goes on in the background: its function has a ticket left, and it answers IN_PROGRESS with the ticket
(R30, R31). -/
def Issues (mk : HostIo → Instr) (c : CmdSpec) (ok : State → Req → Bytes → Prop) (args : Req → Bytes → Bytes)
    (start : Req → Bytes → Nat → State → State) : Prop :=
  ∀ (io : HostIo) (q : Req) (rest : List Req) (p : Bytes) (s : State), Comes c io q rest p s → ok (taken rest s) q p →
    ticketsOf s q.fn < ticketLimit q.fn →
    exec (mk io) s = .next (syncFault (respond q stInProgress [] 0 s.mbx.nextTicket
      (start q p s.mbx.nextTicket (ticketed q (args q p) (taken rest s)))))

/-- The mailbox command of a row with what R35 checks of it, and the host memory's answers; none for a row that is an event. -/
def mailboxRow : Instr → Option (CmdSpec × HostIo)
  | .sysNop io => some ({ code := 0x0000, vf := true, inSafe := true }, io)
  | .sysGetFeatures io => some ({ code := 0x0001, vf := true, len := some 0 }, io)
  | .sysSetFeatures io => some ({ code := 0x0002, len := some 32 }, io)
  | .sysTicketStatus io => some ({ code := 0x0003, vf := true, inSafe := true, len := some 8 }, io)
  | .cfgStatus io => some ({ code := 0x0100, len := some 0 }, io)
  | .cfgCommit io => some ({ code := 0x0101, len := some 24 }, io)
  | .cfgCancel io => some ({ code := 0x0102, len := some 0 }, io)
  | .cfgDiscard io => some ({ code := 0x0103, len := some 0 }, io)
  | .cfgReadImage io => some ({ code := 0x0104, len := some 8 }, io)
  | .statSetPeriod io => some ({ code := 0x0F00, len := some 16 }, io)
  | .statLatchNow io => some ({ code := 0x0F01, len := some 0 }, io)
  | .posSetChannel io => some ({ code := 0x0400, len := some 48 }, io)
  | .posSetSpindle io => some ({ code := 0x0401, len := some 48 }, io)
  | .posSetDiv io => some ({ code := 0x0402, len := some 16 }, io)
  | .posSetEmu io => some ({ code := 0x0403, len := some 32 }, io)
  | .posSetGpInput io => some ({ code := 0x0404, len := some 16 }, io)
  | .posGetStatus io => some ({ code := 0x0410, len := some 0 }, io)
  | .posGetChannel io => some ({ code := 0x0411, len := some 8 }, io)
  | .posGetIndexHistory io => some ({ code := 0x0412, len := some 8 }, io)
  | .posClearFlags io => some ({ code := 0x0413, len := some 8 }, io)
  | .posRestoreMaster io => some ({ code := 0x0414, len := some 0 }, io)
  | .trigSetUnit io => some ({ code := 0x0500, len := some 64 }, io)
  | .trigSetTrgOutput io => some ({ code := 0x0501, len := some 16 }, io)
  | .trigSetActBank io => some ({ code := 0x0502, len := some 8 }, io)
  | .trigSetActOutput io => some ({ code := 0x0503, len := some 32 }, io)
  | .trigSetActionRule io => some ({ code := 0x0504, len := some 64 }, io)
  | .trigSetGevAction io => some ({ code := 0x0505, needs := some 1, len := some 32 }, io)
  | .trigQueueAdd io => some ({ code := 0x0510, len := some 16 }, io)
  | .trigQueueCancel io => some ({ code := 0x0511, len := some 16 }, io)
  | .trigQueueFlush io => some ({ code := 0x0512, len := some 8 }, io)
  | .trigGetUnit io => some ({ code := 0x0513, len := some 8 }, io)
  | .trigReadLog io => some ({ code := 0x0514, len := some 8 }, io)
  | .trigMarkAdd io => some ({ code := 0x0515, len := some 24 }, io)
  | .timeSetView io => some ({ code := 0x0600, len := some 32 }, io)
  | .timeSetPtpPort io => some ({ code := 0x0601, len := some 32 }, io)
  | .timeSetSelect io => some ({ code := 0x0602, len := some 16 }, io)
  | .timeSetPps io => some ({ code := 0x0603, len := some 16 }, io)
  | .timeGetView io => some ({ code := 0x0610, len := some 8 }, io)
  | .timeStepView io => some ({ code := 0x0611, len := some 32 }, io)
  | .timeFeedOffset io => some ({ code := 0x0612, len := some 24 }, io)
  | .timeSelectNow io => some ({ code := 0x0613, len := some 8 }, io)
  | .timeClearFlags io => some ({ code := 0x0614, len := some 8 }, io)
  | .laneSetLane io => some ({ code := 0x0200, len := some 16 }, io)
  | .laneSetEq io => some ({ code := 0x0201, len := some 16 }, io)
  | .laneGetStatus io _ => some ({ code := 0x0210, len := some 8 }, io)
  | .laneGetEq io _ => some ({ code := 0x0211, len := some 8 }, io)
  | .laneRetrain io => some ({ code := 0x0212, len := some 8 }, io)
  | .laneBitSlip io _ => some ({ code := 0x0213, len := some 8 }, io)
  | .laneLockHere io _ _ => some ({ code := 0x0214, len := some 8 }, io)
  | .laneSetTest io => some ({ code := 0x0215, len := some 8 }, io)
  | .laneGetTest io _ _ => some ({ code := 0x0216, len := some 8 }, io)
  | .laneClearFlags io => some ({ code := 0x0217, len := some 8 }, io)
  | .camSetPort io => some ({ code := 0x0300, len := some 16 }, io)
  | .camSetHead io => some ({ code := 0x0301, len := some 64 }, io)
  | .camSetStream io => some ({ code := 0x0302, len := some 32 }, io)
  | .camGetHead io => some ({ code := 0x0310, len := some 8 }, io)
  | .camGvcp io => some ({ code := 0x0311, needs := some 1 }, io)
  | .camCxpControl io => some ({ code := 0x0312, needs := some 2 }, io)
  | .camDiscover io => some ({ code := 0x0313, len := some 8 }, io)
  | .camScheduleParam io => some ({ code := 0x0314, len := some 144 }, io)
  | .camCancelParam io => some ({ code := 0x0315, len := some 8 }, io)
  | .camModuleRead io _ => some ({ code := 0x0316, len := some 8 }, io)
  | .camModuleWrite io => some ({ code := 0x0317 }, io)
  | .camGetModule io => some ({ code := 0x0318, len := some 8 }, io)
  | .ingSetBuffer io => some ({ code := 0x0700, len := some 16 }, io)
  | .ingSetStream io => some ({ code := 0x0701, len := some 16 }, io)
  | .ingSetGroup io => some ({ code := 0x0702, len := some 16 }, io)
  | .ingGetStream io => some ({ code := 0x0710, len := some 8 }, io)
  | .ingGetBed io => some ({ code := 0x0711, len := some 8 }, io)
  | .ingGetBuffer io => some ({ code := 0x0712, len := some 0 }, io)
  | .ingReadLines io _ => some ({ code := 0x0713, len := some 32 }, io)
  | .corSetStream io => some ({ code := 0x0800, len := some 16 }, io)
  | .corSetHeadGeom io => some ({ code := 0x0801, len := some 32 }, io)
  | .corSetGrid io => some ({ code := 0x0802, len := some 16 }, io)
  | .corSetCorrSet io => some ({ code := 0x0803, len := some 16 }, io)
  | .corLoadTable io => some ({ code := 0x0804 }, io)
  | .corSetStitch io => some ({ code := 0x0805, len := some 32 }, io)
  | .corGetStream io => some ({ code := 0x0810, len := some 8 }, io)
  | .corReadTable io => some ({ code := 0x0811, len := some 8 }, io)
  | .corGetStitch io => some ({ code := 0x0812, len := some 8 }, io)
  | .corAverageLines io _ => some ({ code := 0x0813, len := some 24 }, io)
  | .graphLoad io => some ({ code := 0x0900 }, io)
  | .graphSetBinding io => some ({ code := 0x0901, len := some 32 }, io)
  | .graphSetSprint io => some ({ code := 0x0902, len := some 8 }, io)
  | .graphGetHeadroom io => some ({ code := 0x0910, len := some 8 }, io)
  | .graphGetEngines io => some ({ code := 0x0911, len := some 0 }, io)
  | .graphSprintNow io => some ({ code := 0x0912, len := some 8 }, io)
  | .graphGetSprint io => some ({ code := 0x0913, len := some 0 }, io)
  | .graphReadCutList io => some ({ code := 0x0914, len := some 8 }, io)
  | .rgnSetGraph io => some ({ code := 0x0A00, len := some 96 }, io)
  | .rgnSetTiles io => some ({ code := 0x0A01, len := some 16 }, io)
  | .rgnGetStatus io => some ({ code := 0x0A10, len := some 0 }, io)
  | .rgnGetGraph io => some ({ code := 0x0A11, len := some 8 }, io)
  | .rgnFlush io => some ({ code := 0x0A12, len := some 8 }, io)
  | .hostSetRoute io => some ({ code := 0x0B00, len := some 32 }, io)
  | .hostSetQueue io => some ({ code := 0x0B01, len := some 8 }, io)
  | .hostFurrowCreate io => some ({ code := 0x0B10, vf := true, len := some 32, furrow := some 0 }, io)
  | .hostFurrowStart io => some ({ code := 0x0B11, vf := true, len := some 8, furrow := some 0 }, io)
  | .hostFurrowStop io _ => some ({ code := 0x0B12, vf := true, len := some 8, furrow := some 0 }, io)
  | .hostFurrowDestroy io => some ({ code := 0x0B13, vf := true, len := some 8, furrow := some 0 }, io)
  | .hostFurrowPair io => some ({ code := 0x0B14, needs := some 9, len := some 8, furrow := some 0 }, io)
  | .hostFurrowSwitch io => some ({ code := 0x0B15, needs := some 9, len := some 8, furrow := some 0 }, io)
  | .hostGetFurrow io => some ({ code := 0x0B16, vf := true, len := some 8, furrow := some 0 }, io)
  | .hostGetPort io _ => some ({ code := 0x0B17, len := some 8 }, io)
  | .trelSetStation io => some ({ code := 0x0C00, needs := some 5, len := some 16 }, io)
  | .trelSetIdentity io => some ({ code := 0x0C10, needs := some 3, len := some 16 }, io)
  | .trelGetStatus io => some ({ code := 0x0C11, needs := some 3, len := some 0 }, io)
  | .trelGetMember io => some ({ code := 0x0C12, needs := some 3, len := some 8 }, io)
  | .trelCommit io => some ({ code := 0x0C13, needs := some 3, len := some 16 }, io)
  | .trelAbort io => some ({ code := 0x0C14, needs := some 3, len := some 0 }, io)
  | .trelResync io => some ({ code := 0x0C15, needs := some 3, len := some 8 }, io)
  | .trelHandover io _ => some ({ code := 0x0C16, needs := some 3, len := some 8 }, io)
  | .trelReattach io => some ({ code := 0x0C17, needs := some 3, len := some 0 }, io)
  | .trelSetExpected io => some ({ code := 0x0C18, needs := some 3, len := some 72 }, io)
  | .trelGetDigests io => some ({ code := 0x0C19, needs := some 3, len := some 0 }, io)
  | .sysRestart io => some ({ code := 0x0010, len := some 8, exempt := true, inSafe := true }, io)
  | .sysGetStartInfo io => some ({ code := 0x0011, len := some 0, exempt := true, inSafe := true }, io)
  | .sysFwWrite io => some ({ code := 0x0012, inSafe := true }, io)
  | .sysFwActivate io => some ({ code := 0x0013, len := some 8 }, io)
  | .sysFwConfirm io _ => some ({ code := 0x0014, len := some 0 }, io)
  | .sysFwRecover io => some ({ code := 0x0015, len := some 8, inSafe := true }, io)
  | .calSetPolicy io => some ({ code := 0x0D00, len := some 16 }, io)
  | .calRun io => some ({ code := 0x0D10, len := some 8 }, io)
  | .calGetStatus io => some ({ code := 0x0D11, len := some 8 }, io)
  | .calGetTrims io => some ({ code := 0x0D12, len := some 8 }, io)
  | .calStore io => some ({ code := 0x0D13, len := some 0 }, io)
  | .calClearField io => some ({ code := 0x0D14, len := some 8 }, io)
  | .diagSnapshot io => some ({ code := 0x0E10, len := some 0, inSafe := true }, io)
  | .diagReadEvents io => some ({ code := 0x0E11, len := some 8 }, io)
  | .diagGetHbm io _ _ => some ({ code := 0x0E12, len := some 0 }, io)
  | .diagInject io => some ({ code := 0x0E13, len := some 8 }, io)
  | .slotGo _ _ | .slotOverrunClear _ _ | .ticketWorkEnd _ _ | .ticketExpiry _ | .commitPreparationDone | .commitIdleApply
  | .timeLatticePoint | .encoderEdgeAccepted _ _ _ | .overspeed _ | .ssiFrame _ _ _ _ | .stuckZ _ | .stale _ | .spindleUpdate
  | .speedSample | .flagLiveExpiry _ | .emuOutputCount _ | .gpInputEdge _ _ _ | .gpStuck _ | .spinPosLoRead _ | .compareMatch _ _
  | .lateTrigger _ _ | .trgPulseStart _ | .trgPulseEnd _ | .gevActionSend _ | .gevAchievedSample _ | .markAssert | .markDeassert
  | .servoMeasurement _ _ _ | .viewLost _ | .selectRevert | .qualificationEnd _ | .ptpMessageRx _ _ | .ptpMasterTransmit _ _
  | .ptpDelayReqSend _ _ | .txqEntry0Read _ | .txqDropsRead _ | .txqOverflowClear _ | .ppsInEdge _ _ | .clk10Gate _ | .ppsOutPulse
  | .viewBlockRead _ _ | .viewStepApply _ | .refclkLost _ | .adaptationFreeze _ _ _ | .adaptationResume _ _ _ | .boundHit _ _ _
  | .retrainInterval _ | .reanchor _ _ | .trainingFrameRx _ _ _ _ _ _ | .trainingEnd _ _ | .trainingTimeout _ | .blockLock _ _
  | .lockLoss _ _ | .flitRx _ _ | .replayTimeout _ | .alignmentMarker _ | .laneReadmission _ | .graftLinkFail _ | .checkerLock _
  | .checkerResync _ _ | .ethFrameRx _ _ | .modulePoll _ _ | .gvcpAckRx _ _ _ _ _ _ _ | .gvcpTimeout _ _ | .heartbeatRead _
  | .headRetry _ | .streamIdle _ | .streamPacketRx _ | .blockTimeout _ | .packetresendCmd _ | .resendTimeout _ | .cxpHeartbeatSend _
  | .cxpHeartbeatTimeout _ | .paramWriteSend _ | .lineComplete _ | .lineWaitExpiry _ | .stripeFlush | .bedServeLine _
  | .memberWaitExpiry _ | .bedRowEmit _ _ _ | .graphRow _ _ | .shadowCheck _ _ _ _ | .engineEccError _ _ | .knownAnswerTestDone _ _ _
  | .rerunComplete _ | .sprintStart | .sprintEnd | .contextFetchDone _ | .regionClose | .tileCutStart | .tileWaitExpiry
  | .doorbellWrite _ _ _ _ | .descriptorFetchDone _ _ _ | .unitHandoff | .descriptorWriteback _ _ _ | .packFlush _ | .irqTimer _
  | .rowBlockIdleClose _ | .burstError _ _ _ _ | .portLoss _ _ | .functionReset _ _ | .msixUnmask _ _ | .helloSend | .hello _
  | .formationTimeout | .formed _ | .timeFlitSend _ _ | .timeFlit _ _ _ | .positionSample | .positionFlit _ | .posStale | .isolated
  | .masterLost | .roleClaim _ | .handover _ | .memberLost _ | .estateDetached | .prepare _ | .prepared _ | .prepareTimeout | .commit _
  | .commitRepeat | .armed _ | .abort _ | .prepareHoldExpiry | .applied _ | .commitPartialTimeout | .digestSweep | .digestReq _
  | .digest _ | .rstNAssert | .rstNRelease _ _ _ | .perst _ _ _ | .brownOut | .rootPllUnlock | .coldStart _ | .deviceWarmStart _
  | .controlWarmStart _ | .watchdog | .startFailure _ | .startSuccess | .trimRecompute _ | .trimApply _ | .calibrationDue _
  | .calibrationRunDone _ _ | .calDeferred _ | .twinSwap _ | .calSlotStore _ | .sramUncorrectable _ _ _ | .hbmChannelFailed _ _ _
  | .scrub _ | .thermalSample _ _ | .thermalTrip _ | .eventsSuppressed | .faultStickyClear _ _ | .tjPeakRead _ | .smbReadTemperature _ _
  | .smbReadThermalStep _ | .smbReadPower _ | .smbReadStatus _ | .smbReadDeviceId _ | .smbReadStepping _ | .smbAlertResponse
  | .smbUnknownCommand _ | .dcLoRead _ | .intCauseClear _ _ | .mboxDoneClear _ _ _ | .heartbeatTick | .registerWrite _ _ _ _ _
  | .autonegResolved _ _ | .signalEnergyChange _ _ | .portL0Entry _ _ _ | .sriovConfigWrite _ _ _ | .cxpControlPacketRx _ _ _ _ _ _
  | .keptLaneValuesExpiry | .gvcpProxyDeadline _ | .selectionBiasSettled | .jtagTapAccess _ _ => none

/-- The furrows that a function owns. -/
def ownFurrows (f : Fn) (s : State) : Tab Furrow := s.deliv.furrows.filter (fun e => e.2.st != fsFree && e.2.owner == f)

/-- Whether a row is a staged command (R41). -/
def stagedRow : Instr → Bool
  | .statSetPeriod _ | .posSetChannel _ | .posSetSpindle _ | .posSetDiv _ | .posSetEmu _ | .posSetGpInput _ | .trigSetUnit _
  | .trigSetTrgOutput _ | .trigSetActBank _ | .trigSetActOutput _ | .trigSetActionRule _ | .trigSetGevAction _ | .timeSetView _
  | .timeSetPtpPort _ | .timeSetSelect _ | .timeSetPps _ | .laneSetLane _ | .laneSetEq _ | .camSetPort _ | .camSetHead _
  | .camSetStream _ | .ingSetBuffer _ | .ingSetStream _ | .ingSetGroup _ | .corSetStream _ | .corSetHeadGeom _ | .corSetGrid _
  | .corSetCorrSet _ | .corSetStitch _ | .graphSetBinding _ | .graphSetSprint _ | .rgnSetGraph _ | .rgnSetTiles _ | .hostSetRoute _
  | .hostSetQueue _ | .trelSetStation _ | .calSetPolicy _ | .corLoadTable _ | .graphLoad _ => true
  | _ => false

end Sys2Proof.Machine
end

