-- ==== Sys2Proof/Certificates/Slice0/Obligations.lean ====
section
/-! DEFINITION. The statements for the provers, by the chapters of the spec. A statement that says what a command answers names its
conditions on the state, the request and the operands; `Stages`, `Answers`, `Acts`, `Performs`, `Issues` and `Gives` (Sys2Proof/Safety.lean)
are the forms in which a command's next state is stated. -/

open Sys2Proof Sys2Proof.Machine

/-! The queue and the end of every step -/

/-- A step on a queue that is not empty runs the command at its front on the state with the queue's rest. -/
def Obligations.StepRunsFrontCommand : Prop :=
  ∀ (c : Instr) (rest : List Instr) (s : State), step { s with pending := c :: rest } = exec c { s with pending := rest }

/-- On an empty queue a tick of the device counter passes (log entry 3): from cold start step 2 on the counter takes one tick, after which
the sprint clock and the Headstock have their turn; before that nothing but the fault status changes (R112). The tick is the model's
choice. -/
def Obligations.EmptyQueuePassesATick : Prop :=
  ∀ s : State, s.pending = [] →
    step s = .next (syncFault (if s.start.windowUp then
      headstockTurn (sprintTick { s with time := { s.time with dc := (s.time.dc + 1) % 2 ^ 64 } }) else s))

/-- No command stops the machine: every command, in every state, answers a next state; none ends in a fault or a refusal. -/
def Obligations.NoCommandStops : Prop :=
  ∀ (c : Instr) (s : State), ∃ t, exec c s = .next t

/-- Right after reset: no configuration, generation 0, nothing staged and no commit (R52); the device counter and H are 0 (R88, R112); every
slot reads OFFLINE and its memory 0 (R23); no live counter counts; features unlocked; NO_MOTION alone in the fault status; a cold
start with cause POWER_ON is due (R391, log entry 2). -/
def Obligations.ResetValues : Prop :=
  let s := State.reset
  s.pending = [] ∧ s.cfg.generation = 0 ∧ s.cfg.active = [] ∧ s.cfg.staged = [] ∧ s.cfg.commit = none ∧ s.time.dc = 0 ∧ s.trig.high = 0
    ∧ (∀ f n, slotState s f n = 3) ∧ (∀ a, memByte s a = 0) ∧ (∀ f i, liveCounter s f i = 0) ∧ s.mbx.locked = false
    ∧ s.ev.status = 0x2000 ∧ s.start.due.isSome = true

/-- The fault status of the machine after reset is the one its state gives. -/
def Obligations.FaultStatusAtReset : Prop := FaultStatusKept State.reset

/-- After every step FAULT_STATUS, as compared for the fault vector, is what the new state gives (R429), and it stays within its 16 bits. -/
def Obligations.FaultStatusFollowsEveryStep : Prop :=
  ∀ s t : State, FaultStatusKept s → step s = .next t → FaultStatusKept t

/-- A change of FAULT_STATUS sets the fault cause of both PFs, a bit that became 1 sets its sticky bit, and no sticky bit is lost (R429);
without a change nothing happens. -/
def Obligations.FaultChangeRaisesBothPfs : Prop :=
  ∀ s : State,
    (faultStatus s = s.ev.status → syncFault s = s) ∧
    (faultStatus s ≠ s.ev.status →
      bitOf (fnRegs (syncFault s) 0).cause 2 = true ∧ bitOf (fnRegs (syncFault s) 64).cause 2 = true ∧
      (syncFault s).ev.status = faultStatus s ∧
      (syncFault s).ev.sticky = s.ev.sticky ||| (faultStatus s &&& (faultStatus s ^^^ s.ev.status)) ∧
      (syncFault s).ev.log = s.ev.log ∧ (syncFault s).cfg = s.cfg ∧ (syncFault s).pos = s.pos ∧ (syncFault s).win.mem = s.win.mem)

/-! Every row of the mailbox (chapter 2) -/

/-- R35: for every row of the mailbox, a request that fails a check before the command's own is answered with the status of the first
failing check in the order of R35, and has no effect but its response. `firstBad` makes the checks in that order: DENIED (another function's
number, a command a VF may not issue, another function's furrow), then BAD_STATE, NOT_NEGOTIATED, for the command's feature or one that its
fields ask for (R257, R273, R407), and BAD_ARG; the exemptions of R403 and R404 depend on the kind of SYS.RESTART; a request whose code is not
defined is answered BAD_CMD, or DENIED where it fails that check. -/
def Obligations.ChecksComeInOrder : Prop :=
  (∀ (i : Instr) (c : CmdSpec) (io : HostIo) (q : Req) (rest : List Req) (st : Nat) (s : State),
    mailboxRow i = some (c, io) → Oldest c q rest s → firstBad c q (payloadOf q io.req) (taken rest s) = some st →
    exec i s = .next (syncFault (respond q st [] 0 0 (taken rest s)))) ∧
  (∀ (c : CmdSpec) (q : Req) (p : Option Bytes) (s : State), firstBad c q p s =
    if namedFn q != q.fn || (!fnIsPf q.fn && !c.vf) || (match c.furrow, p with
      | some k, some b => decide (k + 2 ≤ b.length) && (furrowOf s (fld b k 2)).st != fsFree && (furrowOf s (fld b k 2)).owner != q.fn
      | _, _ => false) then some stDenied
    else if !s.start.safe && !isExempt c p && !s.mbx.locked && decide (2 < c.code) then some stBadState
    else if s.start.safe && !takenInSafe c p then some stBadState
    else if !s.start.safe && !isExempt c p && ((!fnIsPf q.fn && !feature s 8)
      || (match c.needs with | some b => !feature s b | none => false)
      || (match p with | some b => (match namedFeature c.code b with | some k => !feature s k | none => false) | none => false))
      then some stNotNegotiated
    else if headerBad q c.len then some stBadArg else none) ∧
  (∀ (q : Req) (rest : List Req) (s : State), s.mbx.answering = true → s.mbx.hold = none → s.mbx.inbox = q :: rest →
    codeDefined q.command = false → (∀ r ∈ rest, codeDefined r.command = true) →
    headstockTurn s = putResponse q
      (if namedFn q != q.fn || !fnIsPf q.fn then stDenied else stBadCmd) [] 0 0 (taken rest s))

/-- A row of the mailbox has no effect when the oldest request is for another command, and none when a request is held for a camera's
answer or the Headstock does not answer. -/
def Obligations.OtherRequestsAreLeftAlone : Prop :=
  ∀ (i : Instr) (c : CmdSpec) (io : HostIo) (s : State), mailboxRow i = some (c, io) →
    ((∃ q rest, s.mbx.inbox = q :: rest ∧ codeDefined q.command = true ∧ q.command ≠ c.code) ∨ s.mbx.answering = false
      ∨ s.mbx.hold.isSome = true ∨ s.mbx.inbox = []) →
    exec i s = .next (syncFault s)

/-- A response stands in its slot: header and payload are in the response area, every other byte of every slot is unchanged, the areas
keep their canonical form, and the slot is DONE with the request's sequence (R25, R27). -/
def Obligations.ResponseStaysInItsArea : Prop :=
  ∀ (q : Req) (st : Nat) (a : Bytes) (len tk : Nat) (s : State), Memory.wf s.win.mem = true → a.length ≤ 4080 →
    let t := respond q st a len tk s
    Memory.wf t.win.mem = true ∧
    (∀ k, ¬ inResponse q k → memByte t k = memByte s k) ∧
    slotRead t q.fn q.slot 0x1000 16 = leBytes 2 q.command ++ leBytes 2 st ++ leBytes 4 q.sequence ++ leBytes 4 len ++ leBytes 4 tk ∧
    slotRead t q.fn q.slot 0x1010 a.length = a ∧
    (slotOf t q.fn q.slot).st = 2 ∧ (slotOf t q.fn q.slot).seqLow = q.sequence % 65536

/-- R29: a response that exceeds its room, 4,080 bytes in the slot or resp_capacity, is answered NO_RESOURCE without a payload and with the
size it needs, and the command has had no effect. -/
def Obligations.TooLargeAResponseHasNoEffect : Prop :=
  ∀ (q : Req) (ok : Bool) (before : State) (r : Reply),
    (if respIndirect q.flags then fld q.inline 16 4 else 4080) < r.payload.length →
    complete q ok before r = respond q stNoResource [] r.payload.length 0 before

/-- A failed read at req_addr, or a failed write to resp_addr, is answered FAULT with fault_code 2, and the command has had no effect
(R33). -/
def Obligations.FailedHostAccessHasNoEffect : Prop :=
  (∀ (i : Instr) (c : CmdSpec) (io : HostIo) (q : Req) (rest : List Req) (s : State), mailboxRow i = some (c, io) → Oldest c q rest s →
    firstBad c q none (taken rest s) = none → reqIndirect q.flags = true → io.req = none →
    exec i s = .next (syncFault (putResponse q stFault (leBytes 4 2) 4 0
      (bump 11 (2048 + fnPort q.fn * 16 + if io.timeout then 5 else 6) (taken rest s))))) ∧
  (∀ (q : Req) (before : State) (r : Reply), r.payload.length ≤ respRoom q → respIndirect q.flags = true → r.payload ≠ [] →
    complete q false before r = respond q stFault (leBytes 4 2) 4 0 before)

/-! Staged commands -/

/-- The staged commands of the position inputs and of the triggers (R41, R42; R86, R474, R81 to R83; R97, R99, R102, R105 to R107): each
stages its payload under its code and object and answers OK when its own check passes and no commit is armed or applying. Nothing else
changes. -/
def Obligations.PositionAndTriggerSettingsStage : Prop :=
  Stages .posSetChannel { code := 0x0400, len := some 48 } objByte chanCheck
  ∧ Stages .posSetSpindle { code := 0x0401, len := some 48 } (fun _ => 0) spinCheck
  ∧ Stages .posSetDiv { code := 0x0402, len := some 16 } objByte divCheck
  ∧ Stages .posSetEmu { code := 0x0403, len := some 32 } objByte emuCheck
  ∧ Stages .posSetGpInput { code := 0x0404, len := some 16 } objByte gpCheck
  ∧ Stages .trigSetUnit { code := 0x0500, len := some 64 } objByte unitCheck
  ∧ Stages .trigSetTrgOutput { code := 0x0501, len := some 16 } objByte trgCheck
  ∧ Stages .trigSetActBank { code := 0x0502, len := some 8 } objByte bankCheck
  ∧ Stages .trigSetActOutput { code := 0x0503, len := some 32 } objByte actCheck
  ∧ Stages .trigSetActionRule { code := 0x0504, len := some 64 } objByte ruleCheck
  ∧ Stages .trigSetGevAction { code := 0x0505, needs := some 1, len := some 32 } objByte gevCheck

/-- The staged commands of the time views, of the lanes and of the camera links, in the same way (R41, R42). -/
def Obligations.TimeLaneAndCameraSettingsStage : Prop :=
  Stages .timeSetView { code := 0x0600, len := some 32 } objByte viewCheck
  ∧ Stages .timeSetPtpPort { code := 0x0601, len := some 32 } objByte ptpCheck
  ∧ Stages .timeSetSelect { code := 0x0602, len := some 16 } (fun _ => 0) selCheck
  ∧ Stages .timeSetPps { code := 0x0603, len := some 16 } (fun _ => 0) ppsCheck
  ∧ Stages .laneSetLane { code := 0x0200, len := some 16 } (fun p => fld p 0 1) laneCheck
  ∧ Stages .laneSetEq { code := 0x0201, len := some 16 } (fun p => fld p 0 1) eqCheck
  ∧ Stages .camSetPort { code := 0x0300, len := some 16 } (fun p => fld p 0 1) portCheck
  ∧ Stages .camSetHead { code := 0x0301, len := some 64 } (fun p => fld p 0 1) headCheck
  ∧ Stages .camSetStream { code := 0x0302, len := some 32 } (fun p => fld p 0 1) streamCheck

/-- The staged commands of ingest, correction, graphs and regions, in the same way (R41, R42). The loads COR.LOAD_TABLE and GRAPH.LOAD
stage the table and the cut list alone: see their own statement. -/
def Obligations.PipelineSettingsStage : Prop :=
  Stages .ingSetBuffer { code := 0x0700, len := some 16 } (fun _ => 0) bufferCheck
  ∧ Stages .ingSetStream { code := 0x0701, len := some 16 } (fun p => fld p 0 1) ingStreamCheck
  ∧ Stages .ingSetGroup { code := 0x0702, len := some 16 } (fun p => fld p 0 1) groupCheck
  ∧ Stages .corSetStream { code := 0x0800, len := some 16 } (fun p => fld p 0 1) corCheck
  ∧ Stages .corSetHeadGeom { code := 0x0801, len := some 32 } (fun p => fld p 0 1) geomCheck
  ∧ Stages .corSetGrid { code := 0x0802, len := some 16 } (fun p => fld p 0 1) gridCheck
  ∧ Stages .corSetCorrSet { code := 0x0803, len := some 16 } corrSetObj corrSetCheck
  ∧ Stages .corSetStitch { code := 0x0805, len := some 32 } (fun p => fld p 0 1) stitchCheck
  ∧ Stages .graphSetBinding { code := 0x0901, len := some 32 } (fun p => fld p 0 1) bindCheck
  ∧ Stages .graphSetSprint { code := 0x0902, len := some 8 } (fun _ => 0) sprintCheck
  ∧ Stages .rgnSetGraph { code := 0x0A00, len := some 96 } (fun p => fld p 0 1) rgnCheck
  ∧ Stages .rgnSetTiles { code := 0x0A01, len := some 16 } (fun _ => 0) (fun _ p => orBadArg (zeroOrIn (fld p 0 2) 1 400 && zeroOrIn (fld p 2 2) 1 1000 && zeroRange p 4 12))

/-- The staged commands of delivery, of the estate, of calibration and of the period, in the same way (R41, R42). -/
def Obligations.DeliverySettingsStage : Prop :=
  Stages .statSetPeriod { code := 0x0F00, len := some 16 } (fun _ => 0) periodCheck
  ∧ Stages .hostSetRoute { code := 0x0B00, len := some 32 } (fun p => fld p 0 2) routeCheck
  ∧ Stages .hostSetQueue { code := 0x0B01, len := some 8 } (fun _ => 0) queueCheck
  ∧ Stages .trelSetStation { code := 0x0C00, needs := some 5, len := some 16 } (fun p => fld p 0 1) (fun _ p => orBadArg (fieldsOk p [⟨0, 1, 0, 15, false⟩, ⟨1, 1, 0, 1, false⟩, ⟨8, 8, -(2 ^ 50), 2 ^ 50, true⟩] [(2, 6)]))
  ∧ Stages .calSetPolicy { code := 0x0D00, len := some 16 } (fun p => fld p 0 1) calPolicyCheck

/-- R42: the Cloche holds one staged image. A staged command that names the code and object of a setting already staged replaces its value,
and no other; while a commit is armed or applying, every staged command returns BUSY and stages nothing. -/
def Obligations.OneStagedImage : Prop :=
  (∀ (i : Instr) (c : CmdSpec) (io : HostIo) (q : Req) (rest : List Req) (p : Bytes) (s : State), stagedRow i = true →
    mailboxRow i = some (c, io) → Comes c io q rest p s → s.cfg.commit.isSome = true →
    exec i s = .next (syncFault (respond q stBusy [] 0 0 (taken rest s)))) ∧
  (∀ (i : Instr) (c : CmdSpec) (io : HostIo) (q : Req) (rest : List Req) (p : Bytes) (s : State), stagedRow i = true →
    mailboxRow i = some (c, io) → Comes c io q rest p s → ∃ t, exec i s = .next t ∧
      (t.cfg.staged = s.cfg.staged ∨ ∃ obj value, t.cfg.staged = tput s.cfg.staged (settingKey c.code obj) value)) ∧
  (∀ (img : Image) (code obj : Nat) (old new : Bytes), let k := settingKey code obj
    tfind (tput (tput img k old) k new) k = some new ∧ tput (tput img k old) k new = tput img k new ∧
    ∀ j, j ≠ k → tfind (tput img k new) j = tfind img j)

/-- The two loads are staged too (R241, R258): COR.LOAD_TABLE takes a sound table of its stream's columns, GRAPH.LOAD an empty cut list,
which removes the graph's, or one that passes R257 and whose EXPR is accepted. What is staged is the table or the cut list alone. -/
def Obligations.LoadsStage : Prop :=
  Acts .corLoadTable { code := 0x0804 } (fun s q p => clocheBusy s = false ∧ reqIndirect q.flags = true ∧ 8 ≤ p.length ∧ fld p 0 1 < 128
      ∧ zeroRange p 1 7 = true ∧ ∃ c, stagedStream s (fld p 0 1) = some c ∧ (p.drop 8).length = 8 * 512 * tableGranules c.columns
        ∧ badColumn (p.drop 8) c.columns = none)
    (fun s _ p => { s with cfg := { s.cfg with staged := tput s.cfg.staged (settingKey 0x0804 (fld p 0 1)) (p.drop 8) } })
  ∧ Acts .graphLoad { code := 0x0900 } (fun s q p => clocheBusy s = false ∧ reqIndirect q.flags = true ∧ 8 ≤ p.length ∧ fld p 0 1 < 64
      ∧ zeroRange p 1 7 = true ∧ (p.drop 8 = [] ∨ ∃ c, readCut (p.drop 8) = .ok c ∧ (usesOp c opExpr = true → feature s 11 = true)))
    (fun s _ p => { s with cfg := { s.cfg with staged := tput s.cfg.staged (settingKey 0x0900 (fld p 0 1)) (p.drop 8) } })

/-! Queries -/

/-- The queries of the mailbox, of the position inputs, the triggers, the time views and the camera links answer OK from the state and leave
it alone (R38, R43, R473, R85, R84, R73, R89, R96, R114, R184, R180, R181). -/
def Obligations.FrontEndQueriesAnswer : Prop :=
  Answers .sysGetFeatures { code := 0x0001, vf := true, len := some 0 } (fun _ _ _ => True) (fun s _ => leBytes 32 (offeredFeatures s)
    ++ leBytes 32 (if s.mbx.locked then s.mbx.accepted else 0) ++ leBytes 4 (b2n s.mbx.locked) ++ zeros 4)
  ∧ Answers .cfgStatus { code := 0x0100, len := some 0 } (fun _ _ _ => True) (fun s _ => cfgStatus s)
  ∧ Answers .cfgReadImage { code := 0x0104, len := some 8 } (fun _ q p => respIndirect q.flags = true ∧ fld p 0 1 ≤ 1
      ∧ zeroRange p 1 7 = true) (fun s p => if fld p 0 1 = 0 then canonImage s.mbx.accepted s.cfg.active else stagedCanon s)
  ∧ Answers .posGetStatus { code := 0x0410, len := some 0 } (fun _ _ _ => True) (fun s _ => posStatus s)
  ∧ Answers .posGetChannel { code := 0x0411, len := some 8 } (fun _ _ p => fld p 0 1 < 16 ∧ zeroRange p 1 7 = true) chanStatus
  ∧ Answers .posGetIndexHistory { code := 0x0412, len := some 8 } (fun _ _ p => fld p 0 1 < 16 ∧ zeroRange p 1 7 = true) indexHistory
  ∧ Answers .trigGetUnit { code := 0x0513, len := some 8 } (fun _ _ p => fld p 0 1 < 64 ∧ zeroRange p 1 7 = true) unitStatus
  ∧ Answers .trigReadLog { code := 0x0514, len := some 8 } (fun _ _ p => fld p 0 1 < 64 ∧ 1 ≤ fld p 2 2 ∧ fld p 2 2 ≤ 256
      ∧ zeroRange p 1 1 = true ∧ zeroRange p 4 4 = true) readLog
  ∧ Answers .timeGetView { code := 0x0610, len := some 8 } (fun _ _ p => fld p 0 1 < 8 ∧ zeroRange p 1 7 = true) getView
  ∧ Answers .camGetHead { code := 0x0310, len := some 8 } (fun _ _ p => fld p 0 1 < 48 ∧ zeroRange p 1 7 = true) headStatus
  ∧ Answers .camGetModule { code := 0x0318, len := some 8 } (fun _ _ p => fld p 0 1 < 16 ∧ zeroRange p 1 7 = true)
    (fun s p => moduleBytes (moduleOf s (fld p 0 1)))
  ∧ (∀ data : Bytes, Answers (.camModuleRead · data) { code := 0x0316, len := some 8 } (fun s _ p => moduleBad s p = none)
    (fun _ p => p.take 8 ++ fitTo (fld p 4 1) data))

/-- The queries of ingest, correction, graphs and regions answer OK from the state and leave it alone (R219, R218, R211, R238, R240, R249, R265, R272, R275, R258, R308, R316);
GRAPH.GET_HEADROOM of a staged image that is not admitted answers the status the commit would report. -/
def Obligations.PipelineQueriesAnswer : Prop :=
  Answers .ingGetStream { code := 0x0710, len := some 8 } (fun _ _ p => fld p 0 1 < 128 ∧ zeroRange p 1 7 = true) ingStream
  ∧ Answers .ingGetBed { code := 0x0711, len := some 8 } (fun _ _ p => fld p 0 1 < 8 ∧ zeroRange p 1 7 = true) ingBed
  ∧ Answers .ingGetBuffer { code := 0x0712, len := some 0 } (fun _ _ _ => True) ingBuffer
  ∧ Answers .corGetStream { code := 0x0810, len := some 8 } (fun _ _ p => fld p 0 1 < 128 ∧ zeroRange p 1 7 = true) corStream
  ∧ Answers .corReadTable { code := 0x0811, len := some 8 } (fun s q p => respIndirect q.flags = true ∧ fld p 0 1 < 128 ∧ fld p 1 1 ≤ 1
      ∧ zeroRange p 2 6 = true ∧ (streamCfg (if fld p 1 1 = 1 then nextImage s else s.cfg.active) (fld p 0 1)).isSome = true)
    (fun s p => fullTable (if fld p 1 1 = 1 then nextImage s else s.cfg.active) (fld p 0 1))
  ∧ Answers .corGetStitch { code := 0x0812, len := some 8 } (fun _ _ p => fld p 0 1 < 16 ∧ zeroRange p 1 7 = true) corStitch
  ∧ (∀ st : Nat, Performs .graphGetHeadroom { code := 0x0910, len := some 8 }
      (fun s _ p => fld p 0 1 < 2 ∧ zeroRange p 1 7 = true ∧ st = (if fld p 0 1 = 0 then stOk else
        match (admitGraphs s (nextImage s)).fail with | some e => e.2 | none => stOk)) st
      (fun s q p => (headroom s q p).payload) (fun s _ _ => s))
  ∧ Answers .graphGetEngines { code := 0x0911, len := some 0 } (fun _ _ _ => True) (fun s _ => engineTable s)
  ∧ Answers .graphGetSprint { code := 0x0913, len := some 0 } (fun _ _ _ => True) sprintStatus
  ∧ Answers .graphReadCutList { code := 0x0914, len := some 8 } (fun _ q p => respIndirect q.flags = true ∧ fld p 0 1 < 64
      ∧ fld p 1 1 < 2 ∧ zeroRange p 2 6 = true)
    (fun s p => settingIn (if fld p 1 1 = 0 then s.cfg.active else nextImage s) 0x0900 (fld p 0 1) [])
  ∧ Answers .rgnGetStatus { code := 0x0A10, len := some 0 } (fun _ _ _ => True) rgnStatus
  ∧ Answers .rgnGetGraph { code := 0x0A11, len := some 8 } (fun s _ p => rgnGraphCheck s p = none) rgnGraph

/-- The queries of delivery, trellis, starts, calibration and diagnostics answer OK from the state and leave it alone (R339, R329, R365, R366,
R385, R404, R417, R410, R431). -/
def Obligations.BackEndQueriesAnswer : Prop :=
  Answers .hostGetFurrow { code := 0x0B16, vf := true, len := some 8, furrow := some 0 } (fun s _ p => fld p 0 2 < 32768
      ∧ zeroRange p 2 6 = true ∧ (furrowOf s (fld p 0 2)).st ≤ fsFault) furrowAnswer
  ∧ (∀ regs : PortRegs, Answers (.hostGetPort · regs) { code := 0x0B17, len := some 8 }
      (fun _ _ p => fld p 0 1 < 2 ∧ zeroRange p 1 7 = true) (portAnswer regs))
  ∧ Answers .trelGetStatus { code := 0x0C11, needs := some 3, len := some 0 } (fun _ _ _ => True) (fun s _ => trelStatus s)
  ∧ (∀ k : Nat, Answers .trelGetMember { code := 0x0C12, needs := some 3, len := some 8 } (fun s _ p => zeroRange p 2 6 = true
      ∧ needsRole coordinates s = none ∧ namedMember s p = some k) (fun s _ => memberBytes s k))
  ∧ Answers .trelGetDigests { code := 0x0C19, needs := some 3, len := some 0 } (fun s q _ => respIndirect q.flags = true
      ∧ needsRole coordinates s = none) (fun s _ => (s.trel.lastSweep.map (sweepEntryBytes s)).flatten)
  ∧ Answers .sysGetStartInfo { code := 0x0011, len := some 0, exempt := true, inSafe := true } (fun _ _ _ => True) (fun s _ => startInfo s)
  ∧ (∀ k : Nat, Answers .calGetStatus { code := 0x0D11, len := some 8 } (fun _ _ p => zeroRange p 2 6 = true ∧ fld p 0 2 ≠ 255
      ∧ namedTarget p = some k) (fun s _ => calStatus s k))
  ∧ Answers .calGetStatus { code := 0x0D11, len := some 8 } (fun _ _ p => zeroRange p 2 6 = true ∧ fld p 0 2 = 255)
    (fun s _ => deviceCalStatus s)
  ∧ (∀ k : Nat, Answers .calGetTrims { code := 0x0D12, len := some 8 } (fun _ _ p => zeroRange p 2 6 = true ∧ namedTarget p = some k)
    (fun s _ => trimBytes s k))
  ∧ Answers .diagReadEvents { code := 0x0E11, len := some 8 } (fun s _ p => 1 ≤ fld p 4 2 ∧ fld p 4 2 ≤ 63 ∧ zeroRange p 6 2 = true
      ∧ eventsGone s (fld p 0 4) = false)
    (fun s p =>
      let l := (s.ev.log.reverse.filter (fun e => decide (seqAge s e.sequence ≤ seqAge s (fld p 0 4)))).take (fld p 4 2)
      leBytes 4 l.length ++ zeros 4 ++ l.flatMap eventLogEntry)

/-! Direct commands -/

/-- The mailbox's own commands and the commit's. SYS.NOP returns its payload (R34); SYS.SET_FEATURES of an acceptable map locks it, and the
device joins its trellis; once locked the same map is answered OK again (R39); SYS.TICKET_STATUS answers for a ticket of the function, and drops it with its final response (R31);
CFG.COMMIT of a sound staged image arms the commit (R471, R44, R45); CFG.CANCEL disarms it before P_c (R50); CFG.DISCARD empties the staged
image (R42); STAT.LATCH_NOW asks for a boundary and answers the number of the open period (R56). -/
def Obligations.MailboxAndCommitCommandsAct : Prop :=
  Performs .sysNop { code := 0x0000, vf := true, inSafe := true } (fun _ _ _ => True) stOk (fun _ _ p => p) (fun s _ _ => s)
  ∧ Performs .sysSetFeatures { code := 0x0002, len := some 32 } (fun s _ p => s.mbx.locked = false ∧ badFeature s (fld p 0 32) = none) stOk
    (fun s _ p => leBytes 2 0xFFFF ++ zeros 2 ++ leBytes 4 (b2n (joinTrellis { s with mbx := { s.mbx with
      locked := true, accepted := fld p 0 32 } }).mbx.locked))
    (fun s _ p => joinTrellis { s with mbx := { s.mbx with locked := true, accepted := fld p 0 32 } })
  ∧ Performs .sysSetFeatures { code := 0x0002, len := some 32 } (fun s _ p => s.mbx.locked = true ∧ fld p 0 32 = s.mbx.accepted) stOk
    (fun _ _ _ => leBytes 2 0xFFFF ++ zeros 2 ++ leBytes 4 1) (fun s _ _ => s)
  ∧ (∀ t : Ticket, Performs .sysTicketStatus { code := 0x0003, vf := true, inSafe := true, len := some 8 }
    (fun s q p => zeroRange p 4 4 = true ∧ tfind s.mbx.tickets (fld p 0 4) = some t ∧ t.fn = q.fn) stOk
    (fun _ _ _ => if t.done then leBytes 2 t.command ++ leBytes 2 t.status ++ leBytes 4 t.resultLen ++ t.result
      else leBytes 2 t.command ++ leBytes 2 stInProgress ++ leBytes 4 0)
    (fun s _ p => if t.done then { s with mbx := { s.mbx with tickets := tdel s.mbx.tickets (fld p 0 4) } } else s))
  ∧ (∀ pc : Option Int, Performs .cfgCommit { code := 0x0101, len := some 24 } (fun s _ p => commitArgs s p = true ∧ s.cfg.commit = none
      ∧ (feature s 3 && formed s) = false ∧ fld p 16 4 = s.cfg.generation ∧ s.cfg.staged ≠ [] ∧ validate false s = none
      ∧ pc = commitPosition s p (leastPosition s.pos.sp.pos (spinSpeed s) (stageTime s + 100))
      ∧ (fld p 0 1 = 2 → leastPosition s.pos.sp.pos (spinSpeed s) (stageTime s + 100) ≤ sfld p 8 8 ∧ s.trig.high < sfld p 8 8)) stOk
    (fun s _ _ => leBytes 4 (nextGeneration s.cfg.generation) ++ leBytes 4 (stageTime s)
      ++ (match pc with | some v => leInt 8 v | none => leBytes 8 (2 ^ 63)) ++ sha256 (stagedCanon s))
    (fun s _ p => armCommit (fld p 0 1) pc (stageTime s) false none s))
  ∧ (∀ c : CommitRec, Acts .cfgCancel { code := 0x0102, len := some 0 } (fun s _ _ => s.cfg.commit = some c ∧ c.applying = false)
    (fun s _ _ => match c.trellis, c.pc with
      | some id, some pc => setTrel { (disarm s).trel with cancelled := some (id, pc) } (disarm s)
      | _, _ => disarm s))
  ∧ Acts .cfgDiscard { code := 0x0103, len := some 0 } (fun s _ _ => clocheBusy s = false)
    (fun s _ _ => { s with cfg := { s.cfg with staged := [] } })
  ∧ Performs .statLatchNow { code := 0x0F01, len := some 0 } (fun _ _ _ => True) stOk (fun s _ _ => leBytes 8 s.stat.number)
    (fun s _ _ => boundary 1 false none s)

/-- R471: CFG.COMMIT makes its own checks in this order and answers the status of the first that fails: BAD_ARG for a field, BUSY while a
commit is ARMED or APPLYING or a PREPARE is held, 0x42 where the trellis must commit, 0x41 for another generation, 0x44 for nothing
staged, 0x40 with the offender for a failed validation, BEHIND for a POSITION before p_min or not above H. The commit arms nothing and the
staged image stays. -/
def Obligations.CommitChecksComeInOrder : Prop :=
  ∀ (io : HostIo) (q : Req) (rest : List Req) (p : Bytes) (s : State) (st : Nat) (a : Bytes),
    Comes { code := 0x0101, len := some 24 } io q rest p s → Reaches q io a →
    (if commitArgs s p = false then some (stBadArg, ([] : Bytes))
      else if s.cfg.commit.isSome then some (stBusy, [])
      else if feature s 3 = true ∧ formed s = true then some (0x42, [])
      else if fld p 16 4 ≠ s.cfg.generation then some (0x41, [])
      else if s.cfg.staged = [] then some (0x44, [])
      else match validate false (taken rest s) with
        | some (k, r) => some (0x40, offender k r)
        | none =>
          if fld p 0 1 = 2 ∧ (sfld p 8 8 < leastPosition s.pos.sp.pos (spinSpeed s) (stageTime (taken rest s) + 100)
            ∨ sfld p 8 8 ≤ s.trig.high) then some (stBehind, []) else none) = some (st, a) →
    exec (.cfgCommit io) s = .next (syncFault (answered q st a 0 (taken rest s)))

/-- The direct commands of the position inputs and the triggers. POS.CLEAR_FLAGS clears the flags its mask names (R84); POS.RESTORE_MASTER
asks for the master again once the last window lay in tolerance (R77); the queue of a QUEUED unit takes a position ahead of H, a late one is
held until the tick in which it fires (R92), and an armed value is disarmed again, alone or with the queue (R93); TRIG.MARK_ADD schedules a
mark ahead of H (R109). -/
def Obligations.PositionAndTriggerCommandsAct : Prop :=
  Acts .posClearFlags { code := 0x0413, len := some 8 } (fun _ _ p => zeroRange p 1 3 = true ∧ (fld p 0 1 = 0xFF ∨ fld p 0 1 < 16 ∧ fld p 4 4 < 2048))
    (fun s _ p => if fld p 0 1 = 0xFF then (if bitOf (fld p 4 4) 4 then modSpin (fun sp => { sp with slip := false }) s else s)
      else modChan (fld p 0 1) (fun c => { c with
        uncertain := c.uncertain && !bitOf (fld p 4 4) 1, sticky := c.sticky &&& (2047 ^^^ fld p 4 4) }) s)
  ∧ (∀ m : Nat, Acts .posRestoreMaster { code := 0x0414, len := some 0 } (fun s _ _ => (spinSet s).master = some m ∧ s.pos.sp.altActive = true
      ∧ recentlyFailed s (chan s m) = false ∧ s.pos.sp.windowsSince ≠ 0 ∧ s.pos.sp.lastInTol = true)
    (fun s _ _ => modSpin (fun x => { x with restorePending := true }) s))
  ∧ Performs .trigQueueAdd { code := 0x0510, len := some 16 } (fun s _ p => unitArgOk p = true ∧ (unitSet s (fld p 0 1)).enable = true
      ∧ s.trig.high < sfld p 8 8 ∧ (trigUnit s (fld p 0 1)).queue.contains (sfld p 8 8) = false ∧ (trigUnit s (fld p 0 1)).queue.length < 16) stOk
    (fun s _ p => leBytes 1 0 ++ leBytes 1 (15 - (trigUnit s (fld p 0 1)).queue.length) ++ zeros 6)
    (fun s _ p => setTrigUnit (fld p 0 1) { trigUnit s (fld p 0 1) with
      queue := insertAsc (sfld p 8 8) (trigUnit s (fld p 0 1)).queue } s)
  ∧ (∀ (io : HostIo) (q : Req) (rest : List Req) (p : Bytes) (s : State), let u := fld p 0 1
    Comes { code := 0x0510, len := some 16 } io q rest p s → unitArgOk p = true → (unitSet s u).enable = true →
    sfld p 8 8 ≤ s.trig.high → (unitSet s u).fireLate = true →
    let t := setTrigUnit u { trigUnit s u with late := some (sfld p 8 8) } (taken rest s)
    exec (.trigQueueAdd io) s = .next (syncFault { t with
      mbx := { t.mbx with hold := some { req := q, head := 64 + u, since := dcNow s, respOk := io.respOk } } }))
  ∧ Acts .trigQueueCancel { code := 0x0511, len := some 16 } (fun s _ p => unitArgOk p = true ∧ (unitSet s (fld p 0 1)).enable = true
      ∧ (trigUnit s (fld p 0 1)).queue.contains (sfld p 8 8) = true)
    (fun s _ p => setTrigUnit (fld p 0 1) { trigUnit s (fld p 0 1) with
      queue := (trigUnit s (fld p 0 1)).queue.filter (fun w => w ≠ sfld p 8 8) } s)
  ∧ Performs .trigQueueFlush { code := 0x0512, len := some 8 } (fun s _ p => unitArgOk p = true ∧ (unitSet s (fld p 0 1)).enable = true) stOk
    (fun s _ p => leBytes 8 (trigUnit s (fld p 0 1)).queue.length)
    (fun s _ p => setTrigUnit (fld p 0 1) { trigUnit s (fld p 0 1) with queue := [] } s)
  ∧ Acts .trigMarkAdd { code := 0x0515, len := some 24 } (fun s _ p => fld p 0 1 ≤ 15 ∧ fld p 1 1 ≤ 1 ∧ zeroRange p 2 6 = true
      ∧ (if (actCfg (posImage s) (fld p 0 1)).length then sfld p 8 8 < sfld p 16 8 else sfld p 16 8 = 0)
      ∧ s.trig.high < sfld p 8 8 ∧ s.trig.marks.length < markRoom)
    (fun s _ p => setMarks (s.trig.marks ++
      [⟨fld p 0 1, (actCfg (posImage s) (fld p 0 1)).length, sfld p 8 8, sfld p 16 8, 0, false, none⟩]) s)

/-- The direct commands of the time views. TIME.STEP_VIEW gives a FREE or HOST_FEED view a step at a device counter value, a PPS_IN view the
seconds of its next edge (R124; a step that waits is replaced, log entry 103); TIME.FEED_OFFSET is a measurement of a HOST_FEED view, which it keeps from being lost (R120, R121);
TIME.SELECT_NOW selects view 7 or a LOCKED view (R131, R140); TIME.CLEAR_FLAGS clears SUSPECT and UNVERIFIED (R133). -/
def Obligations.TimeCommandsAct : Prop :=
  Acts .timeStepView { code := 0x0611, len := some 32 } (fun s _ p => fld p 0 1 < 7 ∧ zeroRange p 1 7 = true ∧ fld p 16 8 < 2 ^ 48
      ∧ fld p 24 4 < 1000000000 ∧ zeroRange p 28 4 = true ∧ (fld p 8 8 = 0 ∨ ticksFrom (dcNow s) (fld p 8 8) ≤ secTicks 1)
      ∧ (viewSet s (fld p 0 1)).source ≠ 1)
    (fun s _ p => if (viewSet s (fld p 0 1)).source = 3 then setView (fld p 0 1) { view s (fld p 0 1) with ppsSeconds := some (fld p 16 8) } s
      else setView (fld p 0 1) { view s (fld p 0 1) with
        step := some (if fld p 8 8 = 0 then ahead s 1 else fld p 8 8, fld p 16 8 * 1000000000 + fld p 24 4) } s)
  ∧ Acts .timeFeedOffset { code := 0x0612, len := some 24 } (fun s _ p => fld p 0 1 < 7 ∧ zeroRange p 1 7 = true
      ∧ since s (fld p 16 8) ≤ secTicks 1 ∧ (viewSet s (fld p 0 1)).source = 2)
    (fun s _ p => takeMeasurement (fld p 0 1) ((sfld p 8 8 : Rat) / (1000 : Rat)) (fld p 16 8)
      (setView (fld p 0 1) { view s (fld p 0 1) with fedAt := some (dcNow s) } s))
  ∧ Acts .timeSelectNow { code := 0x0613, len := some 8 } (fun s _ p => fld p 0 1 ≤ 7 ∧ fld p 1 1 ≤ 1 ∧ zeroRange p 2 6 = true
      ∧ (fld p 0 1 = 7 ∨ (view s (fld p 0 1)).locked = true) ∧ ¬(fld p 0 1 = s.time.sel.view ∧ bitOf (fld p 1 1) 0 = false))
    (fun s _ p => selectView (fld p 0 1) (bitOf (fld p 1 1) 0) 3 s)
  ∧ Acts .timeClearFlags { code := 0x0614, len := some 8 } (fun _ _ p => fld p 0 1 < 7 ∧ zeroRange p 1 7 = true)
    (fun s _ p => healthStep (setView (fld p 0 1) { view s (fld p 0 1) with suspect := false, unverified := false } s))

/-- The direct commands of the lanes (R152, R157, R159, R171 to R176). A read of status, coefficients or pattern counts takes what the lane
has measured since the last, its operand; a slip moves the block boundary; LANE.LOCK_HERE with fewer than 16 errors locks; LANE.RETRAIN
leaves FAULT, trains the lane again or, with FULL on a field lane, takes the port down; LANE.SET_TEST takes a lane into TEST, out
of its Graft group or with its port down, and tells the line what it sends, changes a test or ends it; LANE.CLEAR_FLAGS clears the sticky flags named. -/
def Obligations.LaneCommandsAct : Prop :=
  (∀ m : LaneTally, Performs (.laneGetStatus · m) { code := 0x0210, len := some 8 } (fun _ _ p => laneArg p 1 = true) stOk
    (fun s _ p => laneStatus (takeTally (fld p 0 1) m s) (fld p 0 1)) (fun s _ p => takeTally (fld p 0 1) m s))
  ∧ (∀ now : Coeffs, Performs (.laneGetEq · now) { code := 0x0211, len := some 8 } (fun _ _ p => laneArg p 1 = true) stOk
    (fun s _ p => laneEq (modLane (fld p 0 1) (fun x => x.adaptTo now) s) (fld p 0 1))
    (fun s _ p => modLane (fld p 0 1) (fun x => x.adaptTo now) s))
  ∧ Acts .laneRetrain { code := 0x0212, len := some 8 } (fun _ _ p => fld p 0 1 < 64 ∧ fld p 1 1 < 2 ∧ zeroRange p 2 6 = true)
    (fun s _ p =>
      let l := fld p 0 1
      if (laneOf s l).st = lsFault then leaveFault l s
      else if fld p 1 1 = 1 ∧ isFieldLane l = true ∧ (laneOf s l).set.mode ≠ modeGraft then
        bump 2 (l * 16 + 10) (dropPort (laneOf s l).set.first (discardLaneTrim l s))
      else retrainLane l s)
  ∧ (∀ errors : Nat, Performs (.laneBitSlip · errors) { code := 0x0213, len := some 8 } (fun s _ p => fld p 0 1 < 64
      ∧ zeroRange p 2 6 = true ∧ fld p 1 1 < slipSpan (laneOf s (fld p 0 1)) ∧ manualReady (laneOf s (fld p 0 1)) = true) stOk
    (fun s _ p => leBytes 1 (((laneOf s (fld p 0 1)).slip + fld p 1 1) % slipSpan (laneOf s (fld p 0 1))) ++ zeros 3
      ++ leBytes 4 (min errors 4096))
    (fun s _ p => bumpBy 2 (fld p 0 1 * 16) (min errors 4096) (setLane (fld p 0 1) { laneOf s (fld p 0 1) with
      slip := ((laneOf s (fld p 0 1)).slip + fld p 1 1) % slipSpan (laneOf s (fld p 0 1)) } s)))
  ∧ (∀ errors ps : Nat, Acts (.laneLockHere · errors ps) { code := 0x0214, len := some 8 } (fun s _ p => laneArg p 1 = true
      ∧ manualReady (laneOf s (fld p 0 1)) = true ∧ errors < 16 ∧ (laneOf s (fld p 0 1)).energy = true)
    (fun s _ p => groupLocked (laneOf s (fld p 0 1)).set.first ps
      (setLane (fld p 0 1) (laneOf s (fld p 0 1)).lock (bumpBy 2 (fld p 0 1 * 16) errors s))))
  ∧ (∀ test : LaneTest,
    let fields (p : Bytes) : Prop := fld p 0 1 < 64 ∧ fld p 1 1 ≤ 3 ∧ fld p 2 1 ≤ 8 ∧ fld p 3 1 ≤ 8 ∧ fld p 4 1 ≤ 7 ∧ zeroRange p 5 3 = true
      ∧ (fld p 1 1 = 3 → fld p 2 1 = 0)
    let starts (s : State) (p : Bytes) : Prop := fields p ∧ applying s = false ∧ ¬(fld p 1 1 = 0 ∧ fld p 2 1 = 0 ∧ fld p 3 1 = 0)
      ∧ patternAllowed (laneOf s (fld p 0 1)) (fld p 2 1) = true ∧ patternAllowed (laneOf s (fld p 0 1)) (fld p 3 1) = true
      ∧ test = { loop := fld p 1 1, gen := fld p 2 1, chk := fld p 3 1, flags := fld p 4 1 }
    let inGroup (s : State) (l : Nat) : Bool := (laneOf s l).set.mode == modeGraft && graftUp s (laneOf s l).set.first
      && bitOf (graftOf s (laneOf s l).set.first).txMap (l - (laneOf s l).set.first)
    Acts .laneSetTest { code := 0x0215, len := some 8 } (fun s _ p => starts s p ∧ (laneOf s (fld p 0 1)).testing = false
        ∧ (laneOf s (fld p 0 1)).has flRefclkLost = false
        ∧ (bitOf (fld p 4 1) 0 = true ∨ (if (laneOf s (fld p 0 1)).set.mode = modeGraft then graftUp s (laneOf s (fld p 0 1)).set.first
          else portCarriesHead s (laneOf s (fld p 0 1)).set.first) = false)
        ∧ (inGroup s (fld p 0 1) = true → 1 < activeLanes (graftOf s (laneOf s (fld p 0 1)).set.first).txMap))
      (fun s _ p =>
        let l := fld p 0 1
        let t := if inGroup s l then restripeOut l s
          else if (laneOf s l).set.mode ≠ modeGraft ∧ (laneOf s l).service = lsUp then dropPort (laneOf s l).set.first s else s
        lineTest l (modLane l (fun y => { y with st := lsTest, locked := false, test := test }) t))
    ∧ Acts .laneSetTest { code := 0x0215, len := some 8 } (fun s _ p => starts s p ∧ (laneOf s (fld p 0 1)).testing = true)
      (fun s _ p => lineTest (fld p 0 1) (setLane (fld p 0 1) { laneOf s (fld p 0 1) with test := test } s))
    ∧ Acts .laneSetTest { code := 0x0215, len := some 8 } (fun s _ p => fields p ∧ applying s = false ∧ fld p 1 1 = 0 ∧ fld p 2 1 = 0 ∧ fld p 3 1 = 0)
      (fun s _ p => if (laneOf s (fld p 0 1)).testing then endTest (fld p 0 1) s else s))
  ∧ (∀ bits errors : Nat, Performs (.laneGetTest · bits errors) { code := 0x0216, len := some 8 } (fun _ _ p => laneArg p 1 = true) stOk
    (fun s _ p =>
      let t := (laneOf (countPattern (fld p 0 1) bits errors s) (fld p 0 1)).test
      leBytes 8 t.bits ++ leBytes 8 t.errors ++ leBytes 4 t.resyncs ++ leBytes 1 (b2n t.locked) ++ zeros 11)
    (fun s _ p => countPattern (fld p 0 1) bits errors s))
  ∧ Acts .laneClearFlags { code := 0x0217, len := some 8 } (fun _ _ p => fld p 0 1 < 64 ∧ zeroRange p 1 3 = true ∧ fld p 4 4 < 8192)
    (fun s _ p => modLane (fld p 0 1) (fun x => { x with sticky := x.sticky ^^^ (x.sticky &&& fld p 4 4) }) s)

/-- The direct commands of the camera links. CAM.GVCP and CAM.CXP_CONTROL to a READY head are held and put into the head's line of proxied
commands (R187, Table 7.5); CAM.DISCOVER sends a discovery under a ticket (Table 7.8); CAM.SCHEDULE_PARAM schedules a set of writes for the
boundary at or after its target (R197, R198) and CAM.CANCEL_PARAM withdraws an unsent one (R200); CAM.MODULE_WRITE writes through the
module bus (R181). -/
def Obligations.CameraCommandsAct : Prop :=
  Holds .camGvcp { code := 0x0311, needs := some 1 } (fun s _ p => p.length = 8 + fld p 4 2 ∧ fld p 0 1 < 48 ∧ fld p 1 1 < 2 ∧ fld p 4 2 ≤ 540
      ∧ fld p 4 2 % 4 = 0 ∧ zeroRange p 6 2 = true ∧ (headSet s (fld p 0 1)).protocol ≠ 2
      ∧ (bitOf (fld p 1 1) 0 = true → (headSet s (fld p 0 1)).alt.isSome = true) ∧ headReady s (fld p 0 1) = true
      ∧ fld p 2 2 ≠ gvcpPacketResend ∧ (writtenRegs (fld p 2 2) (p.drop 8)).any reservedReg = false)
    (fun s q p => addJob (fld p 0 1) ⟨3, 0, fld p 2 2, p.drop 8, if bitOf (fld p 1 1) 0 then some true else none⟩
      { s with mbx := { s.mbx with hold := some { req := q, head := fld p 0 1, since := dcNow s } } })
  ∧ Holds .camCxpControl { code := 0x0312, needs := some 2 } (fun s _ p => fld p 0 1 < 48 ∧ fld p 1 1 < 2 ∧ 4 ≤ fld p 2 2 ∧ fld p 2 2 ≤ 1024
      ∧ fld p 2 2 % 4 = 0 ∧ p.length = 8 + (if fld p 1 1 = 1 then fld p 2 2 else 0) ∧ (headSet s (fld p 0 1)).protocol ≠ 1
      ∧ headReady s (fld p 0 1) = true)
    (fun s q p => addJob (fld p 0 1)
      ⟨4, 0, fld p 1 1, (p.drop 4).take 4 ++ (if fld p 1 1 = 1 then p.drop 8 else leBytes 2 (fld p 2 2)), none⟩
      { s with mbx := { s.mbx with hold := some { req := q, head := fld p 0 1, since := dcNow s } } })
  ∧ Issues .camDiscover { code := 0x0313, len := some 8 } (fun s _ p => zeroRange p 1 7 = true ∧ isPort (posImage s) modeEth (fld p 0 1) = true)
    (fun _ p => p) (fun _ p _ t => sendFrame (fld p 0 1) (.discovery (fld p 0 1)) t)
  ∧ (∀ (origin : Int) (step : Nat), Performs .camScheduleParam { code := 0x0314, len := some 144 }
    (fun s _ p =>
      let t := latticeAtOrAfter origin step (sfld p 8 8)
      fld p 0 1 ≤ 47 ∧ 1 ≤ fld p 1 1 ∧ fld p 1 1 ≤ 16 ∧ 1 ≤ fld p 2 2 ∧ zeroRange p 5 3 = true
        ∧ zeroRange p (16 + 8 * fld p 1 1) (128 - 8 * fld p 1 1) = true ∧ (fld p 4 1 < 16 ∨ fld p 4 1 = 0xFF) ∧ headReady s (fld p 0 1) = true
        ∧ boundaryGrid s (fld p 0 1) = some (origin, step)
        ∧ s.trig.high < t - ((((headSet s (fld p 0 1)).delay + 1) * step : Nat) : Int)
        ∧ (headOf s (fld p 0 1)).schedules.any (fun d => d.target == t) = false ∧ (headOf s (fld p 0 1)).schedules.length < 8) stOk
    (fun s _ p => leBytes 4 s.cam.nextSchedule ++ zeros 4 ++ leInt 8 (latticeAtOrAfter origin step (sfld p 8 8)))
    (fun s _ p =>
      let h := fld p 0 1
      let t := latticeAtOrAfter origin step (sfld p 8 8)
      let at0 := t - ((((headSet s h).delay + 1) * step : Nat) : Int)
      let d : Sched := { id := s.cam.nextSchedule, target := t, step := step, sendAt := at0, ackBy := at0 + (step : Int), paramSet := fld p 2 2
                         corrSet := fld p 4 1, writes := (List.range (fld p 1 1)).map (fun w => (fld p (16 + 8 * w) 4, fld p (20 + 8 * w) 4))
                         sent := false, acked := false, left := if (headSet s h).protocol = 2 then fld p 1 1 else 1, switchAt := t }
      let s1 := setHead h { headOf s h with schedules := (headOf s h).schedules ++ [d] } s
      { s1 with cam := { s1.cam with
        nextSchedule := if s.cam.nextSchedule = 2 ^ 32 - 1 then 1 else s.cam.nextSchedule + 1 } }))
  ∧ (∀ h : Nat, Acts .camCancelParam { code := 0x0315, len := some 8 } (fun s _ p => fld p 0 4 ≠ 0 ∧ zeroRange p 4 4 = true
      ∧ (List.range 48).find? (fun h => (headOf s h).schedules.any (fun d => d.id == fld p 0 4 && !d.sent)) = some h)
    (fun s _ p => raise 0x050A 1 h (fld p 0 4) 0 (dropSched h (fld p 0 4) s)))
  ∧ Acts .camModuleWrite { code := 0x0317 } (fun s _ p => p.length = 8 + fld p 4 1 ∧ moduleBad s p = none ∧ fld p 2 1 ≠ 0x10)
    (fun s _ p => emit (.moduleBus (fld p 0 1) (p.drop 1)) s)

/-- The direct commands of the pipeline. ING.READ_LINES and COR.AVERAGE_LINES answer at once with the lines kept, or give a ticket where the
work is longer (R228, R251); GRAPH.SPRINT_NOW asks for the manual sprint or ends it (R273, R274); RGN.FLUSH closes the open regions of the
graph at the next row boundary (R312). -/
def Obligations.PipelineCommandsAct : Prop :=
  Performs (.ingReadLines · false) { code := 0x0713, len := some 32 } (fun s q p => readLinesBad q p = false ∧ (readLinesWork s p).2.1 ≠ []) stOk
    (fun s _ p => (readLinesWork s p).1)
    (fun s _ p => countReads (readLinesWork s p).2.1 (countOverwritten (fld p 0 1) (readLinesWork s p).2.2 s))
  ∧ Issues (.ingReadLines · true) { code := 0x0713, len := some 32 } (fun _ q p => readLinesBad q p = false) (fun _ p => p) (fun _ _ _ t => t)
  ∧ Performs (.corAverageLines · false) { code := 0x0813, len := some 24 } (fun s q p => respIndirect q.flags = true ∧ fld p 0 1 ≤ 127
      ∧ 1 ≤ fld p 4 4 ∧ fld p 4 4 ≤ 65536 ∧ zeroRange p 1 3 = true ∧ sfld p 8 8 < sfld p 16 8 ∧ (averageEnd s p).1 = stOk) stOk
    (fun s _ p => (averageEnd s p).2.1) (fun s _ p => (averageEnd s p).2.2)
  ∧ Issues (.corAverageLines · true) { code := 0x0813, len := some 24 } (fun _ q p => respIndirect q.flags = true ∧ fld p 0 1 ≤ 127
      ∧ 1 ≤ fld p 4 4 ∧ fld p 4 4 ≤ 65536 ∧ zeroRange p 1 3 = true ∧ sfld p 8 8 < sfld p 16 8) (fun _ p => p) (fun _ _ _ t => t)
  ∧ Acts .graphSprintNow { code := 0x0912, len := some 8 } (fun s _ p => fld p 0 4 ≤ 30000 ∧ zeroRange p 4 4 = true
      ∧ sprintMode s.cfg.active = 2 ∧ (fld p 0 4 ≠ 0 → s.fab.sprint.on = true ∨ sprintBar s = none))
    (fun s _ p => setSprint { s.fab.sprint with
      manual := if fld p 0 4 = 0 then none else some (sprintMs s + fld p 0 4) } s)
  ∧ Performs .rgnFlush { code := 0x0A12, len := some 8 } (fun s _ p => rgnGraphCheck s p = none) stOk
    (fun s _ p => leBytes 4 (openRegions (graphOf s (fld p 0 1))).length ++ zeros 4)
    (fun s _ p =>
      let x := graphOf s (fld p 0 1)
      let t := setGraph (fld p 0 1) { x with flush := true } s
      match x.run with
      | some run => if x.rerun.isSome || x.held then t else (flushRun (fld p 0 1) run t).2
      | none => t)

/-- The furrow commands (R338, R339, R357, R359; another function's furrow is DENIED, see the order of the checks): CREATE makes a FREE furrow READY for the calling
function, a VF within its 256 slots, START runs it with fresh counts,
STOP ends it and cancels its buffers, DESTROY frees it, PAIR makes a READY furrow of the other port its standby and 0xFFFF undoes that,
SWITCH hands over to the standby. -/
def Obligations.FurrowCommandsAct : Prop :=
  Acts .hostFurrowCreate { code := 0x0B10, vf := true, len := some 32, furrow := some 0 } (fun s q p => fld p 0 2 < 32768 ∧ 1 ≤ fld p 2 1 ∧ fld p 2 1 ≤ 8
      ∧ fld p 0x0E 1 ≤ 1 ∧ (fld p 0x0E 1 = 1 → fld p 2 1 ≤ 6) ∧ zeroRange p 0x0F 1 = true
      ∧ (if fld p 0x0E 1 = 1 then 1 ≤ fld p 0x14 2 ∧ fld p 0x14 2 ≤ 10000 else fld p 0x14 2 = 0) ∧ fld p 0x16 2 ≤ 4096
      ∧ (if fnIsPf q.fn = true then fld p 0x18 2 = 0 else fld p 0x18 2 < 256 ∧ (ownFurrows q.fn s).length < 256
        ∧ (ownFurrows q.fn s).any (fun e => e.2.vfSlot == fld p 0x18 2) = false) ∧ zeroRange p 0x1A 6 = true
      ∧ (furrowOf s (fld p 0 2)).st = fsFree
      ∧ 4 ≤ fld p 3 1 ∧ fld p 3 1 ≤ 16 ∧ fld p 4 8 % 64 = 0 ∧ (fld p 0x0C 2 = 0xFFFF ∨ fld p 0x0C 2 < vectorCount q.fn))
    (fun s q p => setFurrow (fld p 0 2)
      { st := fsReady, type := fld p 2 1, owner := q.fn, sizeLog := fld p 3 1, ring := fld p 4 8, vector := fld p 0x0C 2
        pack := fld p 0x0E 1 == 1, irqCount := fld p 0x10 2, irqTime := fld p 0x12 2, flushUs := fld p 0x14 2
        spillMib := fld p 0x16 2, vfSlot := fld p 0x18 2 } s)
  ∧ Acts .hostFurrowStart { code := 0x0B11, vf := true, len := some 8, furrow := some 0 } (fun s _ p => furrowCheck p [fsReady] s = none)
    (fun s _ p => settleFurrow (fld p 0 2) (setFurrow (fld p 0 2) { freshCounts (furrowOf s (fld p 0 2)) with st := fsRunning } s))
  ∧ (∀ rest : Bytes, Acts (.hostFurrowStop · rest) { code := 0x0B12, vf := true, len := some 8, furrow := some 0 }
    (fun s _ p => furrowCheck p [fsRunning, fsFault] s = none) (fun s _ p => stopFurrow (fld p 0 2) rest s))
  ∧ Acts .hostFurrowDestroy { code := 0x0B13, vf := true, len := some 8, furrow := some 0 } (fun s _ p => furrowCheck p [fsReady] s = none)
    (fun s _ p => freeFurrow (fld p 0 2) s)
  ∧ Acts .hostFurrowPair { code := 0x0B14, needs := some 9, len := some 8, furrow := some 0 } (fun s _ p => fld p 0 2 < 32768 ∧ fld p 2 2 < 32768
      ∧ zeroRange p 4 4 = true ∧ (furrowOf s (fld p 0 2)).st = fsRunning
      ∧ (furrowOf s (fld p 2 2)).st = fsReady ∧ (furrowOf s (fld p 0 2)).partner = 0xFFFF
      ∧ fnPort (furrowOf s (fld p 0 2)).owner ≠ fnPort (furrowOf s (fld p 2 2)).owner
      ∧ (furrowOf s (fld p 0 2)).type = (furrowOf s (fld p 2 2)).type)
    (fun s _ p => setFurrow (fld p 2 2) { freshCounts (furrowOf s (fld p 2 2)) with st := fsStandby, partner := fld p 0 2 }
      (setFurrow (fld p 0 2) { furrowOf s (fld p 0 2) with partner := fld p 2 2, alone := false } s))
  ∧ Acts .hostFurrowPair { code := 0x0B14, needs := some 9, len := some 8, furrow := some 0 } (fun s _ p => fld p 0 2 < 32768 ∧ fld p 2 2 = 0xFFFF
      ∧ zeroRange p 4 4 = true ∧ (furrowOf s (fld p 0 2)).st = fsRunning
      ∧ (furrowOf s (fld p 0 2)).partner ≠ 0xFFFF)
    (fun s _ p =>
      let k := (furrowOf s (fld p 0 2)).partner
      setFurrow k { furrowOf s k with st := fsReady, partner := 0xFFFF } (setFurrow (fld p 0 2) { furrowOf s (fld p 0 2) with partner := 0xFFFF } s))
  ∧ Acts .hostFurrowSwitch { code := 0x0B15, needs := some 9, len := some 8, furrow := some 0 } (fun s _ p => furrowCheck p [fsRunning] s = none
      ∧ (furrowOf s (fld p 0 2)).partner ≠ 0xFFFF) (fun s _ p => switchFurrow (fld p 0 2) s)

/-- The trellis commands (R365, R376, R380, R381, R383 to R385). TREL.SET_IDENTITY before the trellis has formed records the identity and joins;
TREL.COMMIT and TREL.RESYNC of a coordinator that runs no commit start one under a ticket; TREL.ABORT ends one that no member has
applied; TREL.HANDOVER asks a healthy deputy; TREL.REATTACH asks for the estate again; TREL.SET_EXPECTED records what a role's digest may be. -/
def Obligations.TrellisCommandsAct : Prop :=
  Acts .trelSetIdentity { code := 0x0C10, needs := some 3, len := some 16 } (fun s _ p => identityOk s p = true ∧ formed s = false)
    (fun s _ p => joinTrellis (setTrel { s.trel with
      identity := some ⟨fld p 0 1, fld p 1 1, fld p 2 1, bitOf (fld p 3 1) 0, fld p 4 2, sfld p 6 2, sfld p 8 2, sfld p 10 2, fld p 12 1
        , fld p 13 1, fld p 14 2⟩ } s))
  ∧ Issues .trelCommit { code := 0x0C13, needs := some 3, len := some 16 } (fun s _ p => (fld p 0 1 = 2 ∨ fld p 0 1 = 0 ∧ zeroRange p 8 8 = true)
      ∧ zeroRange p 2 6 = true ∧ (fld p 1 1 = 0 ∧ s.trel.st = tsMaster ∨ fld p 1 1 = 1 ∧ s.trel.st = tsManager) ∧ s.trel.coord = none)
    (fun _ p => p) (fun _ p n t => coordStart n (fld p 1 1 == 1) (fld p 0 1) (sfld p 8 8) none t)
  ∧ (∀ t : TwoPhase, Acts .trelAbort { code := 0x0C14, needs := some 3, len := some 0 } (fun s _ _ => needsRole coordinates s = none
      ∧ s.trel.coord = some t ∧ t.reached = false)
    (fun s _ _ => coordAbort 0x43 (partialBytes s t) s))
  ∧ (∀ (k : Nat) (estate : Bool), Issues .trelResync { code := 0x0C15, needs := some 3, len := some 8 } (fun s _ p => zeroRange p 2 6 = true
      ∧ needsRole coordinates s = none ∧ namedMember s p = some k ∧ s.trel.coord = none
      ∧ (if s.trel.st = tsMaster ∧ k = ownId s then s.trel.diverged else (memberOf s k).diverged) = true
      ∧ estate = (s.trel.st == tsManager))
    (fun _ p => p) (fun _ _ n t => coordStart n estate 0 0 (some k) t))
  ∧ Acts (.trelHandover · true) { code := 0x0C16, needs := some 3, len := some 8 } (fun s _ p => zeroRange p 1 7 = true
      ∧ needsRole isMaster s = none ∧ fld p 0 1 ≠ ownId s ∧ bitOf s.trel.ring (fld p 0 1) = true ∧ (memberOf s (fld p 0 1)).lost = false
      ∧ ((memberOf s (fld p 0 1)).strap = 1 ∨ (memberOf s (fld p 0 1)).strap = 2)
      ∧ (reachable s 0 (fld p 0 1) = true ∨ reachable s 1 (fld p 0 1) = true))
    (fun s _ p => sendRing 4 (fld p 0 1) 0 0 (leBytes 1 (fld p 0 1)) s)
  ∧ Acts .trelReattach { code := 0x0C17, needs := some 3, len := some 0 } (fun s _ _ => needsRole isMaster s = none ∧ s.trel.detached = true)
    (fun s _ _ => setTrel { s.trel with reattach := true } s)
  ∧ Acts .trelSetExpected { code := 0x0C18, needs := some 3, len := some 72 } (fun s _ p => fld p 0 2 ≠ 0xFFFF ∧ fld p 2 1 ≤ 2
      ∧ zeroRange p 3 5 = true ∧ zeroRange p (8 + 32 * fld p 2 1) (64 - 32 * fld p 2 1) = true ∧ needsRole coordinates s = none)
    (fun s _ p => setTrel { s.trel with
      expected := tset [] s.trel.expected (fld p 0 2) ((List.range (fld p 2 1)).map (fun j => (p.drop (8 + 32 * j)).take 32)) } s)

/-- The commands of starts and firmware (R403 to R407, R425). SYS.RESTART makes the start of its kind due, a CONTROL one only with the features
locked and HITLESS_CONTROL_RESTART accepted; SYS.FW_WRITE takes an image into the slot that does not run, under a ticket; SYS.FW_ACTIVATE makes a start with a valid,
unconfirmed slot due; SYS.FW_CONFIRM confirms the running image in its trial; SYS.FW_RECOVER in the safe state makes a cold start with the
slot it names due. -/
def Obligations.StartCommandsAct : Prop :=
  Acts .sysRestart { code := 0x0010, len := some 8, exempt := true, inSafe := true } (fun s _ p => fld p 0 1 ≤ 2 ∧ zeroRange p 1 7 = true
      ∧ (s.start.safe = true → fld p 0 1 = 2) ∧ (fld p 0 1 = 0 → s.mbx.locked = true ∧ feature s 13 = true)
      ∧ (fld p 0 1 ≠ 0 → stopCleared s = true))
    (fun s _ p => fallDue (2 - fld p 0 1) 3 none s)
  ∧ (∀ k : Nat, Issues .sysFwWrite { code := 0x0012, inSafe := true } (fun s q p => writeSlot s (fld p 0 1) = some k
      ∧ reqIndirect q.flags = true ∧ 520 ≤ p.length ∧ (fld p 0 1 ≤ 1 ∨ fld p 0 1 = 0xFF) ∧ zeroRange p 1 7 = true ∧ s.start.trial = false
      ∧ ticketsRunning s 0x0012 = [] ∧ imageReason (p.drop 8) = 0 ∧ (p.drop 8).length = 512 + fld (p.drop 8) 0x14 4)
    (fun _ _ => leBytes 1 k) (fun _ p _ t =>
      setFwSlot k ⟨(p.drop 8).take 0x1F4 ++ List.replicate 12 0xFF, (p.drop 8).drop 512, 1⟩ t))
  ∧ Acts .sysFwActivate { code := 0x0013, len := some 8 } (fun s _ p => fld p 0 1 ≤ 1 ∧ fld p 1 1 ≤ 1 ∧ zeroRange p 2 6 = true
      ∧ s.start.trial = false ∧ slotValid s (fld p 1 1) = true ∧ (fwSlot s (fld p 1 1)).confirmed = false
      ∧ (fld p 0 1 = 0 → feature s 13 = true ∧ (fwSlot s (fld p 1 1)).dpLevel = s.start.dpLevel))
    (fun s _ p => fallDue (2 - fld p 0 1) 6 (some (fld p 1 1)) s)
  ∧ (∀ n : Nat, Acts (.sysFwConfirm · true) { code := 0x0014, len := some 0 } (fun s _ _ => s.start.runningSlot = some n ∧ s.start.trial = true)
    (fun s _ _ =>
      let f := fwSlot s n
      let t := setFwSlot n { f with header := f.header.take 0x1F4 ++ leBytes 4 0x3C5AC3A5 ++ f.header.drop 0x1F8 } s
      setStart { t.start with trial := false } t))
  ∧ Acts .sysFwRecover { code := 0x0015, len := some 8, inSafe := true } (fun s _ p => s.start.safe = true ∧ fld p 0 1 ≤ 1
      ∧ zeroRange p 1 7 = true) (fun s _ p => fallDue 0 7 (some (fld p 0 1)) s)

/-- The commands of calibration and diagnostics (R411, R415, R417, R430 to R432). CAL.RUN of a target that is open starts a run under a ticket, with WAIT
it waits for a window, CAL.STORE asks for a store; CAL.CLEAR_FIELD drops field sets and makes a store due; DIAG.SNAPSHOT captures its sections under a ticket; DIAG.GET_HBM answers
with the tallies counted; DIAG.INJECT makes the error of its kind, and counts it. -/
def Obligations.CalibrationAndDiagnosticCommandsAct : Prop :=
  (∀ k : Nat, Issues .calRun { code := 0x0D10, len := some 8 } (fun s _ p => namedTarget p = some k ∧ fld p 2 1 ≤ 3 ∧ zeroRange p 3 5 = true
      ∧ calBarred s k = false ∧ (calOpen s k = true ∨ bitOf (fld p 2 1) 0 = true ∧ calForced s k = true))
    (fun _ p => p) (fun _ p n t => calStart k (bitOf (fld p 2 1) 0) (setCal k { calTarget t k with tickets := (calTarget t k).tickets ++ [n] } t)))
  ∧ (∀ k : Nat, Issues .calRun { code := 0x0D10, len := some 8 } (fun s _ p => namedTarget p = some k ∧ fld p 2 1 ≤ 3 ∧ zeroRange p 3 5 = true
      ∧ ¬(calBarred s k = false ∧ (calOpen s k = true ∨ bitOf (fld p 2 1) 0 = true ∧ calForced s k = true)) ∧ bitOf (fld p 2 1) 1 = true)
    (fun _ p => p) (fun _ p n t => setCal k { calTarget t k with
      due := true, waits := (calTarget t k).waits ++ [⟨n, dcNow t, bitOf (fld p 2 1) 0⟩] } t))
  ∧ Issues .calStore { code := 0x0D13, len := some 0 } (fun s _ _ => s.cal.storeTicket = none) (fun _ p => p)
    (fun _ _ n t => { t with cal := { t.cal with storeTicket := some n } })
  ∧ (∀ k : Nat, Acts .calClearField { code := 0x0D14, len := some 8 } (fun _ _ p => zeroRange p 2 6 = true ∧ fld p 0 2 ≠ 255
      ∧ namedTarget p = some k)
    (fun s _ _ =>
      let t := setCal k { calTarget s k with fields := [] } s
      { t with cal := { t.cal with storeDue := true } }))
  ∧ Acts .calClearField { code := 0x0D14, len := some 8 } (fun _ _ p => zeroRange p 2 6 = true ∧ fld p 0 2 = 255)
    (fun s _ _ =>
      let t := calTargets.foldl (fun t k => setCal k { calTarget t k with fields := [] } t) s
      { t with cal := { t.cal with storeDue := true } })
  ∧ Issues .diagSnapshot { code := 0x0E10, len := some 0, inSafe := true } (fun s q _ => respIndirect q.flags = true ∧ s.fault.snapshot = none
      ∧ snapshotBytes ≤ respRoom q) (fun _ _ => [])
    (fun q _ n t => draw { t with fault := { t.fault with
      snapshot := some ⟨n, dcNow t, if t.start.safe then 0 else t.start.fwVersion, captureSections q.fn t⟩ } })
  ∧ (∀ (corrected : List Nat) (sram : Nat), Performs (.diagGetHbm · corrected sram) { code := 0x0E12, len := some 0 } (fun _ _ _ => True) stOk
    (fun s _ _ => hbmState (bumpBy 14 2 sram (countCorrected corrected s))) (fun s _ _ => bumpBy 14 2 sram (countCorrected corrected s)))
  ∧ Acts .diagInject { code := 0x0E13, len := some 8 } (fun s _ p => zeroRange p 4 4 = true
      ∧ injectTarget s (fld p 0 1) (fld p 1 1) (fld p 2 2) = true ∧ (fld p 0 1 = 3 → parityOn s = true)
      ∧ uncovered s (fld p 0 1) (fld p 2 2) = false ∧ recovering s = false)
    (fun s _ p => inject (fld p 0 1) (fld p 1 1) (fld p 2 2) (bump 14 7 s))
/-! Slots, tickets and commits: events -/

/-- R24: a GO on a slot that is IDLE or DONE takes the request as it then stands and sets STATE to BUSY; what is written into the request
area afterwards does not change the request taken. -/
def Obligations.GoTakesTheRequest : Prop :=
  ∀ (fn slot : Nat) (s : State), s.start.windowUp = true → fnExists s fn = true → slot < slotCount fn →
    slotState s fn slot = 0 ∨ slotState s fn slot = 2 →
    ∃ t, exec (.slotGo fn slot) s = .next t ∧ slotState t fn slot = 1 ∧ t.mbx.inbox = s.mbx.inbox ++ [standingRequest s fn slot] ∧
      (∀ (off : Nat) (b : Bytes), (slotWrite fn slot off b t).mbx.inbox = t.mbx.inbox)

/-- The events of slots, tickets and commits. A GO on a BUSY or OFFLINE slot sets OVERRUN alone and a 1 written to OVERRUN clears it (R23); the
end of a ticket's work gives its final response, and where that cannot be given the work leaves no effect (R29); it is gone 60 s later (R31); preparation ends, that of a held PREPARE too (R45, R381); an
idle device applies an immediate commit (R48); a lattice point passed makes a boundary due (R56). -/
def Obligations.MailboxAndCommitEventsAct : Prop :=
  (∀ fn slot : Nat, Gives (.slotGo fn slot) (fun s => s.start.windowUp = true ∧ fnExists s fn = true ∧ slot < slotCount fn
      ∧ (slotOffline s fn slot = true ∨ (slotOf s fn slot).st = 1)) (fun s => setSlot fn slot { slotOf s fn slot with overrun := true } s))
  ∧ (∀ fn slot : Nat, Gives (.slotOverrunClear fn slot) (fun s => s.start.windowUp = true ∧ fnExists s fn = true ∧ slot < slotCount fn)
      (fun s => setSlot fn slot { slotOf s fn slot with overrun := false } s))
  ∧ (∀ (n : Nat) (t : Ticket) (fin : WorkFin) (st : Nat) (a : Bytes) (u : State), Gives (.ticketWorkEnd n fin)
      (fun s => tfind s.mbx.tickets n = some t ∧ t.done = false ∧ s.mbx.answering = true ∧ fin.timeout = false
        ∧ ticketWork n t fin s = some (st, a, u) ∧ resultGoes t a fin.respOk = true) (fun _ => endTicket n st a fin.respOk u))
  ∧ (∀ (n : Nat) (t : Ticket) (fin : WorkFin) (st : Nat) (a : Bytes) (u : State), Gives (.ticketWorkEnd n fin)
      (fun s => tfind s.mbx.tickets n = some t ∧ t.done = false ∧ s.mbx.answering = true ∧ fin.timeout = false
        ∧ ticketWork n t fin s = some (st, a, u) ∧ resultGoes t a fin.respOk = false ∧ t.command ≠ 0x0E10)
      (fun s => endTicket n st a fin.respOk s))
  ∧ (∀ (n : Nat) (t : Ticket), Gives (.ticketExpiry n) (fun s => tfind s.mbx.tickets n = some t ∧ t.done = true
      ∧ secTicks 60 ≤ since s t.doneAt) (fun s => { s with mbx := { s.mbx with tickets := tdel s.mbx.tickets n } }))
  ∧ (∀ c : CommitRec, Gives .commitPreparationDone (fun s => s.start.w1Running = false ∧ s.cfg.commit = some c ∧ c.applying = false)
      (fun s => { s with cfg := { s.cfg with commit := some { c with prepared := true } } }))
  ∧ (∀ x : Prep, Gives .commitPreparationDone (fun s => s.start.w1Running = false ∧ s.cfg.commit = none ∧ s.trel.prep = some x)
      (fun s => setTrel { s.trel with prep := some { x with prepared := true } } s))
  ∧ (∀ c d : CommitRec, Gives .commitIdleApply (fun s => s.cfg.commit = some c ∧ c.boundary = 0 ∧ c.trellis = none ∧ c.applying = false
      ∧ c.prepared = true ∧ msTicks 10 ≤ since s s.pos.sp.movedAt ∧ rowInFlight s = false
      ∧ (applyCommit (c.pc.getD s.pos.sp.pos) s).cfg.commit = some d)
      (fun s =>
        let pc := c.pc.getD s.pos.sp.pos
        let t := d.bedsLeft.foldl (fun t b => switchBed b t) (switchPeriod pc (genNow s) (digestNow s) (applyCommit pc s))
        settleCommit { t with cfg := { t.cfg with commit := t.cfg.commit.map (fun x => { x with unemitted := [] }) } }))
  ∧ (∀ c : CommitRec, Gives .commitIdleApply (fun s => s.cfg.commit = some c ∧ c.boundary = 0 ∧ c.trellis = none ∧ c.applying = false
      ∧ c.prepared = true ∧ msTicks 10 ≤ since s s.pos.sp.movedAt ∧ rowInFlight s = false
      ∧ (applyCommit (c.pc.getD s.pos.sp.pos) s).cfg.commit = none) (fun s => applyCommit (c.pc.getD s.pos.sp.pos) s))
  ∧ Gives .timeLatticePoint (fun s => (periodCfg s).type = 2 ∧ s.stat.lattice < latticePassed s)
      (fun s => boundary 0 true none { s with stat := { s.stat with lattice := latticePassed s } })

/-! Positions -/

/-- The edges of the encoder channels: once the level has stood for the filter's samples (R61) a quadrature channel counts or errs by its edge, a
HALL one by its state (R64, R65), an OFF or SSI channel keeps the levels; a level that returns too soon is an overspeed event (R62). When its
period is due an SSI channel clocks a frame out (R66); a frame of the wrong shape is discarded, the first sound one sets the count, a later
one steps it when the step is small enough, and is discarded when it is not (R67). -/
def Obligations.ChannelEdgesCount : Prop :=
  (∀ ch levels t : Nat, Gives (.encoderEdgeAccepted ch levels t) (fun s => filterPassed s (chanSet s ch).filterN t = true
      ∧ (chanSet s ch).mode = 1 ∧ ¬((chan s ch).a = bitOf levels 0 ∧ (chan s ch).b = bitOf levels 1 ∧ (chan s ch).z = bitOf levels 2))
    (quadEdge ch (bitOf levels 0) (bitOf levels 1) (bitOf levels 2) t))
  ∧ (∀ ch levels t : Nat, Gives (.encoderEdgeAccepted ch levels t) (fun s => filterPassed s (chanSet s ch).filterN t = true
      ∧ (chanSet s ch).mode = 2 ∧ ¬((chan s ch).a = bitOf levels 0 ∧ (chan s ch).b = bitOf levels 1 ∧ (chan s ch).z = bitOf levels 2))
    (hallEdge ch (bitOf levels 0) (bitOf levels 1) (bitOf levels 2) t))
  ∧ (∀ ch levels t : Nat, Gives (.encoderEdgeAccepted ch levels t) (fun s => filterPassed s (chanSet s ch).filterN t = true
      ∧ (chanSet s ch).mode ≠ 1 ∧ (chanSet s ch).mode ≠ 2 ∧ ¬((chan s ch).a = bitOf levels 0 ∧ (chan s ch).b = bitOf levels 1 ∧ (chan s ch).z = bitOf levels 2))
    (modChan ch (fun x => { x with a := bitOf levels 0, b := bitOf levels 1, z := bitOf levels 2 })))
  ∧ (∀ ch : Nat, Gives (.overspeed ch) (fun s => (chanSet s ch).mode ≠ 0)
    (fun s => burstEvent ch true (bump 4 (ch * 16) (modChan ch (fun c => { c with overspeedAt := some (dcNow s) }) s))))
  ∧ (∀ (ch : Nat) (startHigh endLow : Bool) (bits : Nat), Gives (.ssiFrame ch startHigh endLow bits) (fun s => frameDue s ch = true)
      (fun s => ssiTake ch startHigh endLow bits (emit (.ssiClock ch ((chanSet s ch).ssiBits + 1) ((chanSet s ch).ssiDiv * 3200) (psNow s))
        (modChan ch (fun c => { c with frameAt := some (dcNow s) }) s))))
  ∧ (∀ (ch : Nat) (startHigh endLow : Bool) (bits : Nat) (s : State), startHigh = false ∨ endLow = false →
      ssiTake ch startHigh endLow bits s = ssiDiscard ch 7 s)
  ∧ (∀ (ch bits v : Nat) (s : State), (chan s ch).ssiPrev = none → v = ssiValue (chanSet s ch) bits →
      ssiTake ch true true bits s = ssiSampled ch (ssiFirst ch v (modChan ch (fun c => { c with
        ssiPrev := some v, ssiBad := 0, deadChannel := false }) s)))
  ∧ (∀ (ch bits v old : Nat) (s : State), (chan s ch).ssiPrev = some old → v = ssiValue (chanSet s ch) bits →
      (chanSet s ch).ssiMaxStep < (ssiDelta (chanSet s ch).ssiBits v old).natAbs → ssiTake ch true true bits s = ssiDiscard ch 8 s)
  ∧ (∀ (ch bits v old : Nat) (d : Int) (s : State), (chan s ch).ssiPrev = some old → v = ssiValue (chanSet s ch) bits →
      d = ssiDelta (chanSet s ch).ssiBits v old → d.natAbs ≤ (chanSet s ch).ssiMaxStep →
      ssiTake ch true true bits s = ssiSampled ch (ssiCount ch d (modChan ch (fun c => { c with
        ssiPrev := some v, ssiBad := 0, deadChannel := false, ssiSteps := (d :: c.ssiSteps).take 16 }) s)))

/-- What else happens to the position inputs: a Z that stays active is counted and flagged (R69), a silent channel goes stale with speed 0 (R70),
the spindle takes its new position (R74) and carries H, a commit's P_c (R46) and the position boundaries (R56) with it, a reversal cuts a
worker's marks (R106), speeds are measured 2^14 ticks after the last time (R79; its phase is the model's, log entry 98), flags expire (R84), an emulated output follows by single counts in either direction and
skips what exceeds a lag of 65,535 (R82, log entry 83), a GP input takes its level through its filter and is flagged stuck (R83), a PF's read
of SPIN_POS_LO latches the block (R85). -/
def Obligations.PositionEventsAct : Prop :=
  (∀ ch t : Nat, Gives (.stuckZ ch) (fun s => (chan s ch).zSince = some t ∧ (chanSet s ch).mode = 1 ∧ (chan s ch).stuckZ = false
      ∧ usTicks (chanSet s ch).zHoldUs < since s t)
    (fun s => bump 4 (ch * 16 + 4) (modChan ch (fun x => { x with stuckZ := true }) s)))
  ∧ (∀ ch : Nat, Gives (.stale ch) (fun s => (chanSet s ch).mode ≠ 0 ∧ (chan s ch).stale = false
      ∧ usTicks (chanSet s ch).staleUs ≤ since s (chan s ch).staleFrom)
    (fun s =>
      let t := modChan ch (fun x => { x with stale := true, speed := 0 }) s
      if (spinSet s).master = some ch ∨ (spinSet s).alternate = some ch then
        modSpin (fun sp => { sp with slipWin := none }) t else t))
  ∧ (∀ t : State, Gives .spindleUpdate (fun s => t = (if s.trel.st = tsIsolated ∨ followsTrellis s = true then trelUpdate s
        else modSpin (fun q => { q with pos := spinNew s }) s) ∧ s.pos.sp.pos < t.pos.sp.pos)
    (fun s => raiseHigh (positionBoundaries (commitAt (cancelledAt (coordPassed
      (modSpin (fun q => { q with movedAt := dcNow t }) t)))))))
  ∧ (∀ t : State, Gives .spindleUpdate (fun s => t = (if s.trel.st = tsIsolated ∨ followsTrellis s = true then trelUpdate s
        else modSpin (fun q => { q with pos := spinNew s }) s) ∧ t.pos.sp.pos ≤ s.pos.sp.pos)
    (fun s => if t.pos.sp.pos < s.pos.sp.pos ∧ followsTrellis t = true then actCut t else t))
  ∧ Gives .speedSample (fun s => 2 ^ 14 ≤ since s s.pos.speedAt)
    (fun s =>
      let t := (List.range 16).foldl (fun t ch => measure ch t) s
      { t with pos := { t.pos with speedAt := dcNow s } })
  ∧ Gives .speedSample (fun s => since s s.pos.speedAt < 2 ^ 14) (fun s => s)
  ∧ (∀ ch : Nat, Gives (.flagLiveExpiry ch) (fun _ => True)
    (fun s =>
      let t := modChan ch (fun x => { x with
        overspeedAt := keepRecent s x.overspeedAt, quadErrAt := keepRecent s x.quadErrAt, ssiErrAt := keepRecent s x.ssiErrAt
        failed := x.failed && !failureOver s ch, failedAt := if failureOver s ch then none else x.failedAt }) s
      if failureOver s ch = true ∧ t.pos.sp.active = some ch ∧ t.pos.sp.frozen = true then rebaseOn ch t else t))
  ∧ (∀ (e : Nat) (c : EmuCfg) (x : Emu), Gives (.emuOutputCount e) (fun s => c = emuCfg (posImage s) e ∧ c.enable = true
      ∧ s.fault.stop = false ∧ x = tget {} s.pos.emus e ∧ x.emitted < emuWanted s.pos.sp.pos c.perM
      ∧ emuWanted s.pos.sp.pos c.perM < x.emitted + 65536 ∧ 25 ≤ since s x.lastDc)
    (fun s => putEmu e c { x with
      emitted := x.emitted + 1, phase := (x.phase + 1) % 4, lastDc := dcNow s
      lag := x.lag && decide (x.emitted + 1 ≠ emuWanted s.pos.sp.pos c.perM), zLevel := emuZ c (x.emitted + 1) ((x.phase + 1) % 4) } s))
  ∧ (∀ (e : Nat) (c : EmuCfg) (x : Emu), Gives (.emuOutputCount e) (fun s => c = emuCfg (posImage s) e ∧ c.enable = true
      ∧ s.fault.stop = false ∧ x = tget {} s.pos.emus e ∧ emuWanted s.pos.sp.pos c.perM < x.emitted
      ∧ x.emitted < emuWanted s.pos.sp.pos c.perM + 65536 ∧ 25 ≤ since s x.lastDc)
    (fun s => putEmu e c { x with
      emitted := x.emitted - 1, phase := (x.phase + 3) % 4, lastDc := dcNow s
      lag := x.lag && decide (x.emitted - 1 ≠ emuWanted s.pos.sp.pos c.perM), zLevel := emuZ c (x.emitted - 1) ((x.phase + 3) % 4) } s))
  ∧ (∀ (e : Nat) (c : EmuCfg) (x : Emu), Gives (.emuOutputCount e) (fun s => c = emuCfg (posImage s) e ∧ c.enable = true
      ∧ s.fault.stop = false ∧ x = tget {} s.pos.emus e ∧ x.emitted + 65536 ≤ emuWanted s.pos.sp.pos c.perM)
    (fun s => putEmu e c { x with emitted := emuWanted s.pos.sp.pos c.perM - 65535, skip := true, lag := true }
      (bumpBy 4 (258 + e) (emuWanted s.pos.sp.pos c.perM - 65535 - x.emitted).natAbs s)))
  ∧ (∀ (e : Nat) (c : EmuCfg) (x : Emu), Gives (.emuOutputCount e) (fun s => c = emuCfg (posImage s) e ∧ c.enable = true
      ∧ s.fault.stop = false ∧ x = tget {} s.pos.emus e ∧ emuWanted s.pos.sp.pos c.perM + 65536 ≤ x.emitted)
    (fun s => putEmu e c { x with emitted := emuWanted s.pos.sp.pos c.perM + 65535, skip := true, lag := true }
      (bumpBy 4 (258 + e) (x.emitted - (emuWanted s.pos.sp.pos c.perM + 65535)).natAbs s)))
  ∧ (∀ (gp : Nat) (level : Bool) (tick : Nat), Gives (.gpInputEdge gp level tick) (fun s =>
      filterPassed s (gpCfg (posImage s) gp).filterN tick = true ∧ (periodCfg s).type ≠ 3) (gpSetLevel gp level tick))
  ∧ (∀ (gp : Nat) (level : Bool) (tick : Nat), Gives (.gpInputEdge gp level tick) (fun s =>
      filterPassed s (gpCfg (posImage s) gp).filterN tick = true ∧ (periodCfg s).type = 3 ∧ gp < 24
      ∧ (tget {} s.pos.gps gp).level ≠ level ∧ (periodCfg s).source % 32 = gp ∧ (level = true ↔ (periodCfg s).source / 256 % 2 ≠ 1))
    (fun s => if since s s.stat.lastBoundary < msTicks 1 then bump 15 0 (gpSetLevel gp level tick s)
      else boundary 0 true none (gpSetLevel gp level tick s)))
  ∧ (∀ g t : Nat, Gives (.gpStuck g) (fun s => (tget {} s.pos.gps g).activeSince = some t ∧ (gpCfg (posImage s) g).stuckCheck = true
      ∧ (tget {} s.pos.gps g).stuck = false ∧ usTicks (gpCfg (posImage s) g).holdUs < since s t)
    (fun s => bump 4 (260 + g) { s with pos := { s.pos with gps := tset {} s.pos.gps g { tget {} s.pos.gps g with stuck := true } } }))
  ∧ (∀ f : Nat, Gives (.spinPosLoRead f) (fun s => fnIsPf f = true ∧ s.start.blocksUp = true)
    (fun s => setFnRegs f { fnRegs s f with spin := spinBlock s } s))

/-! Triggers and marks -/

/-- The events of triggers and marks: a compare unit ticks when the position passes its H (R89) or a late fire is due, which it is from the tick after its QUEUE_ADD (R92), a TRG pulse starts and
ends at its time (R98), an ACTION is sent ahead of its value (R102), a mark asserts once H has reached it, or is discarded where its output is
disabled, and deasserts at its width and length (R106). -/
def Obligations.TriggerEventsAct : Prop :=
  (∀ u depPs : Nat, Gives (.compareMatch u depPs) (fun s => (trigUnit s u).h < comparePos s) (unitTick u depPs))
  ∧ (∀ u depPs : Nat, Gives (.lateTrigger u depPs) (fun s => (lateDue s u).isSome = true) (unitTick u depPs))
  ∧ (∀ u depPs : Nat, Gives (.lateTrigger u depPs) (fun s => lateDue s u = none) (fun s => s))
  ∧ (∀ (o a b : Nat) (rest : List (Nat × Nat)), Gives (.trgPulseStart o) (fun s => (trgOut s o).scheduled = (a, b) :: rest
      ∧ a ≤ psNow s + 1599 ∧ (trgOut s o).level = false)
    (fun s => driveTrg o a (setTrgOut o ⟨true, rest, some b⟩ s)))
  ∧ (∀ o b : Nat, Gives (.trgPulseEnd o) (fun s => (trgOut s o).level = true ∧ (trgOut s o).endPs = some b ∧ b ≤ psNow s + 1599)
    (fun s => driveTrg o b (setTrgOut o { trgOut s o with level := false } s)))
  ∧ (∀ (u : Nat) (v : Int), Gives (.gevActionSend u) (fun s => (unitSet s u).enable = true ∧ (unitSet s u).gevHeads ≠ 0
      ∧ 1000 ≤ spinSpeed s ∧ 0 < s.pos.sp.pos ∧ noMotion s = false ∧ gevNext s (unitSet s u) (trigUnit s u) = some v
      ∧ (v - s.pos.sp.pos) * 1000 ≤ spinSpeed s * ((gevCfg (posImage s) u).leadUs : Int))
    (fun s =>
      let x := trigUnit s u
      let kept := x.gev.filter (fun e => !(e.achieved.isSome && decide (e.value ≤ x.h)))
      sendActions (gevCfg (posImage s) u) (unitSet s u).gevHeads
        (tvSelNs s + (freeDiv ((v - s.pos.sp.pos) * 1000000) (spinSpeed s)).toNat)
        (setTrigUnit u { x with
          gev := kept ++ [⟨v, ahead s (freeDiv ((v - s.pos.sp.pos) * 625000) (spinSpeed s)).toNat, false, none, none⟩] } s)))
  ∧ (∀ m : Mark, Gives .markAssert (fun s => s.trig.marks.find? (fun m => m.asserted.isNone && decide (m.assertAt ≤ s.trig.high)) = some m)
    (assertOne m))
  ∧ (∀ m : Mark, Gives .markDeassert (fun s => s.trig.marks.find? (markEnds s) = some m)
    (fun s => driveAct m.act (setMarks (replaceFirst (· == m) (fun _ => none) s.trig.marks) s)))

/-- R103: at the held tick of an ACTION sent, the achieved position is the position p then sampled. It goes into the record that carries that
value, and the record is degraded where it was or where it misses the value by more than tol_nm. Other records stay as they are. -/
def Obligations.AchievedPositionIsSampled : Prop :=
  ∀ (u : Nat) (e : GevOut) (s : State), (trigUnit s u).gev.find? (fun e => e.achieved.isNone && reached s e.tick) = some e →
    ∃ t, exec (.gevAchievedSample u) s = .next t ∧
      (trigUnit t u).records = (trigUnit s u).records.map (fun r =>
        if e.record = some r.sequence then { r with
          position := s.pos.sp.pos
          flags := if e.degraded = true ∨ (gevCfg (posImage s) u).tolNm < (s.pos.sp.pos - e.value).natAbs then r.flags ||| 2 else r.flags }
        else r) ∧
      (∀ o ∈ (trigUnit t u).gev, o.value = e.value → o.achieved = some s.pos.sp.pos) ∧
      t.pos = s.pos ∧ (∀ v, v ≠ u → trigUnit t v = trigUnit s v)

/-! Time -/

/-- The events of the views: a measurement moves its view (R121), the loss of its source takes it into holdover once (R122), the selected view
reverts to a primary that is healthy and LOCKED (R131), a held path delay is judged at the end of its qualification against a partner still
LOCKED (R133) or accepted unverified without one (R134), a step applies at its time (R124), the bias of a slew ends (R130), a read of a view
block latches it (R119). -/
def Obligations.ViewEventsAct : Prop :=
  (∀ (v : Nat) (ps : Int), Gives (.servoMeasurement v ps none) (fun s => v < 7 ∧ (viewSet s v).source ≠ 0)
    (fun s => takeMeasurement v ((ps : Rat) / (1000 : Rat)) (dcNow s) s))
  ∧ (∀ (v : Nat) (ps : Int) (path : Nat), Gives (.servoMeasurement v ps (some path)) (fun s => v < 7 ∧ (viewSet s v).source ≠ 0)
    (fun s => takeMeasurement v ((ps : Rat) / (1000 : Rat)) (dcNow s) (pathDelay v path s)))
  ∧ (∀ v : Nat, Gives (.viewLost v) (fun s => v < 7 ∧ (view s v).lost = false ∧ sourceLost s v = true)
    (fun s =>
      let t := refreq v (view s v).freq 0 none (fun x => { x with holdover := true, locked := false, lost := true }) s
      let u := if (viewSet s v).source = 1 then announceExpire t (viewSet s v).port else t
      let w := if (view s v).holdover = true then u else bump 6 (512 + v * 4 + 1) u
      autoSelect v 0 (healthStep (raise 0x0302 2 v 0 0 (partnerLost v w)))))
  ∧ (∀ t : Nat, Gives .selectRevert (fun s => s.time.sel.healthySince = some t ∧ (selSet s).revertive = true
      ∧ (selSet s).backup = some s.time.sel.view ∧ (view s (selSet s).primary).locked = true
      ∧ (view s (selSet s).primary).suspect = false ∧ secTicks (selSet s).holdS ≤ since s t)
    (fun s => selectView (selSet s).primary false 2 s))
  ∧ (∀ v t : Nat, Gives (.qualificationEnd v) (fun s => (view s v).frozen = true ∧ (view s v).qualEnd = some t ∧ reached s t = true
      ∧ ((view s v).partnerHeld = false ∨ ∀ q, (viewSet s v).partner = some q → (view s q).locked = false))
    (fun s => raise 0x0307 2 v 0 0 (setView v { view (acceptPath v s) v with unverified := true } (acceptPath v s))))
  ∧ (∀ v q t : Nat, Gives (.qualificationEnd v) (fun s => (view s v).frozen = true ∧ (view s v).qualEnd = some t ∧ reached s t = true
      ∧ (view s v).partnerHeld = true ∧ (viewSet s v).partner = some q ∧ (view s q).locked = true
      ∧ (qualE s v q).abs ≤ ((viewSet s v).asymNs : Rat))
    (fun s => raise 0x0305 0 v (freeRound (qualE s v q * (1000 : Rat))) 0 (acceptPath v (draw (draw s)))))
  ∧ (∀ v q t : Nat, Gives (.qualificationEnd v) (fun s => (view s v).frozen = true ∧ (view s v).qualEnd = some t ∧ reached s t = true
      ∧ (view s v).partnerHeld = true ∧ (viewSet s v).partner = some q ∧ (view s q).locked = true
      ∧ ¬(qualE s v q).abs ≤ ((viewSet s v).asymNs : Rat))
    (fun s =>
      let t := setView v { view s v with
        frozen := false, suspect := true, holdover := true, locked := false, recorded := [], qualEnd := none } (draw (draw s))
      let u := if (view s v).holdover = true then t else bump 6 (512 + v * 4 + 1) t
      autoSelect v 1 (healthStep (raise 0x0306 2 v (freeRound (qualE s v q * (1000 : Rat))) 0 (bump 6 (512 + v * 4 + 3) u)))))
  ∧ (∀ v t ns : Nat, Gives (.viewStepApply v) (fun s => (view s v).step = some (t, ns) ∧ reached s t = true)
    (fun s => stepViewAt v ((ns * 2 ^ 32 : Nat) : Int) t (setView v { view s v with step := none } s)))
  ∧ Gives .selectionBiasSettled (fun s => s.time.sel.slewing = true ∧ biasAt s.time.sel (dcNow s) = 0)
    (fun s => remap (dcNow s) (modSel (fun t => { t with biasNs := 0, biasDc := dcNow s, slewing := false })) s)
  ∧ (∀ f v : Nat, Gives (.viewBlockRead f v) (fun s => s.start.blocksUp = true ∧ v < 9 ∧ (fnIsPf f = true ∨ v = 8))
    (fun s => setFnRegs f { fnRegs s f with views := tput (fnRegs s f).views v (viewBlock s v) } s))

/-- The events of PTP, of the transmit queue and of the PPS pins. A port without role and one whose profile or message type the role does not take
discard a message and count it, a PASSTHROUGH port passes it on as a record, a SLAVE_ONLY port takes and a MASTER_ONLY port answers it (R126,
R141); a MASTER_ONLY port sends Announce and Sync, one-step or two-step (R127), a SLAVE_ONLY port its delay request (R126; it alone, and over its own transport alone, by log entries 104 and 109); reading entry 0
of the transmit queue takes it out, its drops read to 0, its overflow is cleared (R137); a PPS edge comes to the PPS views or is a glitch, a
CLK10 gate gives its frequency (R138), PPS_OUT pulses at the second (R139). -/
def Obligations.PtpAndPpsEventsAct : Prop :=
  (∀ (port : Nat) (m : PtpMsg), Gives (.ptpMessageRx port m) (fun s => (ptpCfg (posImage s) port).role = 0
      ∨ ((ptpCfg (posImage s) port).role = 1 ∨ (ptpCfg (posImage s) port).role = 2) ∧ ptpSupported (ptpCfg (posImage s) port) m = false)
    (bump 6 (port * 8 + 4)))
  ∧ (∀ (port : Nat) (m : PtpMsg), Gives (.ptpMessageRx port m) (fun s => (ptpCfg (posImage s) port).role = 3)
    (fun s => raiseWith 0x0F01 0 port 0 0 (ptpFrameRecord s port m) (some port) (ptpCountRx port m (announceExpire s port))))
  ∧ (∀ (port : Nat) (m : PtpMsg) (c : PtpCfg), Gives (.ptpMessageRx port m) (fun s => c = ptpCfg (posImage s) port ∧ c.role = 1
      ∧ ptpSupported c m = true)
    (fun s => answerMessage port c m (slaveMessage port c m (ptpCountRx port m (announceExpire s port)))))
  ∧ (∀ (port : Nat) (m : PtpMsg) (c : PtpCfg), Gives (.ptpMessageRx port m) (fun s => c = ptpCfg (posImage s) port ∧ c.role = 2
      ∧ ptpSupported c m = true) (fun s => answerMessage port c m (ptpCountRx port m (announceExpire s port))))
  ∧ (∀ port : Nat, Gives (.ptpMasterTransmit port none) (fun s => (ptpCfg (posImage s) port).role = 2)
    (fun s => sendPtp port 0xB (tvSelNs s) ((ptpPort s port).announceSeq :: announceData s port)
      (setPtpPort port { ptpPort s port with announceSeq := ((ptpPort s port).announceSeq + 1) % 65536 } s)))
  ∧ (∀ port sub : Nat, Gives (.ptpMasterTransmit port (some sub)) (fun s => (ptpCfg (posImage s) port).role = 2
      ∧ (ptpCfg (posImage s) port).oneStep = true)
    (fun s =>
      let t := tvSelTime s (dcNow s) sub
      sendStamped port 0 t (ptpPort s port).nextSeq (ownPortId port) (timeParts t).2
        (setPtpPort port { ptpPort s port with nextSeq := ((ptpPort s port).nextSeq + 1) % 65536 } s)))
  ∧ (∀ port sub : Nat, Gives (.ptpMasterTransmit port (some sub)) (fun s => (ptpCfg (posImage s) port).role = 2
      ∧ (ptpCfg (posImage s) port).oneStep = false)
    (fun s =>
      let t := tvSelTime s (dcNow s) sub
      let q := (ptpPort s port).nextSeq
      sendStamped port 8 t q (ownPortId port) (timeParts t).2 (sendStamped port 0 0 q (ownPortId port) 0
        (setPtpPort port { ptpPort s port with nextSeq := (q + 1) % 65536 } s))))
  ∧ (∀ port sub : Nat, Gives (.ptpDelayReqSend port sub) (fun s => (ptpCfg (posImage s) port).role = 1)
    (fun s => sendPtp port (if (ptpCfg (posImage s) port).p2p then 2 else 1) 0 [(ptpPort s port).nextSeq]
      (bump 6 (port * 8 + 1) (setPtpPort port { ptpPort s port with
        nextSeq := ((ptpPort s port).nextSeq + 1) % 65536, delayReq := some ((ptpPort s port).nextSeq, dcNow s, sub) } s))))
  ∧ (∀ (port : Nat) (e : TxqEntry) (rest : List TxqEntry), Gives (.txqEntry0Read port) (fun s => txqLive s port = true
      ∧ (txq s port).entries = e :: rest) (fun s => setTxq port { txq s port with entries := rest, latched := txqWords port e } s))
  ∧ (∀ port : Nat, Gives (.txqDropsRead port) (fun s => txqLive s port = true) (fun s => setTxq port { txq s port with drops := 0 } s))
  ∧ (∀ port : Nat, Gives (.txqOverflowClear port) (fun s => txqLive s port = true)
    (fun s => setTxq port { txq s port with overflow := false } s))
  ∧ (∀ (falling : Bool) (sub : Nat), Gives (.ppsInEdge falling sub) (fun s => (ppsCfg (posImage s)).inOn = true
      ∧ (ppsCfg (posImage s)).inFalling = falling ∧ (∀ t, s.time.ppsLast = some t → msTicks 500 ≤ since s t))
    (fun s => (List.range 7).foldl (fun t v => ppsToView v sub t) { s with time := { s.time with ppsLast := some (dcNow s) } }))
  ∧ (∀ (falling : Bool) (sub t : Nat), Gives (.ppsInEdge falling sub) (fun s => (ppsCfg (posImage s)).inOn = true
      ∧ (ppsCfg (posImage s)).inFalling = falling ∧ s.time.ppsLast = some t ∧ since s t < msTicks 500) (bump 6 545))
  ∧ (∀ g : Clk10Edges, Gives (.clk10Gate g) (fun s => (ppsCfg (posImage s)).clk10In = true ∧ 2 ≤ ticksFrom g.firstDc (dcNow s))
    (fun s => (List.range 7).foldl (fun t v => clk10ToView (clk10Freq s g) v t)
      { s with time := { s.time with clk10Ppb := sat32 (freeRound (clk10Freq s g)) } }))
  ∧ (∀ (sec up : Nat), Gives .ppsOutPulse (fun s => (ppsCfg (posImage s)).outMode = 1 ∧ s.fault.stop = false
      ∧ sec = (ppsOutValue s / (1000000000 * 2 ^ 32)).toNat ∧ ppsOutValue s % (1000000000 * 2 ^ 32) < 6878818796
      ∧ (∀ n, s.time.ppsOutSecond = some n → n < sec) ∧ (∀ t, s.time.ppsOutAt = some t → msTicks 500 ≤ since s t)
      ∧ up = ppsOutPs s (-(ppsOutValue s % (1000000000 * 2 ^ 32))))
    (fun s => drivePin 512 false (up + (ppsCfg (posImage s)).widthMs * 1000000000) (drivePin 512 true up
      { s with time := { s.time with ppsOutSecond := some sec, ppsOutAt := some (dcNow s) } })))
/-! Lanes and the Graft -/

/-- The states of a lane: the loss of a reference clock takes its sixteen lanes to FAULT, without their lock (R143); low density freezes the
adaptation and a dense data block resumes it (R149); a tap that reaches its bound about a recorded anchor stays there (R150); a lane is
trained again at its interval, or its anchor is set anew, and a trim that waits is discarded (R152; the order against a calibration that is due is the model's, log entry 115); auto-negotiation ends in training or
alignment where the partner's abilities hold the lane's mode with its FEC, or goes on without a common mode (R146, log entry 90); energy
comes and goes (R157). -/
def Obligations.LaneEventsAct : Prop :=
  (∀ k : Nat, Gives (.refclkLost k) (fun _ => k < 4) (fun s => (refclkLanes k).foldl (fun t l =>
      modLane l (fun x => { x.flag flRefclkLost true with st := lsFault, locked := false }) (laneOutOfService l t)) s))
  ∧ (∀ l transitions idle : Nat, Gives (.adaptationFreeze l transitions idle) (fun s => (laneOf s l).adapts = true
      ∧ (lowDensity transitions = true ∨ 4096 ≤ idle)) (fun s => bump 2 (l * 16 + 8) (setLane l ((laneOf s l).flag flFrozen true) s)))
  ∧ (∀ l transitions : Nat, Gives (.adaptationResume l transitions true) (fun s => (laneOf s l).has flFrozen = true
      ∧ lowDensity transitions = false) (fun s => setLane l ((laneOf s l).flag flFrozen false) s))
  ∧ (∀ (l tap : Nat) (upper : Bool) (y : Lane), Gives (.boundHit l tap upper) (fun s => (laneOf s l).adapts = true
      ∧ (laneOf s l).hasAnchor = true ∧ tap < 26 ∧ y = { (laneOf s l).flag flWander true with
        coeffs := coefPut (laneOf s l).coeffs tap (coefGet (laneOf s l).anchor tap + if upper then wander else -wander)
        atBound := (laneOf s l).atBound ||| 2 ^ tap, hits := min 255 ((laneOf s l).hits + 1) })
    (fun s =>
      let t := bump 2 (l * 16 + 9) (setLane l y s)
      if y.hits < 3 ∨ y.marginRaised = true then t
      else raise 0x0401 2 l y.atBound 0 (setLane l { y.flag flMargin true with marginRaised := true } t)))
  ∧ (∀ l n : Nat, Gives (.retrainInterval l) (fun s => (laneOf s l).eq.interval = some n ∧ s.start.w1Running = false
      ∧ (((calTarget s l).due = false ∧ calFallsDue s l = false) ∨ calBarred s l = true ∨ calOpen s l = false) ∧ secTicks n ≤ since s (laneOf s l).anchorDc) (retrainLane l))
  ∧ (∀ (l : Nat) (now : Coeffs), Gives (.reanchor l now) (fun s => (laneOf s l).reanchor = true ∧ (laneOf s l).st = lsUp)
    (fun s => bump 2 (l * 16 + 10) (setLane l (((laneOf s l).adaptTo now).anchored (dcNow s)) (discardLaneTrim l s))))
  ∧ (∀ (l : Nat) (partner : List (Nat × Nat)), Gives (.autonegResolved l partner) (fun _ => True) (fun s => (laneGroup s l).foldl (fun t k =>
      let x := laneOf t k
      if x.st ≠ lsAutoneg then t
      else if (x.set.mode, x.set.fec) ∈ partner then
        let y := x.flag flAnNoCommon false
        setLane k (if y.trains = true then y.train (dcNow t) else y.align) t
      else setLane k (x.flag flAnNoCommon true) t) s))
  ∧ (∀ (l : Nat) (present : Bool), Gives (.signalEnergyChange l present) (fun s => (laneOf s l).st ≠ lsOff)
    (fun s => setLane l ({ laneOf s l with energy := present }.flag flNoSignal (!present)) s))
  ∧ (∀ (l : Nat) (present : Bool), Gives (.signalEnergyChange l present) (fun s => (laneOf s l).st = lsOff)
    (fun s => setLane l { laneOf s l with energy := present } s))

/-- Training, lock and test patterns: a training frame of the lane's own position adjusts the taps and is answered, one of another position is
LANE_ORDER; the end of training leads to alignment, its timeout tries again and fails after the third (R155); a block lock brings a group up,
its loss takes the lane down, a Graft lane that is in a map out of its link (R158, R168); a checker locks, and resyncs after more than 1,024 errors in 4,096 bits
(R174). -/
def Obligations.TrainingAndLockEventsAct : Prop :=
  (∀ (l control status identity wish : Nat) (good : Bool), Gives (.trainingFrameRx l control status identity wish good)
      (fun s => (laneOf s l).framing = true ∧ bitsOf identity 8 8 = lanePosition (laneOf s l) l)
    (fun s =>
      let x := laneOf s l
      let r := applyControl control x.pre x.post
      emit (.trainFrame l wish (r.2.2 + 256 * b2n good) (l + 256 * lanePosition x l)) (setLane l { x with
        pre := r.1, post := r.2.1, readyRun := if bitOf status 8 = true ∧ good = true then min 32 (x.readyRun + 1) else 0 } s)))
  ∧ (∀ (l control status identity wish : Nat) (good : Bool), Gives (.trainingFrameRx l control status identity wish good)
      (fun s => (laneOf s l).framing = true ∧ bitsOf identity 8 8 ≠ lanePosition (laneOf s l) l)
    (fun s => setLane l { (laneOf s l).flag flLaneOrder true with st := lsFault, locked := false } s))
  ∧ (∀ (l : Nat) (now : Trained) (y : Lane), Gives (.trainingEnd l now) (fun s => (laneOf s l).set.mode ≠ modeGraft ∧ (laneOf s l).st = lsTraining
      ∧ y = ({ laneOf s l with
        coeffs := now.coeffs, pre := min 16 now.pre, post := min 24 now.post
        trainingMs := since s (laneOf s l).trainStart / msTicks 1, tries := 0, readyRun := 0 }).anchored (dcNow s))
    (setLane l y.align))
  ∧ (∀ (l : Nat) (now : Trained) (y : Lane), Gives (.trainingEnd l now) (fun s => (laneOf s l).set.mode = modeGraft ∧ (laneOf s l).framing = true
      ∧ (laneOf s l).readyRun = 32
      ∧ y = ({ laneOf s l with
        coeffs := now.coeffs, trainingMs := since s (laneOf s l).trainStart / msTicks 1, tries := 0, readyRun := 0 }).anchored (dcNow s))
    (fun s => emit (.marker l (markerBlock (lanePosition (laneOf s l) l) (graftOf s (laneOf s l).set.first)))
      (setLane l (if (laneOf s l).st = lsRetraining then { y with trained := true } else y.align) s)))
  ∧ (∀ l : Nat, Gives (.trainingTimeout l) (fun s => (laneOf s l).set.mode ≠ modeGraft ∧ (laneOf s l).st = lsTraining ∧ (laneOf s l).tries < 2)
    (fun s => enterLane l { laneOf s l with st := lsAutoneg, tries := (laneOf s l).tries + 1 } s))
  ∧ (∀ l : Nat, Gives (.trainingTimeout l) (fun s => (laneOf s l).set.mode = modeGraft ∧ (laneOf s l).framing = true
      ∧ msTicks 100 ≤ since s (laneOf s l).trainStart ∧ (laneOf s l).tries < 2)
    (fun s => setLane l { laneOf s l with tries := (laneOf s l).tries + 1, trainStart := dcNow s, readyRun := 0 } s))
  ∧ (∀ l : Nat, Gives (.trainingTimeout l) (fun s => 2 ≤ (laneOf s l).tries
      ∧ ((laneOf s l).set.mode ≠ modeGraft ∧ (laneOf s l).st = lsTraining
        ∨ (laneOf s l).set.mode = modeGraft ∧ (laneOf s l).framing = true ∧ msTicks 100 ≤ since s (laneOf s l).trainStart))
    (fun s => setLane l { (laneOf s l).flag flTrainFail true with st := lsFault, tries := 0, locked := false } s))
  ∧ (∀ l ps : Nat, Gives (.blockLock l ps) (fun s => (laneOf s l).energy = true ∧ ((laneOf s l).set.manual && (laneOf s l).set.fec == 0) = false
      ∧ (laneOf s l).locked = false ∧ (laneOf s l).st = lsAligning) (fun s => groupLocked (laneOf s l).set.first ps (setLane l (laneOf s l).lock s)))
  ∧ (∀ l ps : Nat, Gives (.blockLock l ps) (fun s => (laneOf s l).energy = true ∧ ((laneOf s l).set.manual && (laneOf s l).set.fec == 0) = false
      ∧ (laneOf s l).locked = false ∧ (laneOf s l).st = lsRetraining ∧ ((laneOf s l).trained = true ∨ (laneOf s l).eq.fixed = true))
    (fun s => setLane l (laneOf s l).lock
      (setGraft (laneOf s l).set.first { graftOf s (laneOf s l).set.first with measuredPs := ps } s)))
  ∧ (∀ l bad : Nat, Gives (.lockLoss l bad) (fun s => (laneOf s l).st = lsUp)
    (fun s =>
      let x := laneOf s l
      let t := bump 2 (l * 16 + 1) (bumpBy 2 (l * 16) bad s)
      if x.set.mode = modeGraft then retrainOut l (setGraft x.set.first { graftOf t x.set.first with nak := true } t)
      else if 2 ≤ x.set.lanes then dropPort x.set.first t
      else portWentDown x.set.first (setLane l x.align t)))
  ∧ (∀ l bad : Nat, Gives (.lockLoss l bad) (fun s => (laneOf s l).locked = true
      ∧ ((laneOf s l).st = lsAligning ∨ (laneOf s l).st = lsRetraining))
    (fun s =>
      let x := laneOf s l
      let t := bump 2 (l * 16 + 1) (bumpBy 2 (l * 16) bad s)
      if x.set.mode = modeGraft then
        let g := graftOf t x.set.first
        if bitOf g.txMap (l - x.set.first) = true ∨ bitOf g.rxMap (l - x.set.first) = true then retrainOut l (setGraft x.set.first { g with nak := true } t)
        else setLane l { x.flag flNoLock true with locked := false } t
      else setLane l x.align t))
  ∧ (∀ l : Nat, Gives (.checkerLock l) (fun s => (laneOf s l).testing = true ∧ (laneOf s l).test.chk ≠ 0)
    (fun s => setLane l { laneOf s l with test := { (laneOf s l).test with locked := true } } s))
  ∧ (∀ l errors : Nat, Gives (.checkerResync l errors) (fun s => (laneOf s l).testing = true ∧ (laneOf s l).test.locked = true ∧ 1024 < errors
      ∧ errors ≤ 4096)
    (fun s => bump 2 (l * 16 + 7) (modLane l (fun y => { y with test := { y.test with
      locked := false, resyncs := y.test.resyncs + 1 } }) (countPattern l 4096 errors s))))

/-- The Graft link: a flit of a bad CRC is counted, dropped and answered with a NAK, a sound one is taken, the partner's map and acknowledgement
with it, in sequence where it carries one (R161); flits without acknowledgement for the replay time are sent again (R163); alignment markers
go out (R167); a lane comes back into a link that stands (R169); a link that is lost fails (R170). -/
def Obligations.GraftEventsAct : Prop :=
  (∀ (first : Nat) (data : Bytes), Gives (.flitRx first data) (fun s => (laneOf s first).set.mode = modeGraft ∧ (graftOf s first).rxMap ≠ 0
      ∧ fld (fitTo 256 data) 252 4 ≠ crc32 ((fitTo 256 data).take 252))
    (fun s => putFlit first 0 ⟨0, []⟩ (setGraft first { graftOf s first with nak := true } (bump 2 (1024 + first * 8 + 2) s))))
  ∧ (∀ (first : Nat) (data b : Bytes), Gives (.flitRx first data) (fun s => (laneOf s first).set.mode = modeGraft ∧ (graftOf s first).rxMap ≠ 0
      ∧ b = fitTo 256 data ∧ fld b 252 4 = crc32 (b.take 252) ∧ fld b 4 1 ≠ 0 ∧ bitOf (fld b 1 1) 1 = false)
    (fun s =>
      let f : Flit := ⟨fld b 0 1, (b.drop 8).take (min 244 (fld b 6 2))⟩
      let c := setGraft first { graftOf s first with partnerMap := fld b 4 1, emptySince := none } (bump 2 (1024 + first * 8 + 1) s)
      let t := takeAck first (fld b 3 1) (followMap first (fld b 4 1) (match (linkOf c first).partner with
        | some d => markHeard (sideOf first) d c
        | none => c))
      let u := if bitOf (fld b 1 1) 0 = true then takeSequenced first (fld b 2 1) f t else takePayload first f t
      arrivedFlits first (if bitOf (fld b 1 1) 0 = true ∨ (graftOf u first).nak = true then putFlit first 0 ⟨0, []⟩ u else u)))
  ∧ (∀ first : Nat, Gives (.replayTimeout first) (fun s => (graftOf s first).held ≠ [] ∧ (graftOf s first).failed = false
      ∧ replayTimeout (graftOf s first) ≤ since s (graftOf s first).progressAt)
    (fun s => replayFrom first (graftOf s first).held (setGraft first { graftOf s first with
      timeouts := (graftOf s first).timeouts + 1, progressAt := dcNow s } (bump 2 (1024 + first * 8 + 4) s))))
  ∧ (∀ first : Nat, Gives (.alignmentMarker first) (fun s => (laneOf s first).set.mode = modeGraft) (sendMarkers first))
  ∧ (∀ lane first : Nat, Gives (.laneReadmission lane) (fun s => first = (laneOf s lane).set.first ∧ (laneOf s lane).set.mode = modeGraft
      ∧ (laneOf s lane).locked = true ∧ (laneOf s lane).st = lsAligning ∧ (graftOf s first).rxMap ≠ 0 ∧ (graftOf s first).failed = false)
    (fun s =>
      let t := setLane lane ((laneOf s lane).goUp (dcNow s)) s
      lanesUp (putFlit first 0 ⟨0, []⟩ (bump 2 (1024 + first * 8 + 6) (setGraft first { graftOf s first with
        rxMap := (graftOf s first).rxMap ||| 2 ^ (lane - first), failed := false, emptySince := none } t)))))
  ∧ (∀ first : Nat, Gives (.graftLinkFail first) (fun s => (laneOf s first).set.mode = modeGraft ∧ (graftOf s first).failed = false
      ∧ graftOf s first ≠ {} ∧ graftLost s (graftOf s first) = true) (failGraft first))

/-! Camera links and ingest -/

/-- The events of the camera links: a frame is counted, and discarded, answered, recorded or handed on as its kind says (R179); a module is read
every 100 ms (R180); an acknowledgement ends its command, a timeout repeats it twice and then ends it, the heartbeat of a head is read at a
third of its time (R186); a LOST head is tried again after 1 s (R184); a silent stream leaves STREAMING (R475); a CXP head is kept by
heartbeats (R193), its control packets are matched, forwarded or counted (R192); a scheduled set of writes is sent at its position (R197); a
held proxied command that takes 1.5 ms gets a ticket (R187). -/
def Obligations.CameraEventsAct : Prop :=
  (∀ (port k : Nat) (data : Bytes), Gives (.ethFrameRx port data) (fun s => isPort (posImage s) modeEth port = true ∧ portUp s port = true
      ∧ frameUse s port data = .discard k) (fun s => portCount port k (portCount port 0 s)))
  ∧ (∀ (port : Nat) (data r : Bytes), Gives (.ethFrameRx port data) (fun s => isPort (posImage s) modeEth port = true ∧ portUp s port = true
      ∧ frameUse s port data = .answer r)
    (fun s => sendFrame port (.frame port r) (portCount port 5 (portCount port 0 s))))
  ∧ (∀ (port : Nat) (data : Bytes), Gives (.ethFrameRx port data) (fun s => isPort (posImage s) modeEth port = true ∧ portUp s port = true
      ∧ (frameUse s port data = .ptp ∨ frameUse s port data = .ack ∨ frameUse s port data = .stream)) (portCount port 0))
  ∧ (∀ (port h : Nat) (data body : Bytes), Gives (.ethFrameRx port data) (fun s => isPort (posImage s) modeEth port = true ∧ portUp s port = true
      ∧ frameUse s port data = .event h body) (fun s => raiseWith 0x0503 0 h 0 0 body none (portCount port 0 s)))
  ∧ (∀ (bus : Nat) (seen : ModuleSeen), Gives (.modulePoll bus seen) (fun s => bus < 16 ∧ s.start.w1Running = false
      ∧ msTicks 100 ≤ since s (moduleOf s bus).lastPoll ∧ seen.present = false)
    (fun s => setModule bus { ({} : Module) with lastPoll := dcNow s } s))
  ∧ (∀ (bus : Nat) (seen : ModuleSeen) (lanes : State → List Nat), Gives (.modulePoll bus seen) (fun s => bus < 16 ∧ s.start.w1Running = false
      ∧ msTicks 100 ≤ since s (moduleOf s bus).lastPoll ∧ seen.present = true ∧ seen.cmis = true ∧ 0x40 ≤ seen.revision
      ∧ lanes s = (busLanes bus).filter (fun l => (laneOf s l).set.mode != 0))
    (fun s =>
      let t := setModule bus { kind := 1, identifier := seen.identifier, revision := seen.revision, ready := true
                               application := (match lanes s with | l :: _ => (laneOf s l).set.mode | [] => 0)
                               enabledLanes := (lanes s).foldl (fun m l => m + 2 ^ (l % 4)) 0, flags := seen.flags, lastPoll := dcNow s } s
      if seen.flags ≠ 0 ∧ seen.flags ≠ (moduleOf s bus).flags then raise 0x0406 2 bus seen.flags 0 t else t))
  ∧ (∀ (h reqId status ack iface : Nat) (payload : Bytes) (respOk : Bool) (o : CtlOut), Gives (.gvcpAckRx h reqId status ack payload iface respOk)
      (fun s => (headOf s h).out = some o ∧ o.reqId = reqId ∧ (headSet s h).protocol = 1 ∧ o.job.tag = 3)
    (fun s => nextControl h (proxyEnd h o.job.ref (if status = 0 then stOk else 0x42) (gvcpAnswer status ack payload) respOk
      (modHead h (fun x => { x with out := none }) (interfaceHeard h iface s)))))
  ∧ (∀ (h reqId ack iface : Nat) (payload : Bytes) (respOk : Bool) (o : CtlOut), Gives (.gvcpAckRx h reqId 0 ack payload iface respOk)
      (fun s => (headOf s h).out = some o ∧ o.reqId = reqId ∧ (headSet s h).protocol = 1 ∧ o.job.tag = 1 ∧ o.job.ref = 0)
    (fun s => nextControl h (modHead h (fun x => { x with out := none, missed := 0 }) (interfaceHeard h iface s))))
  ∧ (∀ (h : Nat) (respOk : Bool) (o : CtlOut), Gives (.gvcpTimeout h respOk) (fun s => (headOf s h).out = some o ∧ msTicks 50 ≤ since s o.sentAt
      ∧ o.sends < 3 ∧ probe o.job = false)
    (fun s =>
      let o' := { o with sends := o.sends + 1, sentAt := dcNow s }
      headCount h 11 (sendControl h o' (modHead h (fun x => { x with out := some o' }) (primarySilent h o s)))))
  ∧ (∀ (h : Nat) (respOk : Bool) (o : CtlOut), Gives (.gvcpTimeout h respOk) (fun s => (headOf s h).out = some o ∧ msTicks 50 ≤ since s o.sentAt
      ∧ 3 ≤ o.sends ∧ o.job.tag = 3)
    (fun s => nextControl h (proxyEnd h o.job.ref stTimeout [] respOk (modHead h (fun x => { x with out := none }) (primarySilent h o s)))))
  ∧ (∀ h : Nat, Gives (.heartbeatRead h) (fun s => headReady s h = true ∧ (headSet s h).protocol = 1
      ∧ msTicks (headSet s h).heartbeatMs ≤ 3 * since s (headOf s h).lastRead ∧ (headOf s h).onAlt = false ∧ (headOf s h).silent = []
      ∧ (headJobs (headOf s h)).any (fun j => j.tag == 1) = false)
    (fun s => addJob h ⟨1, 0, gvcpReadReg, beWord regControl, none⟩ (modHead h (fun y => { y with lastRead := dcNow s }) s)))
  ∧ (∀ h : Nat, Gives (.headRetry h) (fun s => (headOf s h).st = hsLost ∧ headOn (posImage s) h = true ∧ secTicks 1 ≤ since s (headOf s h).since)
    (headConnect h 6))
  ∧ (∀ h : Nat, Gives (.streamIdle h) (fun s => (headOf s h).st = hsStreaming
      ∧ usTicks (headSet s h).blockTimeoutUs ≤ since s (headOf s h).lastPacket) (headTo h hsReady 8))
  ∧ (∀ h : Nat, Gives (.cxpHeartbeatSend h) (fun s => (headSet s h).protocol = 2 ∧ (headOf s h).st ≠ hsOff ∧ portUp s (headSet s h).port = true
      ∧ msTicks 100 ≤ since s (headOf s h).beatSent)
    (fun s => emit (.cxpHeartbeat h (tvSelNs s)) (setHead h { headOf s h with beatSent := dcNow s } s)))
  ∧ (∀ h : Nat, Gives (.cxpHeartbeatTimeout h) (fun s => (headSet s h).protocol = 2
      ∧ (headReady s h = true ∨ (headOf s h).st = hsConnecting) ∧ msTicks (headSet s h).heartbeatMs ≤ since s (headOf s h).heard)
    (fun s => headLost h 4 (headCount h 12 s)))
  ∧ (∀ (h reqId status : Nat) (payload : Bytes) (respOk : Bool), Gives (.cxpControlPacketRx h 2 reqId status payload respOk)
      (fun s => (headSet s h).protocol = 2 ∧ (headOf s h).st = hsConnecting)
    (fun s => headTo h hsReady 1 (setHead h { headOf s h with heard := dcNow s } s)))
  ∧ (∀ (h reqId status : Nat) (payload : Bytes) (respOk : Bool) (o : CtlOut), Gives (.cxpControlPacketRx h 0 reqId status payload respOk)
      (fun s => (headSet s h).protocol = 2 ∧ (headOf s h).st ≠ hsOff ∧ (headOf s h).out = some o ∧ o.reqId = reqId ∧ o.job.tag ≠ 2)
    (fun s => nextControl h (proxyEnd h o.job.ref (if status = 0 then stOk else 0x42) (if status = 0 then payload else leBytes 2 status) respOk
      (setHead h { headOf s h with out := none } s))))
  ∧ (∀ (h reqId status : Nat) (payload : Bytes) (respOk : Bool), Gives (.cxpControlPacketRx h 3 reqId status payload respOk)
      (fun s => (headSet s h).protocol = 2 ∧ (headOf s h).st ≠ hsOff)
    (fun s => setHead h { headOf s h with trigAcks := (headOf s h).trigAcks + 1 } s))
  ∧ (∀ (h : Nat) (due : List Sched), Gives (.paramWriteSend h) (fun s => due = (headOf s h).schedules.filter (fun d =>
      !d.sent && decide (d.sendAt ≤ (trigUnit s (headSet s h).unit).h)) ∧ due ≠ [])
    (fun s => due.foldl (fun t d =>
      nextControl h (modHead h (fun y => { y with jobs := y.jobs ++ schedJobs (headSet s h).protocol d })
        (modSched h d.id (fun e => { e with sent := true }) t))) s))
  ∧ (∀ (respOk : Bool) (k : Held) (start : Nat → State → State), Gives (.gvcpProxyDeadline respOk) (fun s => s.mbx.hold = some k ∧ k.head < 48
      ∧ usTicks 1500 ≤ since s k.since ∧ s.mbx.answering = true ∧ ticketsOf s k.req.fn < ticketLimit k.req.fn ∧ start = fun n t => modHead k.head (fun x => { x with
        jobs := x.jobs.map (retag n), out := x.out.map (fun o => { o with job := retag n o.job }) }) t)
    (fun s => respond k.req stInProgress [] 0 s.mbx.nextTicket
      (start s.mbx.nextTicket (ticketed k.req [] { s with mbx := { s.mbx with hold := none } }))))

/-- The packets of camera streams. A packet of a head that is on but neither READY nor STREAMING is discarded (R475), so is a GigE Vision
packet without extended IDs or in all-in mode, and a CoaXPress packet of no declared stream. A packet of a declared stream goes to its block
(R188 to R191, R194), a leader that the device does not take discards its block (R188), and a packet that the head calls unavailable is given
up with its range (R190); a line made whole in the tick of its gate's expiry is used (R226). block_timeout_us after the last packet of an
open block the block closes (R208), and of a GigE Vision stream the packets from the next one expected to the trailer are a gap, counted
(R189). Each gap not yet requested is requested once (R189); resend_wait_us after a request it is requested again, and after resend_attempts
requests it is given up (R190). The block timeout's order of acts and its range of packets are the model's (log entries 50 and 54). -/
def Obligations.StreamEventsAct : Prop :=
  (∀ p : StreamPacket, Gives (.streamPacketRx p) (fun s => headReady s p.head = false ∧ headOn (posImage s) p.head = true) (discardPacket p.head))
  ∧ (∀ (p : StreamPacket) (n : Nat) (c : StreamCfg), Gives (.streamPacketRx p) (fun s => headReady s p.head = true
      ∧ packetStream s p = some n ∧ streamSet s n = some c ∧ (headSet s p.head).protocol = 1 ∧ (p.extended = false ∨ p.allIn = true))
    (discardPacket p.head))
  ∧ (∀ p : StreamPacket, Gives (.streamPacketRx p) (fun s => headReady s p.head = true ∧ packetStream s p = none
      ∧ (headSet s p.head).protocol ≠ 1) (discardPacket p.head))
  ∧ (∀ (p : StreamPacket) (n : Nat) (c : StreamCfg), Gives (.streamPacketRx p) (fun s => headReady s p.head = true
      ∧ packetStream s p = some n ∧ streamSet s n = some c ∧ (headSet s p.head).protocol = 1
      ∧ p.extended = true ∧ p.allIn = false ∧ p.kind ≠ 3 ∧ leaderBad c p = none ∧ (chan7 s n).dropping ≠ some p.block)
    (fun s => admitSameTick n (takePacket n c p s)))
  ∧ (∀ (p : StreamPacket) (n : Nat) (c : StreamCfg), Gives (.streamPacketRx p) (fun s => headReady s p.head = true
      ∧ packetStream s p = some n ∧ streamSet s n = some c ∧ (headSet s p.head).protocol ≠ 1
      ∧ (p.crcOk = true ∨ p.kind = 1) ∧ p.kind ≠ 3 ∧ leaderBad c p = none ∧ (chan7 s n).dropping ≠ some p.block)
    (fun s => admitSameTick n (takePacket n c p s)))
  ∧ (∀ (p : StreamPacket) (n k : Nat) (c : StreamCfg), Gives (.streamPacketRx p) (fun s => headReady s p.head = true
      ∧ packetStream s p = some n ∧ streamSet s n = some c
      ∧ ((headSet s p.head).protocol = 1 → p.extended = true ∧ p.allIn = false) ∧ ((headSet s p.head).protocol ≠ 1 → p.crcOk = true)
      ∧ leaderBad c p = some k ∧ (chan7 s n).dropping ≠ some p.block)
    (fun s => admitSameTick n (dropBlock n c k p.block s)))
  ∧ (∀ (p : StreamPacket) (n : Nat) (c : StreamCfg) (b : Block), Gives (.streamPacketRx p) (fun s => headReady s p.head = true
      ∧ packetStream s p = some n ∧ streamSet s n = some c ∧ (headSet s p.head).protocol = 1
      ∧ p.extended = true ∧ p.allIn = false ∧ p.kind = 3 ∧ (chan7 s n).blocks.find? (fun b => b.id == p.block) = some b)
    (fun s => admitSameTick n (abandon n c b p.pid p.lastPid s)))
  ∧ (∀ (n : Nat) (c : StreamCfg) (b : Block), Gives (.blockTimeout n) (fun s => streamSet s n = some c
      ∧ (chan7 s n).blocks.find? (fun b => !b.closed) = some b ∧ usTicks (headSet s c.head).blockTimeoutUs ≤ since s (chan7 s n).lastPacket
      ∧ c.channel < 1024)
    (fun s =>
      let r := closeBlock n c b s
      setChan7 n { chan7 r.2 n with blocks := putBlock r.1 c (chan7 s n).blocks } r.2))
  ∧ (∀ (n : Nat) (c : StreamCfg) (b : Block), Gives (.blockTimeout n) (fun s => streamSet s n = some c
      ∧ (chan7 s n).blocks.find? (fun b => !b.closed) = some b ∧ usTicks (headSet s c.head).blockTimeoutUs ≤ since s (chan7 s n).lastPacket
      ∧ 1024 ≤ c.channel)
    (fun s =>
      let last := max b.nextPid (trailerPid c)
      let r := closeBlock n c b (headCount c.head 2 s)
      setChan7 n { chan7 r.2 n with
        blocks := putBlock { r.1 with gaps := r.1.gaps ++ [⟨b.nextPid, last, 0, 0⟩], nextPid := last + 1 } c (chan7 s n).blocks } r.2))
  ∧ (∀ (n : Nat) (c : StreamCfg), Gives (.packetresendCmd n) (fun s => streamSet s n = some c)
    (fun s =>
      let x := chan7 s n
      let due := x.blocks.flatMap (fun b => (b.gaps.filter (fun g => g.requests == 0)).map (fun g => (b.id, g)))
      setChan7 n { x with
        blocks := x.blocks.map (fun b => { b with
          gaps := b.gaps.map (fun g => if g.requests = 0 then { g with requests := 1, askedAt := dcNow s } else g) }) }
        (due.foldl (fun t e => sendResend c.head n e.1 e.2.lo e.2.hi t) s)))
  ∧ (∀ (n : Nat) (c : StreamCfg) (b : Block) (g : Gap), Gives (.resendTimeout n) (fun s => streamSet s n = some c
      ∧ (chan7 s n).blocks.findSome? (fun b => (b.gaps.find? (fun g => g.requests != 0
        && decide (usTicks (headSet s c.head).resendWaitUs ≤ since s g.askedAt))).map (fun g => (b, g))) = some (b, g)
      ∧ g.requests < (headSet s c.head).resendAttempts)
    (fun s => sendResend c.head n b.id g.lo g.hi (setChan7 n { chan7 s n with
      blocks := putBlock { b with gaps := b.gaps.map (fun k => if k = g then { g with requests := g.requests + 1, askedAt := dcNow s } else k) }
        c (chan7 s n).blocks } s)))
  ∧ (∀ (n : Nat) (c : StreamCfg) (b : Block) (g : Gap), Gives (.resendTimeout n) (fun s => streamSet s n = some c
      ∧ (chan7 s n).blocks.findSome? (fun b => (b.gaps.find? (fun g => g.requests != 0
        && decide (usTicks (headSet s c.head).resendWaitUs ≤ since s g.askedAt))).map (fun g => (b, g))) = some (b, g)
      ∧ (headSet s c.head).resendAttempts ≤ g.requests)
    (fun s => admitSameTick n (abandon n c b g.lo g.hi s)))

/-- The lines of a stream. With its last byte the next line enters ingest, paired and written to the look-back buffer, is used by a gate that
expired in the same tick, and the first line of a frame is counted for FRAME_COUNT (R56, R204, R206, R209, R226); a line past frame_lines is
counted and dropped (R208); in thermal STOP no line is accepted (R425). A line that has waited its time for packets goes on with fill_value,
padded, counted unless it was padded before, and late where its gate has opened (R207, R208, R226). A stripe that has been open for 1 µs is
written with its missing granules unused (R210). -/
def Obligations.LineEventsAct : Prop :=
  (∀ (n : Nat) (c : StreamCfg) (b : Block), Gives (.lineComplete n) (fun s => s.fault.stop = false ∧ streamSet s n = some c
      ∧ nextReady s n c = some b ∧ b.lines < c.frameLines)
    (fun s =>
      let t := takeLine n c b b.lines s
      countFrame n (b.lines == 0) s.ing.lb.nextSeq
        (admitSameTick n (setChan7 n { chan7 t n with blocks := putBlock { b with lines := b.lines + 1 } c (chan7 t n).blocks } t))))
  ∧ (∀ (n : Nat) (c : StreamCfg) (b : Block), Gives (.lineComplete n) (fun s => s.fault.stop = false ∧ streamSet s n = some c
      ∧ nextReady s n c = some b ∧ c.frameLines ≤ b.lines)
    (fun s =>
      let t := ingCount n 6 (ingCount n 0 s)
      countFrame n (b.lines == 0) s.ing.lb.nextSeq
        (admitSameTick n (setChan7 n { chan7 t n with blocks := putBlock { b with lines := b.lines + 1 } c (chan7 t n).blocks } t))))
  ∧ (∀ n : Nat, Gives (.lineComplete n) (fun s => s.fault.stop = true) (admitSameTick n))
  ∧ (∀ (n : Nat) (l : LbLine), Gives (.lineWaitExpiry n) (fun s => (s.ing.lb.lines.reverse).find? (fun l => l.stream == n && l.waiting) = some l
      ∧ usTicks (lineWaitUs s n) ≤ since s l.arrDc ∧ bitOf l.flags 1 = false)
    (fun s => admitSameTick n (ingCount n 4 (arrivedLate n l (modLine l.seq (fun m => { m with
      waiting := false, freeDc := dcNow s, flags := m.flags ||| 2 }) s)))))
  ∧ (∀ (n : Nat) (l : LbLine), Gives (.lineWaitExpiry n) (fun s => (s.ing.lb.lines.reverse).find? (fun l => l.stream == n && l.waiting) = some l
      ∧ usTicks (lineWaitUs s n) ≤ since s l.arrDc ∧ bitOf l.flags 1 = true)
    (fun s => admitSameTick n (arrivedLate n l (modLine l.seq (fun m => { m with
      waiting := false, freeDc := dcNow s, flags := m.flags ||| 2 }) s))))
  ∧ Gives .stripeFlush (fun s => s.ing.lb.stripeFill ≠ 0 ∧ usTicks 1 ≤ since s s.ing.lb.stripeAt)
    (fun s => bump 7 2113 (setLb { s.ing.lb with
      wp := s.ing.lb.wp + (3 - s.ing.lb.stripeFill), stripe := s.ing.lb.stripe + 1, stripeFill := 0 } s))
/-! Beds, graphs, regions and tiles -/

/-- The events of the beds: a bed serves the ready line its credits pick (R218); a gate whose members are late is expired at that tick and makes
their part (R225); a bed emits the rows of a gate that is ready, after what its row begins with, the time it held the row is settled, and so
is the commit (R230). -/
def Obligations.BedEventsAct : Prop :=
  (∀ (bed n : Nat) (credits : Tab Rat) (l : LbLine) (img : Image), Gives (.bedServeLine bed) (fun s => img = bedImage s bed
      ∧ drrPick img bed (bedSt s bed) ((bedStreams img bed).filter (fun n => ownerBed s n == bed && (readyLine s img n).isSome))
        = some (n, credits)
      ∧ readyLine s img n = some l)
    (fun s =>
      let left := tget 0 credits n - ((match streamCfg img n with | some c => c.columns | none => 0 : Nat) : Rat)
      takeBedLine img bed n l (setBed bed { bedSt s bed with
        credits := tset 0 credits n left, cursor := if 0 < left then n else n + 1 } s)))
  ∧ (∀ (grid t : Nat) (g : Gate) (late : List Nat), Gives (.memberWaitExpiry grid) (fun s => grid < 64 ∧ gateOf s grid = some g
      ∧ g.clock = some t ∧ g.expired = none ∧ usTicks (memberWaitUs (posImage s) grid) ≤ since s t
      ∧ late = (membersOf s grid).filter (fun n => !memberPresent s n g.g) ∧ late ≠ [])
    (fun s => setGate grid (some { g with expired := some (dcNow s), made := late }) s))
  ∧ (∀ (bed grid refetch : Nat) (gate : Gate) (t u : State), Gives (.bedRowEmit bed grid refetch) (fun s => s.fault.stop = false
      ∧ u = bumpBy 8 (1088 + bed * 4 + 2) refetch s ∧ gateOf u grid = some gate ∧ t = beforeRow bed gate.g gate.beds.isEmpty u
      ∧ rowsReady t bed grid = true ∧ graphsAccept t (bedImage t bed) (bedMembers t bed grid) = true)
    (fun _ =>
      let r := buildRows bed grid t
      let out := releaseRows bed r.1 r.2
      let v := noteHeld bed grid false
        (giveRows (bedImage t bed) (bedGeneration t bed) (shortDigestOf t (dropResets (bedImage t bed))) out.1 out.2)
      settleCommit (regrid (gateAfterEmit bed grid (noteEmitted bed gate.g v)))))

/-- The events of the graphs and the tiles' engines: a graph takes its next row or, on a TARGET, its next forwarded unit, and sends what it holds
for its peer (R260); a shadow check that agrees is counted and kept, one that differs starts the tests (R267); an ECC error is counted, and one
that cannot be corrected starts the tests or takes the engine, or waits where tests already run in the tile; the tests end after 3 µs, and the
next fault that waits starts its own (R268); a re-run ends, and one that waits begins (R270); a sprint begins and ends
between two position rows, where a change that falls due earlier is asked for (R18, R274; what counts as between is the model's, log entry 63). -/
def Obligations.GraphEventsAct : Prop :=
  (∀ (g : Nat) (ups : List Upset), Gives (.graphRow g ups) (fun s => (graphOf s g).fwd = [])
    (fun s => sendAllOutbound (settleEnd g (settleBounds g 64 (graphTake g ups s)))))
  ∧ (∀ (g : Nat) (ups : List Upset), Gives (.graphRow g ups) (fun s => (graphOf s g).fwd ≠ [])
    (fun s => sendAllOutbound (settleEnd g (settleBounds g 64 (targetTake g ups s)))))
  ∧ (∀ (tile slot g : Nat) (row : Int) (run : Run), Gives (.shadowCheck tile slot row true) (fun s => tile < 32 ∧ slot < 16
      ∧ graphOnSlot s (tile * 16 + slot) = some g ∧ (graphOf s g).run = some run ∧ (∀ q, run.lastG = some q → row ≤ q) ∧ run.lastG.isSome = true
      ∧ hasSpare s tile = true ∧ tfind s.fab.fab.tests tile = none ∧ (graphOf s g).rerun = none ∧ (graphOf s g).stopped = false
      ∧ s.fault.inject = none)
    (fun s => tileCount tile 0 (setRun g { run with
      passed := tput run.passed (tile * 16 + slot) (max row ((tfind run.passed (tile * 16 + slot)).getD row)) } s)))
  ∧ (∀ (tile slot g : Nat) (row : Int) (run : Run), Gives (.shadowCheck tile slot row false) (fun s => tile < 32 ∧ slot < 16
      ∧ graphOnSlot s (tile * 16 + slot) = some g ∧ (graphOf s g).run = some run ∧ (∀ q, run.lastG = some q → row ≤ q) ∧ run.lastG.isSome = true
      ∧ hasSpare s tile = true ∧ tfind s.fab.fab.tests tile = none ∧ (graphOf s g).rerun = none ∧ (graphOf s g).stopped = false
      ∧ s.fault.inject = none)
    (fun s => startTest tile slot (some row) none (tileCount tile 1 s)))
  ∧ (∀ e : Nat, Gives (.engineEccError e false) (fun s => e < 544 ∧ retiredEngine s e = false)
    (fun s => bump 14 2 (tileCount (e / 17) 5 s)))
  ∧ (∀ e k : Nat, Gives (.engineEccError e true) (fun s => e < 544 ∧ retiredEngine s e = false
      ∧ slotOfEngine s e = some k ∧ tfind s.fab.fab.tests (e / 17) = none)
    (fun s =>
      let t := bump 14 3 (tileCount (e / 17) 6 s)
      if hasSpare s (e / 17) = true then startTest (e / 17) (k % 16) none none t else loseSlot k false (retire e t)))
  ∧ (∀ e : Nat, Gives (.engineEccError e true) (fun s => e < 544 ∧ retiredEngine s e = false ∧ (tfind s.fab.fab.tests (e / 17)).isSome = true)
    (fun s =>
      let t := bump 14 3 (tileCount (e / 17) 6 s)
      setFab { t.fab.fab with testsDue := t.fab.fab.testsDue ++ [e] } t))
  ∧ (∀ (tile : Nat) (slotOk spareOk : Bool) (k : Kat), Gives (.knownAnswerTestDone tile slotOk spareOk)
      (fun s => tfind s.fab.fab.tests tile = some k ∧ usTicks 3 ≤ since s k.since ∧ k.injected = none)
    (fun s => nextFault tile s.fab.fab.testsDue.length (testOutcome tile k slotOk spareOk (setFab { s.fab.fab with tests := tdel s.fab.fab.tests tile } s))))
  ∧ (∀ (g : Nat) (r : Rerun) (t : State), Gives (.rerunComplete g) (fun s => (graphOf s g).rerun = some r
      ∧ t = (if r.reroute then reforward g r (setGraph g { graphOf s g with rerun := none } s)
        else rerunGraph g r (setGraph g { graphOf s g with rerun := none } s)) ∧ (graphOf t g).reruns = [])
    (fun _ => sendAllOutbound t))
  ∧ (∀ (g : Nat) (r q : Rerun) (rest : List Rerun) (t : State), Gives (.rerunComplete g) (fun s => (graphOf s g).rerun = some r
      ∧ t = (if r.reroute then reforward g r (setGraph g { graphOf s g with rerun := none } s)
        else rerunGraph g r (setGraph g { graphOf s g with rerun := none } s)) ∧ (graphOf t g).reruns = q :: rest ∧ (graphOf t g).rerun = none)
    (fun _ => sendAllOutbound (setGraph g { graphOf t g with rerun := some q, reruns := rest } t)))
  ∧ Gives .sprintStart (fun s => atRowBoundary s = true ∧ s.fab.sprint.on = false ∧ sprintWanted s = true ∧ sprintBar s = none)
    (fun s => raise 0x0705 0 0 0 0 (bump 9 1280 (setSprint { s.fab.sprint with
      on := true, since := dcNow s, entries := s.fab.sprint.entries + 1, idleAt := none, mode := sprintMode s.cfg.active, counted := 0 } s)))
  ∧ Gives .sprintStart (fun s => atRowBoundary s = false ∧ s.fab.sprint.on = false ∧ sprintWanted s = true ∧ sprintBar s = none)
    (fun s => setSprint { s.fab.sprint with asked := 1 } s)
  ∧ Gives .sprintEnd (fun s => atRowBoundary s = false ∧ s.fab.sprint.on = true ∧ (sprintCause s).isSome = true)
    (fun s => setSprint { s.fab.sprint with asked := 2 } s)
  ∧ (∀ c : Nat, Gives .sprintEnd (fun s => atRowBoundary s = true ∧ s.fab.sprint.on = true ∧ sprintCause s = some c)
    (fun s =>
      let x := s.fab.sprint
      let t := bumpBy 9 1281 (sprintMs s - x.counted) (setSprint { sprintPast s with lastExit := c } s)
      raise 0x0706 0 c (sprintMs s) 0 (if 2 ≤ c ∧ c ≤ 6 then bump 9 1282 t else t)))

/-- The events of regions and tiles: contexts fetched let a held graph go on (R307); the first region to close is too small, CORE, or emitted (R315);
the first tile is cut when it is ready and its furrows have room, or when its wait is over (R321). -/
def Obligations.RegionAndTileEventsAct : Prop :=
  (∀ g : Nat, Gives (.contextFetchDone g) (fun s => (graphOf s g).held = true ∧ (graphOf s g).run = none)
    (fun s => setGraph g { graphOf s g with held := false } s))
  ∧ (∀ (g k : Nat) (run : Run) (r : InRow) (rest : List InRow) (rows : List Row) (m : RowMeta), Gives (.contextFetchDone g)
      (fun s => (graphOf s g).held = true ∧ (graphOf s g).run = some run ∧ (graphOf s g).inq = r :: rest ∧ (graphOf s g).fwd = []
        ∧ sourceRows run.plan r = some rows ∧ labels run.plan = some k
        ∧ m = metaOf (graphGrid (genImage s r.generation) run.plan) r.generation r.digest rows)
    (fun s =>
      let t := setGraph g { graphOf s g with held := false } s
      touchCache (missingContexts s run.plan k { run with ops := passRow run.plan run.prime m rows run.ops }) t))
  ∧ (∀ (c : Closed) (rest : List Closed), Gives .regionClose (fun s => s.fab.rgn.closing = c :: rest ∧ tooSmall c = true)
    (fun s => sendAllOutbound (bump 10 (c.graph * 16 + 2) (setRgn { s.fab.rgn with closing := rest } s))))
  ∧ (∀ (c : Closed) (rest : List Closed), Gives .regionClose (fun s => s.fab.rgn.closing = c :: rest ∧ tooSmall c = false ∧ noCore c = true)
    (fun s => sendAllOutbound (setRgn { s.fab.rgn with closing := rest } s)))
  ∧ (∀ (c : Closed) (rest : List Closed), Gives .regionClose (fun s => s.fab.rgn.closing = c :: rest ∧ tooSmall c = false ∧ noCore c = false
      ∧ c.target = false)
    (fun s => sendAllOutbound (emitRegion c.start (classify c) (setRgn { s.fab.rgn with closing := rest } s))))
  ∧ (∀ (t : TileCut) (rest : List TileCut), Gives .tileCutStart (fun s => s.fab.rgn.tiles = t :: rest ∧ tileReady s t = true
      ∧ tileHasRoom s t = true)
    (fun s =>
      let a := cutTile t false (setRgn { s.fab.rgn with tiles := rest } s)
      (routesFor a.2 a.1).foldl (fun x e => placeUnit e.1 e.2 a.1 x) a.2))
  ∧ (∀ (t : TileCut) (rest : List TileCut), Gives .tileWaitExpiry (fun s => s.fab.rgn.tiles = t :: rest ∧ tileReady s t = false
      ∧ tileHasRoom s t = true ∧ msTicks (tileWaitMs (posImage s)) ≤ since s s.pos.sp.movedAt)
    (fun s =>
      let a := cutTile t true (setRgn { s.fab.rgn with tiles := rest } s)
      (routesFor a.2 a.1).foldl (fun x e => placeUnit e.1 e.2 a.1 x) a.2))

/-! Delivery -/

/-- The events of the furrows: a doorbell fetches descriptors, faults past its ring or only notes TAIL on a STANDBY furrow (R469); a read of
descriptors puts them to use, a failed one is tried again once and then faults (R341); the oldest unit goes to its routes (R345); a full buffer
is written back (R342); a packed buffer is flushed at its time (R345) and an interrupt raised at its time (R337); an idle row block closes
(R346); a failed burst is written back with its error (R355). -/
def Obligations.FurrowEventsAct : Prop :=
  (∀ fn index tail n : Nat, Gives (.doorbellWrite fn index false tail) (fun s => s.start.blocksUp = true ∧ doorbellFurrow s fn index = some n
      ∧ (furrowOf s n).st = fsRunning ∧ (tail % 2 ^ 32 + 2 ^ 32 - (furrowOf s n).completed) % 2 ^ 32 ≤ ringLen (furrowOf s n))
    (fun s => settleFurrow n (issueFetch n (setFurrow n { furrowOf s n with tail := tail % 2 ^ 32 } s))))
  ∧ (∀ fn index tail n : Nat, Gives (.doorbellWrite fn index false tail) (fun s => s.start.blocksUp = true ∧ doorbellFurrow s fn index = some n
      ∧ (furrowOf s n).st = fsRunning ∧ ringLen (furrowOf s n) < (tail % 2 ^ 32 + 2 ^ 32 - (furrowOf s n).completed) % 2 ^ 32)
    (furrowFault n 3))
  ∧ (∀ fn index tail n : Nat, Gives (.doorbellWrite fn index false tail) (fun s => s.start.blocksUp = true ∧ doorbellFurrow s fn index = some n
      ∧ (furrowOf s n).st = fsStandby) (fun s => setFurrow n { furrowOf s n with tail := tail % 2 ^ 32 } s))
  ∧ (∀ (n : Nat) (b : Bytes) (timeout : Bool) (own : Nat), Gives (.descriptorFetchDone n (some b) timeout)
      (fun s => (furrowOf s n).st = fsRunning ∧ (furrowOf s n).fetching = true ∧ own = (furrowOf s n).asked
        ∧ (∀ i < own, descOwn (fitTo 32 (b.drop (32 * i))) = true))
    (fun s =>
      let ds := (List.range own).map (fun i => fitTo 32 (b.drop (32 * i)))
      let y := { furrowOf s n with
        fetching := false, retried := false, fetched := ((furrowOf s n).fetched + own) % 2 ^ 32, descs := (furrowOf s n).descs ++ ds }
      issueWaiting (issueFetch n (settleFurrow n (setFurrow n y (furrowCount (furrowOf s n) 1 (32 * own) s))))))
  ∧ (∀ (n : Nat) (timeout : Bool), Gives (.descriptorFetchDone n none timeout) (fun s => (furrowOf s n).st = fsRunning
      ∧ (furrowOf s n).fetching = true ∧ (furrowOf s n).retried = true)
    (fun s => issueWaiting (furrowFault n 1 (furrowCount (furrowOf s n) (if timeout then 5 else 6) 1 s))))
  ∧ (∀ (n : Nat) (timeout : Bool), Gives (.descriptorFetchDone n none timeout) (fun s => (furrowOf s n).st = fsRunning
      ∧ (furrowOf s n).fetching = true ∧ (furrowOf s n).retried = false)
    (fun s =>
      let x := furrowOf s n
      furrowCount x 8 1 (readHost x.owner (x.ring + x.fetched % ringLen x * 32) (32 * x.asked)
        (setFurrow n { x with retried := true } (furrowCount x (if timeout then 5 else 6) 1 s)))))
  ∧ (∀ (u : DUnit) (rest : List DUnit), Gives .unitHandoff (fun s => s.handoff = u :: rest)
    (fun s =>
      let t := (staleBlocks s u).foldl (fun t r => closeRowBlock r t) { s with handoff := rest }
      (routesFor t u).foldl (fun v e => if u.src.kind = 1 then routeRow u e v else placeUnit e.1 e.2 u v) t))
  ∧ (∀ (n sub : Nat) (src : Bytes) (b : Buf) (rest : List Buf), Gives (.descriptorWriteback n src sub) (fun s =>
      ((furrowOf s n).st = fsRunning ∨ (furrowOf s n).st = fsFault) ∧ (furrowOf s n).full = b :: rest) (fun s => writeBack n b b.data.length (setFurrow n { furrowOf s n with full := rest } s)))
  ∧ (∀ (n sub : Nat) (src : Bytes), Gives (.descriptorWriteback n src sub) (fun s => (furrowOf s n).st = fsRunning
      ∧ (furrowOf s n).full = [] ∧ ((furrowOf s n).type = 7 ∨ (furrowOf s n).type = 8)) (workDescriptor n src sub))
  ∧ (∀ (n : Nat) (b : Buf), Gives (.packFlush n) (fun s => (furrowOf s n).cur = some b ∧ usTicks (furrowOf s n).flushUs ≤ since s b.firstAt)
    (fun s => settleFurrow n (setFurrow n (closeCur (furrowOf s n)) s)))
  ∧ (∀ n : Nat, Gives (.irqTimer n) (fun s => (furrowOf s n).irqTime ≠ 0 ∧ (furrowOf s n).unsig ≠ 0
      ∧ usTicks (furrowOf s n).irqTime ≤ since s (furrowOf s n).unsigAt) (furrowIrq n))
  ∧ (∀ (r : Nat) (b : RowBlock) (c : RouteCfg), Gives (.rowBlockIdleClose r) (fun s => msTicks 10 ≤ since s s.pos.sp.movedAt
      ∧ tfind s.deliv.blocks r = some b ∧ routeCfg (genImage s b.unit.generation) r = some c)
    (fun s => placeUnit r c b.unit (setBlocks (tdel s.deliv.blocks r) s)))
  ∧ (∀ (n good : Nat) (tail : Bool) (f : BurstFault) (d : Bytes) (ds : List Bytes), Gives (.burstError n good tail f)
      (fun s => (furrowOf s n).st = fsRunning ∧ carriesUnits (furrowOf s n) = false ∧ (furrowOf s n).descs = d :: ds
        ∧ descOk (furrowOf s n).type d = true ∧ f.kind = 0)
    (fun s =>
      let data := if (furrowOf s n).type = 8 then (copyResult d f.src).2.take good else []
      furrowCount (furrowOf s n) 5 1 (writeBack n { desc := d, status := if tail then 0x41 else 0x40, data := data } data.length
        (setFurrow n { furrowOf s n with descs := ds } s))))
  ∧ (∀ (n good : Nat) (tail : Bool) (f : BurstFault) (b : Buf) (rest : List Buf), Gives (.burstError n good tail f)
      (fun s => (furrowOf s n).st = fsRunning ∧ carriesUnits (furrowOf s n) = true ∧ (furrowOf s n).full = b :: rest ∧ b.status = 0
        ∧ (furrowOf s n).cur = none ∧ f.kind = 2)
    (fun s =>
      let z := unfill rest { furrowOf s n with full := [], cur := none }
      settleFurrow n (writeBack n { b with data := b.data.take good, status := if tail then 0x41 else 0x40, units := [] } good
        (setFurrow n { z with queue := againUnits b.units ++ z.queue.filter (fun u => !b.units.any (·.serial == u.serial)) } s))))

/-- The events of ports and functions: a lost port resets its functions and counts, a reset function loses its furrows, requests and registers
(R335), an unmasked vector that is pending is sent (R336), a link that comes up has its rate and width (R329), a write to a port's
configuration space resets the functions that are gone by a smaller NumVFs (R332) or enter D3hot (R335), and sets the sizes and tags of its
requests (R329, R334). -/
def Obligations.FunctionEventsAct : Prop :=
  (∀ (p : Nat) (unacked : List (Nat × Nat)), Gives (.portLoss p unacked) (fun s => p < 2 ∧ 2 ≤ (hostPort s p).link)
    (fun s => (List.range 64).foldl (fun t k => resetFunction (p * 64 + k) unacked t)
      (bump 11 (portIndex p 13) (setHostPort p { upSince := (hostPort s p).upSince } s))))
  ∧ (∀ (fn : Nat) (unacked : List (Nat × Nat)), Gives (.functionReset fn unacked) (fun _ => fn < 128) (resetFunction fn unacked))
  ∧ (∀ (fn v : Nat) (e : MsixEntry), Gives (.msixUnmask fn v) (fun s => e = tget {} s.win.msix (fn * 1024 + v) ∧ v < vectorCount fn ∧ s.start.windowUp = true ∧ tget false s.win.pba (fn * 1024 + v) = true)
    (fun s =>
      let t := { s with win := { s.win with
        msix := tset {} s.win.msix (fn * 1024 + v) { e with masked := false } } }
      sendMsix fn v { t with win := { t.win with pba := tset false t.win.pba (fn * 1024 + v) false } }))
  ∧ (∀ (fn v : Nat) (e : MsixEntry), Gives (.msixUnmask fn v) (fun s => e = tget {} s.win.msix (fn * 1024 + v) ∧ v < vectorCount fn ∧ s.start.windowUp = true ∧ tget false s.win.pba (fn * 1024 + v) = false)
    (fun s => { s with win := { s.win with
      msix := tset {} s.win.msix (fn * 1024 + v) { e with masked := false } } }))
  ∧ (∀ p rate width : Nat, Gives (.portL0Entry p rate width) (fun s => p < 2 ∧ 1 ≤ rate ∧ rate ≤ 6 ∧ 1 ≤ width ∧ width ≤ 16
      ∧ bitOf s.start.perst p = false ∧ s.start.windowUp = true)
    (fun s => setHostPort p { hostPort s p with link := 2, rate := rate, width := width, upSince := dcNow s } s))
  ∧ (∀ (p : Nat) (c : PortControl) (enable : Bool), Gives (.sriovConfigWrite p c enable) (fun _ => p < 2 ∧ c.d3hot < 2 ^ 64)
    (fun s =>
      let x := hostPort s p
      let k := if enable then min 63 c.numVfs else 0
      let gone := (List.range 64).filter (fun j => (decide (k < j) && decide (j ≤ x.numVfs)) || (bitOf c.d3hot j && !bitOf x.d3hot j))
      setHostPort p { x with
        numVfs := k, mps := pciSize 1024 c.mps, mrrs := pciSize 4096 c.mrrs
        tags := if c.tags = 0 then 256 else if c.tags = 1 then 1024 else 2048, d3hot := c.d3hot }
        (gone.foldl (fun t j => resetFunction (p * 64 + j) [] t) s)))
/-! The trellis -/

/-- The events of a trellis' links and of its formation: HELLO is sent every 100 µs and taken from a ring side or a spur, the master forms a trellis
whose wait of 1 s is over, or after 2 s the lowest deputy where no master is heard, and the members follow FORMED (R366); time flits are sent
every 1,024 ticks, never on an auxiliary group (R364), and taken (R367; the 300 µs after which a conflict or a device that is not heard no longer counts are the model's, log entry 112); the master samples its position every 16 ticks, and a position flit is taken (R369). -/
def Obligations.TrellisLinkEventsAct : Prop :=
  Gives .helloSend (fun s => s.trel.st ≠ tsAlone ∧ (∀ t, s.trel.helloAt = some t → usTicks 100 ≤ since s t))
    (fun s =>
      let t := setTrel { s.trel with helloAt := some (dcNow s), conflict := s.trel.conflict && lately s (some s.trel.conflictAt) } s
      tryForm (sendOver (spurLanes t) 1 0xFF 0 0 (helloBody t true) (if s.trel.st = tsManager then t else sendRing 1 0xFF 0 0 (helloBody t false) t)))
  ∧ (∀ (first : Nat) (c : Ctl) (t : State), Gives (.hello first) (fun s => takeControl first 1 s = (some c, t) ∧ c.side = 2)
    (fun _ => spurHello c t))
  ∧ (∀ (first : Nat) (c : Ctl) (t : State), Gives (.hello first) (fun s => takeControl first 1 s = (some c, t) ∧ c.side ≠ 2
      ∧ t.trel.st ≠ tsAlone ∧ t.trel.st ≠ tsManager) (fun _ => ringHello c t))
  ∧ (∀ t : Nat, Gives .formationTimeout (fun s => s.trel.st = tsJoining ∧ s.trel.conflict = false ∧ s.trel.sampleAt = none
      ∧ s.start.trellisRole = 2 ∧ s.trel.firstHello = some t ∧ secTicks 1 ≤ since s t) formTrellis)
  ∧ Gives .formationTimeout (fun s => s.trel.st = tsJoining ∧ s.trel.conflict = false ∧ s.trel.sampleAt = none ∧ s.start.trellisRole = 1
      ∧ secTicks 2 ≤ since s s.trel.joinedAt ∧ (∀ e ∈ s.trel.members, e.1 ≠ ownId s → ¬(e.2.strap = 2 ∧ heardWithin s e.1 (secTicks 2) = true))
      ∧ (∀ d ∈ presentMembers s, ¬(d < ownId s ∧ (memberOf s d).strap = 1))) formTrellis
  ∧ (∀ (first : Nat) (c : Ctl) (t : State), Gives (.formed first) (fun s => takeControl first 2 s = (some c, t) ∧ c.side ≠ 2
      ∧ bitOf (fld c.body 1 2) (ownId t) = true ∧ t.trel.conflict = false ∧ t.trel.st = tsJoining)
    (fun _ => setTrel { t.trel with
      st := tsMember, master := c.src, epoch := max t.trel.epoch (memberOf t c.src).roleEpoch, ring := fld c.body 1 2
      members := t.trel.members.map (fun e => (e.1, { e.2 with lost := !bitOf (fld c.body 1 2) e.1 }))
      lag := lagUnits (fld c.body 3 4), sampleAt := some (t.trel.sampleAt.getD (dcNow t)), masterHeardAt := some (dcNow t) } t))
  ∧ (∀ first sub : Nat, Gives (.timeFlitSend first sub) (fun s => isAux s first = true) (fun s => s))
  ∧ (∀ first sub : Nat, Gives (.timeFlitSend first sub) (fun s => graftUp s first = true ∧ isAux s first = false
      ∧ (∀ e, (linkOf s first).sent.head? = some e → 1024 ≤ since s e.2.1))
    (fun s =>
      let l := linkOf s first
      let h := l.heard.getD (0xFFFF, 0, 0)
      flitTo first 2 (leBytes 1 (sideOf first) ++ leBytes 1 (ownId s) ++ leBytes 2 l.txSeq ++ leBytes 2 h.1 ++ zeros 2 ++ leBytes 8 (dcNow s)
        ++ leBytes 1 sub ++ zeros 7 ++ leBytes 8 h.2.1 ++ leBytes 1 h.2.2 ++ zeros 7)
        (setLink first { l with txSeq := (l.txSeq + 1) % 65536, sent := ((l.txSeq, dcNow s, sub % 256) :: l.sent).take 64 } s)))
  ∧ (∀ (first rxDc rxSub : Nat) (b : Bytes) (t : State), Gives (.timeFlit first rxDc rxSub) (fun s => popFlit first 2 s = some (b, t)
      ∧ fld b 4 2 = 0xFFFF)
    (fun s => markHeard (sideOf first) (fld b 1 1) (setLink first { linkOf t first with
      heard := some (fld b 2 2, rxDc, rxSub % 256), partner := some (fld b 1 1), lastHeard := some (dcNow s) } t)))
  ∧ Gives .positionSample (fun s => s.trel.st = tsMaster ∧ s.trel.attached = false ∧ (∀ t, s.trel.sampleAt = some t → 16 ≤ since s t))
    (fun s => originate (ownSample s) s)
  ∧ (∀ (first : Nat) (b : Bytes) (t : State), Gives (.positionFlit first) (fun s => popFlit first 1 s = some (b, t) ∧ fld b 0 1 ≠ 1
      ∧ sideOf first ≠ 2) (fun _ => ringPosition first b t))
  ∧ (∀ (first : Nat) (b : Bytes) (t : State), Gives (.positionFlit first) (fun s => popFlit first 1 s = some (b, t) ∧ fld b 0 1 = 1
      ∧ sideOf first = 2) (fun _ => estatePosition first b t))

/-- What becomes of a trellis that loses its master, a member or its estate: positions go stale after 2 µs and a member is isolated after its
holdover (R369); a deputy claims the role of a silent master, 10 µs for each deputy below it, a newer epoch is followed, a silent member is
lost (R375; who is present is the model's, log entry 112); a handover is taken by the healthy deputy it names (R376); an estate that is silent is detached (R380). -/
def Obligations.TrellisRoleEventsAct : Prop :=
  (∀ t : Nat, Gives .posStale (fun s => dependsOn s = some t ∧ s.trel.posStale = false ∧ usTicks 2 ≤ since s t)
    (fun s => bump 12 9 (setTrel { s.trel with
      posStale := true, staleFrom := match s.trel.samples with | k :: _ => k.at' | [] => 0 } s)))
  ∧ (∀ t : Nat, Gives .isolated (fun s => s.trel.sampleAt = some t ∧ s.trel.st = tsMember ∧ usTicks (holdoverUs s) ≤ since s t)
    (fun s => raise 0x0A03 3 0 s.pos.sp.pos 0 (bump 12 10 (trelUpdate (setTrel { s.trel with
      st := tsIsolated, frozen := some s.pos.sp.pos, samples := [], absorb := 0, absorbTravel := 0 } s)))))
  ∧ (∀ (t : Nat) (lower : State → Nat), Gives .masterLost (fun s => s.trel.masterHeardAt = some t ∧ s.trel.st = tsMember ∧ mayLead s = true
      ∧ channelHealthy s = true ∧ lower s = ((presentMembers s).filter (fun d => decide (d < ownId s) && d != s.trel.master
        && ((memberOf s d).strap == 1 || (memberOf s d).strap == 2))).length ∧ usTicks (10 * (lower s + 1)) ≤ since s t)
    (fun s => claimRole (degradeSinceMaster s)))
  ∧ (∀ (first : Nat) (c : Ctl) (t : State), Gives (.roleClaim first) (fun s => takeControl first 3 s = (some c, t) ∧ c.side ≠ 2)
    (fun _ => adoptMaster (fld c.body 0 2) c.src t))
  ∧ (∀ (first : Nat) (c : Ctl) (t : State), Gives (.handover first) (fun s => takeControl first 4 s = (some c, t) ∧ c.side ≠ 2
      ∧ c.src = t.trel.master ∧ fld c.body 0 1 = ownId t ∧ t.trel.st = tsMember ∧ mayLead t = true ∧ channelHealthy t = true)
    (fun _ => claimRole t))
  ∧ (∀ (d : Nat) (i : Identity), Gives (.memberLost d) (fun s => formed s = true ∧ d ≠ ownId s ∧ bitOf s.trel.ring d = true
      ∧ (memberOf s d).lost = false ∧ (∀ t, (memberOf s d).heardEast = some t → usTicks 10 ≤ since s t)
      ∧ (∀ t, (memberOf s d).heardWest = some t → usTicks 10 ≤ since s t) ∧ s.trel.identity = some i)
    (fun s => raise 0x0A06 3 (i.trellis + d * 256) 0 0 (setMember d { memberOf s d with lost := true }
      (setTrel { s.trel with ring := s.trel.ring - 2 ^ d } s))))
  ∧ (∀ (t : Nat) (i : Identity), Gives .estateDetached (fun s => s.trel.estateAt = some t ∧ s.trel.st = tsMaster ∧ s.trel.attached = true
      ∧ usTicks (holdoverUs s) ≤ since s t ∧ s.trel.identity = some i)
    (fun s => raise 0x0A07 3 i.trellis 0 0 (setTrel { s.trel with
      attached := false, detached := true, lag := computedLag s, estateAbsorb := 0, slipFrom := none } (rebaseHere s))))

/-- The two-phase commit of a trellis and its digests: a member holds a PREPARE and answers PREPARED, once for the two copies of a closed ring, arms on COMMIT and lets go on ABORT; the
coordinator takes PREPARED, ARMED and APPLIED, which the other members note for the graphs that they share (R383; that it is sent to them is the model's, log entry 111), aborts after 20 ms without an answer, repeats COMMIT each 1 ms to those that have not armed and
are not near P_c, and ends with the members that did not apply diverged (R381); a PREPARE is held 100 ms (R384); a sweep asks for the digests
every 100 ms (R385). -/
def Obligations.TrellisCommitEventsAct : Prop :=
  (∀ (first : Nat) (c : Ctl) (t : State), Gives (.prepare first) (fun s => takeControl first 5 s = (some c, t) ∧ formed t = true ∧ c.side ≠ 2
      ∧ c.src = t.trel.master ∧ t.start.w1Running = false ∧ preparedFor c.id c.src t = false)
    (fun _ =>
      let r := holdPrepare c.id c.scope c.src (fld c.body 0 1) (sfld c.body 1 8) t
      sendAnswer 6 c.scope c.id (preparedBytes r.1 (sha256 (stagedCanon t))) r.2))
  ∧ (∀ (first : Nat) (c : Ctl) (t : State), Gives (.prepare first) (fun s => takeControl first 5 s = (some c, t) ∧ formed t = true ∧ c.side ≠ 2
      ∧ c.src = t.trel.master ∧ preparedFor c.id c.src t = true) (fun _ => t))
  ∧ (∀ (first : Nat) (c : Ctl) (t : State), Gives (.prepared first) (fun s => takeControl first 6 s = (some c, t) ∧ t.trel.st = tsMaster
      ∧ c.side ≠ 2 ∧ c.scope ≠ 1)
    (fun _ => takePrepared c.src c.id ⟨fld c.body 0 2, fld c.body 2 2, fld c.body 4 2, fld c.body 6 4, fld c.body 10 4⟩ t))
  ∧ (∀ (t : TwoPhase) (k : Nat), Gives .prepareTimeout (fun s => s.trel.coord = some t
      ∧ t.members.find? (fun k => (tfind t.answers k).isNone) = some k ∧ t.pc = none ∧ msTicks 20 ≤ since s t.startedAt)
    (fun s => coordAbort 0x42 (refusedBytes s k ⟨stTimeout, 0, stTimeout, 0, 0⟩) s))
  ∧ (∀ (first : Nat) (c : Ctl) (t : State), Gives (.commit first) (fun s => takeControl first 7 s = (some c, t) ∧ formed t = true ∧ c.side ≠ 2
      ∧ c.src = t.trel.master) (fun _ => takeCommit c.id c.scope (sfld c.body 0 8) t))
  ∧ (∀ (t : TwoPhase) (pc : Int), Gives .commitRepeat (fun s => s.trel.coord = some t ∧ t.pc = some pc ∧ msTicks 1 ≤ since s t.repeatAt)
    (fun s => (t.members.filter (fun k => !t.armed.contains k && !t.applied.contains k && !t.missed.contains k
        && !decide ((pc : Rat) ≤ (memberPosition s k : Rat) + travelOver (max (spinSpeed s) 0) (lagTicks s)))).foldl
      (fun u k => sendDown 7 (some k) t.id (leInt 8 pc) u) (setTrel { s.trel with coord := some { t with repeatAt := dcNow s } } s)))
  ∧ (∀ (first : Nat) (c : Ctl) (t : State), Gives (.armed first) (fun s => takeControl first 8 s = (some c, t) ∧ t.trel.st = tsMaster
      ∧ c.side ≠ 2 ∧ c.scope ≠ 1) (fun _ => takeArmed c.src c.id t))
  ∧ (∀ (first : Nat) (c : Ctl) (t : State), Gives (.abort first) (fun s => takeControl first 9 s = (some c, t) ∧ formed t = true ∧ c.side ≠ 2
      ∧ c.src = t.trel.master) (fun _ => takeAbort c.id t))
  ∧ (∀ x : Prep, Gives .prepareHoldExpiry (fun s => s.trel.prep = some x ∧ msTicks 100 ≤ since s x.since)
    (fun s => setTrel { s.trel with prep := none, phase := 5 } s))
  ∧ (∀ (first : Nat) (c : Ctl) (t : State), Gives (.applied first) (fun s => takeControl first 10 s = (some c, t) ∧ t.trel.st = tsMaster
      ∧ c.side ≠ 2 ∧ c.scope ≠ 1) (fun _ => takeApplied c.src c.id (fld c.body 0 4) (fld c.body 4 1) t))
  ∧ (∀ (first : Nat) (c : Ctl) (t : State), Gives (.applied first) (fun s => takeControl first 10 s = (some c, t) ∧ t.trel.st = tsMember
      ∧ c.side ≠ 2) (fun _ => noteOutcome c.src (fld c.body 4 1) t))
  ∧ (∀ (t : TwoPhase) (u : Nat), Gives .commitPartialTimeout (fun s => s.trel.coord = some t ∧ t.passedAt = some u ∧ msTicks 100 ≤ since s u)
    (fun s => coordEnd 0x43 (partialBytes s t) ((t.members.filter (fun k => !t.applied.contains k)).foldl
      (fun v k => setMember k { memberOf v k with diverged := true } v) s)))
  ∧ Gives .digestSweep (fun s => coordinates s = true ∧ s.trel.attached = false ∧ (∀ t, s.trel.sweepAt = some t → msTicks 100 ≤ since s t))
    (fun s =>
      let t := if s.trel.sweepAt.isSome = true then closeSweep s else s
      let u := sendDown 11 none 0 (leBytes 4 (s.trel.sweep + 1)) (setTrel { t.trel with
        sweep := s.trel.sweep + 1, sweepAt := some (dcNow s), answered := [] } t)
      if s.trel.st = tsMaster then readDigest (ownId s) (digestBody u) u else u)
  ∧ (∀ (first : Nat) (c : Ctl) (t : State), Gives (.digestReq first) (fun s => takeControl first 11 s = (some c, t) ∧ formed t = true ∧ c.side ≠ 2
      ∧ c.src = t.trel.master) (fun _ => sendAnswer 12 c.scope 0 (digestBody t) t))
  ∧ (∀ (first : Nat) (c : Ctl) (t : State), Gives (.digest first) (fun s => takeControl first 12 s = (some c, t) ∧ t.trel.st = tsMaster
      ∧ c.side ≠ 2 ∧ c.scope ≠ 1) (fun _ => readDigest c.src c.body t))
/-! Starts -/

/-- The events that lead to a start: RST_N low takes the device to its fresh state, its release makes a cold start due, PERST low takes its port down
(R390); a brown-out (R389) or an unlocked root PLL (R393) makes a cold start due; a watchdog that is not served makes a start due (R397); a
start that goes through is booked after 10 s (R402); a heartbeat of 1 ms counts (R467) and serves the watchdog; kept lane values are dropped
after 60 s (R400). -/
def Obligations.StartCausesAct : Prop :=
  Gives .rstNAssert (fun _ => True) (fun s => setStart { (freshState s).start with rstLow := true } (freshState s))
  ∧ (∀ (role : Nat) (boot test : Bool), Gives (.rstNRelease role boot test) (fun s => s.start.rstLow = true ∧ s.start.held = false)
    (fun s => fallDue 0 0 none (setStart { s.start with
      rstLow := false, trellisRole := role % 4, bootSel := boot, testEn := test, latched := true } s)))
  ∧ (∀ (p : Nat) (unacked : List (Nat × Nat)), Gives (.perst p true unacked) (fun s => p < 2 ∧ bitOf s.start.perst p = false
      ∧ 2 ≤ (hostPort s p).link) (fun s => portLoss p unacked (setStart { s.start with perst := s.start.perst + 2 ^ p } s)))
  ∧ (∀ (p : Nat) (unacked : List (Nat × Nat)), Gives (.perst p true unacked) (fun s => p < 2 ∧ bitOf s.start.perst p = false
      ∧ (hostPort s p).link < 2)
    (fun s => setHostPort p { upSince := (hostPort s p).upSince } (setStart { s.start with perst := s.start.perst + 2 ^ p } s)))
  ∧ (∀ (p : Nat) (unacked : List (Nat × Nat)), Gives (.perst p false unacked) (fun s => p < 2 ∧ bitOf s.start.perst p = true)
    (fun s => setHostPort p { hostPort s p with link := 1 } (setStart { s.start with perst := s.start.perst - 2 ^ p } s)))
  ∧ Gives .brownOut (fun s => s.start.rstLow = false) (fun s => fallDue 0 1 none (freshState s))
  ∧ Gives .rootPllUnlock (fun s => s.start.rstLow = false) (fun s => fallDue 0 2 none (freshState s))
  ∧ Gives .watchdog (fun s => s.mbx.answering = true ∧ s.start.safe = false ∧ s.start.due = none ∧ msTicks 100 ≤ since s s.start.watchdogAt)
    (fun s => watchdogStart (setStart { s.start with idleSince := none, injected := s.start.watchdogStopped } s))
  ∧ (∀ t : Nat, Gives .startSuccess (fun s => s.start.idleSince = some t ∧ s.start.succeeded = false ∧ secTicks 10 ≤ since s t)
    (fun s => setStart { s.start with succeeded := true, coldFails := 0, w2Fails := 0, w1Failed := false, fromSafe := false } s))
  ∧ Gives .heartbeatTick (fun s => s.mbx.answering = true ∧ msTicks 1 ≤ since s s.start.lastHeartbeat)
    (fun s => setStart { s.start with
      heartbeat := (s.start.heartbeat + 1) % 2 ^ 32, lastHeartbeat := (s.start.lastHeartbeat + msTicks 1) % 2 ^ 64
      watchdogAt := if s.start.watchdogStopped then s.start.watchdogAt else dcNow s } s)
  ∧ (∀ t : Nat, Gives .keptLaneValuesExpiry (fun s => s.start.keptAt = some t ∧ secTicks 60 ≤ since s t)
    (fun s => { s with lane := { s.lane with lanes := s.lane.lanes.map (fun e => (e.1, { e.2 with kept := none })) } }))

/-- The starts: a cold start with BOOT_SEL enters the safe state, and one with a sound image comes to its end (R398); a device warm start with a
valid image and at most one marked stack comes to its end (R399); a control warm start begins and ends (R401); a failed start is booked and the
next is due (R402). -/
def Obligations.StartsAct : Prop :=
  (∀ (f : ColdFacts) (d : DueStart) (t : State), Gives (.coldStart f) (fun s => s.start.due = some d ∧ d.kind = 0 ∧ s.start.rstLow = false
      ∧ s.start.held = false ∧ s.start.latched = true ∧ (freshState s).start.bootSel = true ∧ t = { freshState s with
        start := { (freshState s).start with
          kind := 0, cause := d.cause, startDc := 0, durationMs := f.ms, windowUp := true, coldCount := (freshState s).start.coldCount + 1 }
        time := { dc := f.dc } }) (fun _ => enterSafe 3 4 (f.flash.foldl (fun u e => flashByte e.1 e.2.1 e.2.2 u) t)))
  ∧ (∀ (f : ColdFacts) (d : DueStart) (n : Nat) (rest : List Nat) (t u : State), Gives (.coldStart f) (fun s => s.start.due = some d
      ∧ d.kind = 0 ∧ s.start.rstLow = false ∧ s.start.held = false ∧ s.start.latched = true ∧ (freshState s).start.bootSel = false
      ∧ (freshState s).start.testEn = false ∧ t = { freshState s with
        start := { (freshState s).start with
          kind := 0, cause := d.cause, startDc := 0, durationMs := f.ms, windowUp := true, coldCount := (freshState s).start.coldCount + 1 }
        time := { dc := f.dc } } ∧ u = f.flash.foldl (fun u e => flashByte e.1 e.2.1 e.2.2 u) t ∧ bootOrder u d.slot = n :: rest)
    (fun _ => coldFinish f n u))
  ∧ (∀ (f : WarmFacts) (d : DueStart) (n : Nat) (t : State), Gives (.deviceWarmStart f) (fun s => s.start.due = some d ∧ d.kind = 1
      ∧ s.start.rstLow = false ∧ s.start.held = false ∧ t = setStart { (warmBegin s).start with kind := 1, cause := d.cause } (warmBegin s)
      ∧ dueSlot d t = some n ∧ slotValid t n = true ∧ (setBits 4 (stacksMarked t)).length < 2) (fun _ => warmFinish f n t))
  ∧ (∀ (ms : Nat) (d : DueStart), Gives (.controlWarmStart ms) (fun s => s.start.due = some d ∧ d.kind = 2 ∧ s.start.rstLow = false
      ∧ s.start.held = false ∧ s.start.w1Running = false) (controlBegin d))
  ∧ (∀ (ms : Nat) (d : DueStart), Gives (.controlWarmStart ms) (fun s => s.start.due = some d ∧ d.kind = 2 ∧ s.start.rstLow = false
      ∧ s.start.held = false ∧ s.start.w1Running = true) (controlFinish d ms))
  ∧ (∀ (stage : Nat) (d : DueStart), Gives (.startFailure stage) (fun s => s.start.due = some d ∧ s.start.rstLow = false ∧ s.start.held = false)
    (fun s => failStart d.kind d.cause stage (dueMs s) (dueSlot d s) (failBegin d s)))

/-! Calibration, faults and temperature -/

/-- The events of calibration: readings are taken every 100 ms (R410); a waiting trim is applied (R408); a target that falls due starts when its
window is open, a lane while at most 8 run and no lower lane of its quad or its Graft group may start (R411, R412; the order of the numbers is
the model's, log entry 72); a run that has had its time is finished (R414); a trim that waits 100 ms is deferred (R21); a twin takes over in a
gap (R413; not while the idle one calibrates, log entry 117); the field sets are stored, or the store fails (R415). -/
def Obligations.CalibrationEventsAct : Prop :=
  (∀ readings : List (Nat × Int), Gives (.trimRecompute readings) (fun s => msTicks 100 ≤ since s s.cal.recomputeAt)
    (fun s => (readings.filter (fun e => calTargets.contains e.1)).foldl (fun t e => calReading e.1 e.2 t)
      { s with cal := { s.cal with recomputeAt := dcNow s } }))
  ∧ (∀ k : Nat, Gives (.trimApply k) (fun s => (calTarget s k).waiting.isSome = true ∧ s.start.w1Running = false
      ∧ (k / 256 = calLane ∨ k / 256 = calTdc))
    (fun s => calApply k (if (calTarget s k).reanchor = true ∧ k / 256 = calLane then modLane k (fun y => { y with reanchor := true }) s else s)))
  ∧ (∀ (k : Nat) (t : State), Gives (.calibrationDue k) (fun s => calTargets.contains k = true ∧ (calTarget s k).running = none
      ∧ t = (if (calTarget s k).due = false ∧ calFallsDue s k = true then setCal k { calTarget s k with due := true } s else s)
      ∧ (k / 256 = calLane →
        ((List.range 64).filter (fun j => (calTarget t j).running.isSome)).length + ((List.range k).filter (calMayStart t)).length < 8
        ∧ ∀ j < k, (quadTarget j = quadTarget k
          ∨ (laneOf s j).set.mode = modeGraft ∧ (laneOf s j).set.first = (laneOf s k).set.first) → calMayStart t j = false)
      ∧ calMayStart t k = true) (fun s => calStart k ((calTarget s k).waits.any (·.force)) t))
  ∧ (∀ (k t : Nat) (runs : CalRuns), Gives (.calibrationRunDone k runs) (fun s => (calTarget s k).running = some t
      ∧ usTicks (calTime k (calResult k runs).2) ≤ since s t) (calFinish k runs))
  ∧ (∀ k : Nat, Gives (.calDeferred k) (fun s => (calTarget s k).waiting.isSome = true ∧ (calTarget s k).deferred = false
      ∧ msTicks 100 ≤ since s (calTarget s k).waitSince)
    (fun s => raise 0x0B04 1 (calObject k) 0 0 (bump 13 1026 (setCal k { calTarget s k with deferred := true } s))))
  ∧ (∀ k : Nat, Gives (.twinSwap k) (fun s => (calTarget s k).waiting.isSome = true ∧ (calTarget s k).running = none
      ∧ s.start.w1Running = false ∧ (k / 256 = calTrg ∨ k / 256 = calPps) ∧ twinGap k s = true)
    (fun s => calApply k (setCal k { calTarget s k with twin := 1 - (calTarget s k).twin, idle := (calTarget s k).active } s)))
  ∧ (∀ m : Nat, Gives (.calSlotStore true) (fun s => s.start.windowUp = true ∧ s.cal.storeTicket = none ∧ s.cal.storeDue = true
      ∧ (∀ t, s.cal.storedAt = some t → secTicks 60 ≤ since s t) ∧ calNewer s = some m)
    (fun s => bump 13 1024 { s with cal := { s.cal with
      slots := tset [] s.cal.slots (if m = 0 then 1 else 0) (slotBytes ((calSequence (calSlot s m) + 1) % 2 ^ 32) (heldFields s))
      storeDue := false, storedAt := some (dcNow s), storeTicket := none } }))
  ∧ (∀ (n : Nat) (x : Bytes × Bytes), Gives (.calSlotStore false) (fun s => s.start.windowUp = true ∧ s.cal.storeTicket = none ∧ s.cal.storeDue = true
      ∧ (∀ t, s.cal.storedAt = some t → secTicks 60 ≤ since s t) ∧ n = (if calNewer s = some 0 then 1 else 0)
      ∧ x = slotParts ((match calNewer s with | some m => calSequence (calSlot s m) + 1 | none => 1) % 2 ^ 32) (heldFields s))
    (fun s => raise 0x0B02 2 n 0 0 (bump 13 1025 { s with cal := { s.cal with
      slots := tset [] s.cal.slots n (x.1 ++ List.replicate 4 0xFF ++ x.2), storeDue := true, storedAt := some (dcNow s), storeTicket := none } })))

/-- The events of faults and temperatures: an uncorrectable word of the on-chip memory has its consequences, a scrub counts what it corrected once a
day (R421); a failed HBM channel, the fourth uncorrectable error of a channel within 1 s, and a failed stack have theirs (R422); a sample of the
temperatures enters and leaves the thermal states, a trip at 115 °C holds the device in reset (R423); suppressed events are reported once a
second (R428); sticky bits and the peak are cleared (R429). -/
def Obligations.FaultEventsAct : Prop :=
  (∀ memory i g : Nat, Gives (.sramUncorrectable memory i g) (fun _ => memory ≤ 4) (sramLost memory i g false))
  ∧ (∀ stack ch : Nat, Gives (.hbmChannelFailed stack ch 0) (fun _ => stack < 4 ∧ ch < 16) (failChannel stack ch))
  ∧ (∀ (stack ch : Nat) (recent : List Nat), Gives (.hbmChannelFailed stack ch 1) (fun s => stack < 4 ∧ ch < 16
      ∧ recent = (tget [] s.fault.uncorrectable (stack * 16 + ch)).filter (fun t => decide (since s t < secTicks 1)))
    (fun s =>
      let t := bump 14 (16 + stack * 4 + 1) (bump 14 1 (setFault { s.fault with
        uncorrectable := tset [] s.fault.uncorrectable (stack * 16 + ch) ((dcNow s :: recent).take 4) } s))
      if 3 ≤ recent.length then failChannel stack ch t else t))
  ∧ (∀ stack ch : Nat, Gives (.hbmChannelFailed stack ch 2) (fun _ => stack < 4 ∧ ch < 16) (failStack stack))
  ∧ (∀ corrected : List Nat, Gives (.scrub corrected) (fun s => secTicks 86400 ≤ since s s.fault.scrubAt)
    (fun s => countCorrected corrected (setFault { s.fault with scrubAt := dcNow s } s)))
  ∧ (∀ (now : List Int) (power : Nat) (tick : State → Bool), Gives (.thermalSample now power) (fun s => s.start.held = false ∧ s.start.rstLow = false
      ∧ now.length = 7 ∧ (∀ t, s.fault.sampledAt = some t → msTicks 1 ≤ since s t)
      ∧ tick s = (s.fault.history.isEmpty || decide (secTicks 1 ≤ since s s.fault.historyAt)))
    (fun s =>
      let t := setFault { s.fault with
        before := s.fault.temps, temps := now, power := power, sampledAt := some (dcNow s)
        history := if tick s then (now :: s.fault.history).take 3600 else s.fault.history
        historyAt := if tick s then dcNow s else s.fault.historyAt
        hotSeconds := if tick s && decide (1600 < dieMax now) then s.fault.hotSeconds + 1 else s.fault.hotSeconds } s
      let peak := (match s.ev.tjPeak with | some p => max p (dieMax now) | none => dieMax now)
      let u := thermalEnter s.fault.temps now (thermalLeave now { t with ev := { t.ev with tjPeak := some peak } })
      setFault { u.fault with alert := u.fault.warn || u.fault.throttle || u.fault.stop } u))
  ∧ (∀ (now : List Int) (power : Nat), Gives (.thermalSample now power) (fun s => s.start.held = true ∧ dieMax now < 1520)
    (fun s => fallDue 0 0 none { s with start := { s.start with held := false } }))
  ∧ (∀ temp : Int, Gives (.thermalTrip temp) (fun s => 1840 ≤ temp ∧ s.start.held = false)
    (fun s => setStart { (freshState s).start with held := true, rstLow := s.start.rstLow } (freshState s)))
  ∧ Gives .eventsSuppressed (fun s => secTicks 1 ≤ since s s.ev.secondStart)
    (fun s => (s.ev.second.filter (fun e => decide (eventLimit < e.2))).foldl (fun t e => raise 0x0E02 1 e.1 (e.2 - eventLimit : Nat) 0 t)
      { s with ev := { s.ev with second := [], secondStart := dcNow s } })
  ∧ (∀ fn mask : Nat, Gives (.faultStickyClear fn mask) (fun s => fnIsPf fn = true ∧ s.start.windowUp = true)
    (fun s => { s with ev := { s.ev with sticky := s.ev.sticky ^^^ (s.ev.sticky &&& mask) } }))
  ∧ (∀ fn : Nat, Gives (.tjPeakRead fn) (fun s => fnIsPf fn = true ∧ s.start.windowUp = true)
    (fun s => { s with ev := { s.ev with tjPeak := none } }))

/-! The register window, SMBus and JTAG -/

/-- The side band and the test port: SMBus answers each command with its data and, when asked, the PEC, and does not acknowledge a command it does not
know (R461); the test port scans its registers (R442). Nothing else changes. -/
def Obligations.SideBandAnswers : Prop :=
  (∀ (k : Nat) (pec : Bool), Gives (.smbReadTemperature k pec) (fun s => k ≤ 6 ∧ s.start.windowUp = true)
    (fun s => emit (.smbus (smbAnswer k (leInt 2 ((s.fault.temps[k]?).getD (Config.firstTemp k))) pec)) s))
  ∧ (∀ pec : Bool, Gives (.smbReadThermalStep pec) (fun s => s.start.windowUp = true)
    (fun s => emit (.smbus (smbAnswer 0x10 (leBytes 1 (thermalStep s)) pec)) s))
  ∧ (∀ pec : Bool, Gives (.smbReadPower pec) (fun s => s.start.windowUp = true)
    (fun s => emit (.smbus (smbAnswer 0x11 (leBytes 2 (if s.fault.sampledAt.isSome then s.fault.power else Config.firstPower)) pec)) s))
  ∧ (∀ pec : Bool, Gives (.smbReadStatus pec) (fun s => s.start.windowUp = true) (fun s => emit (.smbus (smbAnswer 0x12
    (leBytes 1 (b2n s.fab.sprint.on + 2 * b2n s.start.safe + 4 * b2n (coverageReduced s))) pec)) s))
  ∧ (∀ pec : Bool, Gives (.smbReadDeviceId pec) (fun s => s.start.windowUp = true) (emit (.smbus (smbAnswer 0x20 (leBytes 2 0x4816) pec))))
  ∧ (∀ pec : Bool, Gives (.smbReadStepping pec) (fun s => s.start.windowUp = true) (emit (.smbus (smbAnswer 0x21 (leBytes 1 0xB1) pec))))
  ∧ Gives .smbAlertResponse (fun s => s.start.windowUp = true) (emit (.smbus (leBytes 1 smbAddress)))
  ∧ (∀ code : Nat, Gives (.smbUnknownCommand code) (fun s => smbKnown code = false ∧ s.start.windowUp = true) (emit (.smbus [])))
  ∧ (∀ tdi : List Bool, Gives (.jtagTapAccess 0 tdi) (fun _ => True) (fun s => setStart { s.start with tapId := true } s))
  ∧ (∀ tdi : List Bool, Gives (.jtagTapAccess 1 tdi) (fun _ => True) (fun s => emit (.tdo Config.tapCapture) (setStart { s.start with tapId := true } s)))
  ∧ (∀ tdi : List Bool, Gives (.jtagTapAccess 2 tdi) (fun _ => True) (fun s => emit (.tdo Config.tapCapture) (setStart { s.start with tapId := false } s)))
  ∧ (∀ tdi : List Bool, Gives (.jtagTapAccess 3 tdi) (fun s => s.start.tapId = true) (emit (.tdo ((idcodeBits ++ tdi).take tdi.length))))
  ∧ (∀ tdi : List Bool, Gives (.jtagTapAccess 3 tdi) (fun s => s.start.tapId = false) (emit (.tdo ((false :: tdi).take tdi.length))))

/-- The register window: a read of DC_LO by a PF latches DC_HI (R466); a 1 written to INT_CAUSE or MBOX_DONE clears its bit (R468); a write of four
aligned bytes goes to its register, one of eight to two, the lower first (R464). -/
def Obligations.WindowAccessesAct : Prop :=
  (∀ fn : Nat, Gives (.dcLoRead fn) (fun s => s.start.windowUp = true ∧ fnExists s fn = true ∧ fnIsPf fn = true)
    (fun s => setFnRegs fn { fnRegs s fn with dcHi := dcNow s / 2 ^ 32 % 2 ^ 32 } s))
  ∧ (∀ fn mask : Nat, Gives (.intCauseClear fn mask) (fun s => s.start.windowUp = true ∧ fnExists s fn = true)
    (fun s => setFnRegs fn { fnRegs s fn with cause := (fnRegs s fn).cause ^^^ ((fnRegs s fn).cause &&& mask % 2 ^ 32) } s))
  ∧ (∀ (fn mask : Nat) (high : Bool), Gives (.mboxDoneClear fn high mask) (fun s => s.start.windowUp = true ∧ fnExists s fn = true)
    (fun s => setFnRegs fn { fnRegs s fn with
      mboxDone := (fnRegs s fn).mboxDone ^^^ ((fnRegs s fn).mboxDone &&& (if high then mask % 2 ^ 32 * 2 ^ 32 else mask % 2 ^ 32)) } s))
  ∧ (∀ fn bar off data : Nat, Gives (.registerWrite fn bar off 4 data) (fun s => s.start.windowUp = true ∧ fnExists s fn = true ∧ off % 4 = 0)
    (write4 fn bar off (data % 2 ^ 32)))
  ∧ (∀ fn bar off data : Nat, Gives (.registerWrite fn bar off 8 data) (fun s => s.start.windowUp = true ∧ fnExists s fn = true ∧ off % 8 = 0)
    (fun s => write4 fn bar (off + 4) (data / 2 ^ 32 % 2 ^ 32) (write4 fn bar off (data % 2 ^ 32) s)))
end

