-- ==== Sys2Proof/Laws/Tables.lean ====
section
/-! SUPPORT. The laws of the sparse tables State is made of: what a key reads after a change, and that every change keeps the canonical
form. -/

namespace Sys2Proof.Machine

variable {α : Type}

/-- Keys of a table whose first key is above a bound. -/
def Tab.above (b : Nat) (t : Tab α) : Prop := ∀ e ∈ t, b < e.1

theorem Tab.sorted_cons {k : Nat} {v : α} {t : Tab α} : Tab.sorted ((k, v) :: t) = true ↔ Tab.above k t ∧ Tab.sorted t = true := by
  induction t generalizing k v with
  | nil => simp [Tab.sorted, Tab.above]
  | cons e t ih =>
    obtain ⟨k', v'⟩ := e
    simp only [Tab.sorted, Bool.and_eq_true, decide_eq_true_eq, Tab.above, List.mem_cons, forall_eq_or_imp]
    constructor
    · rintro ⟨h, hs⟩
      exact ⟨⟨h, fun e he => Nat.lt_trans h ((ih.mp hs).1 e he)⟩, hs⟩
    · rintro ⟨⟨h, _⟩, hs⟩
      exact ⟨h, hs⟩

theorem tfind_above {b q : Nat} {t : Tab α} (h : Tab.above b t) (hq : q ≤ b) : tfind t q = none := by
  cases t with
  | nil => rfl
  | cons e t =>
    obtain ⟨k, v⟩ := e
    have := h (k, v) List.mem_cons_self
    simp only at this
    simp [tfind, show ¬ q = k by omega, show q < k by omega]

@[simp] theorem tfind_nil (q : Nat) : tfind ([] : Tab α) q = none := rfl

@[simp] theorem tfind_tput_self (t : Tab α) (q : Nat) (x : α) : tfind (tput t q x) q = some x := by
  induction t with
  | nil => simp [tput, tfind]
  | cons e t ih =>
    obtain ⟨k, v⟩ := e
    simp only [tput]
    split
    · simp [tfind]
    · split
      · simp [tfind, *]
      · simp [tfind, *]

theorem tfind_tput_ne (t : Tab α) {q r : Nat} (x : α) (h : r ≠ q) : tfind (tput t q x) r = tfind t r := by
  induction t with
  | nil =>
    simp only [tput, tfind, h, ↓reduceIte]
    split <;> rfl
  | cons e t ih =>
    obtain ⟨k, v⟩ := e
    simp only [tput]
    split
    · simp only [tfind, h, ↓reduceIte]
      by_cases h1 : r < q
      · simp [h1, show ¬ r = k by omega, show r < k by omega]
      · simp [h1]
    · split
      · subst_vars
        simp [tfind, h]
      · simp only [tfind, ih]

theorem above_tput {b q : Nat} {t : Tab α} {x : α} (h : Tab.above b t) (hq : b < q) : Tab.above b (tput t q x) := by
  induction t with
  | nil => simpa [tput, Tab.above] using hq
  | cons e t ih =>
    obtain ⟨k, v⟩ := e
    have hk : b < k := h (k, v) List.mem_cons_self
    have ht : Tab.above b t := fun e he => h e (List.mem_cons_of_mem _ he)
    simp only [tput]
    split
    · intro e he
      simp only [List.mem_cons] at he
      rcases he with rfl | rfl | he
      · exact hq
      · exact hk
      · exact ht e he
    · split
      · intro e he
        simp only [List.mem_cons] at he
        rcases he with rfl | he
        · exact hk
        · exact ht e he
      · intro e he
        simp only [List.mem_cons] at he
        rcases he with rfl | he
        · exact hk
        · exact ih ht e he

theorem sorted_tput {t : Tab α} (q : Nat) (x : α) (h : Tab.sorted t = true) : Tab.sorted (tput t q x) = true := by
  induction t with
  | nil => rfl
  | cons e t ih =>
    obtain ⟨k, v⟩ := e
    obtain ⟨ha, hs⟩ := Tab.sorted_cons.mp h
    simp only [tput]
    split
    · refine Tab.sorted_cons.mpr ⟨?_, h⟩
      intro e he
      simp only [List.mem_cons] at he
      rcases he with rfl | he
      · assumption
      · exact Nat.lt_trans (by assumption) (ha e he)
    · split
      · exact Tab.sorted_cons.mpr ⟨ha, hs⟩
      · exact Tab.sorted_cons.mpr ⟨above_tput ha (by omega), ih hs⟩

theorem tdel_sub {t : Tab α} {q : Nat} {e : Nat × α} (h : e ∈ tdel t q) : e ∈ t := by
  induction t with
  | nil => exact h
  | cons a t ih =>
    obtain ⟨k, v⟩ := a
    simp only [tdel] at h
    split at h
    · exact List.mem_cons_of_mem _ h
    · split at h
      · exact h
      · simp only [List.mem_cons] at h ⊢
        exact h.imp id ih

theorem sorted_tdel {t : Tab α} (q : Nat) (h : Tab.sorted t = true) : Tab.sorted (tdel t q) = true := by
  induction t with
  | nil => rfl
  | cons e t ih =>
    obtain ⟨k, v⟩ := e
    obtain ⟨ha, hs⟩ := Tab.sorted_cons.mp h
    simp only [tdel]
    split
    · exact hs
    · split
      · exact h
      · exact Tab.sorted_cons.mpr ⟨fun e he => ha e (tdel_sub he), ih hs⟩

theorem tfind_tdel_self {t : Tab α} (q : Nat) (h : Tab.sorted t = true) : tfind (tdel t q) q = none := by
  induction t with
  | nil => rfl
  | cons e t ih =>
    obtain ⟨k, v⟩ := e
    obtain ⟨ha, hs⟩ := Tab.sorted_cons.mp h
    simp only [tdel]
    split
    · subst_vars
      exact tfind_above ha (Nat.le_refl _)
    · split
      · simp [tfind, *]
      · simp [tfind, *]

theorem tfind_tdel_ne {t : Tab α} {q r : Nat} (h : Tab.sorted t = true) (hr : r ≠ q) : tfind (tdel t q) r = tfind t r := by
  induction t with
  | nil => rfl
  | cons e t ih =>
    obtain ⟨k, v⟩ := e
    obtain ⟨ha, hs⟩ := Tab.sorted_cons.mp h
    simp only [tdel]
    split
    · subst_vars
      simp only [tfind, hr, ↓reduceIte]
      split
      · exact tfind_above ha (by omega)
      · rfl
    · split
      · rfl
      · simp only [tfind, ih hs]

/-! Tables with a default -/

theorem wf_sorted [DecidableEq α] {d : α} {t : Tab α} (h : Tab.wf d t = true) : Tab.sorted t = true := by
  simp only [Tab.wf, Bool.and_eq_true] at h
  exact h.1

theorem mem_tput {t : Tab α} {q : Nat} {x : α} {e : Nat × α} (h : e ∈ tput t q x) : e = (q, x) ∨ e ∈ t := by
  induction t with
  | nil => simpa [tput] using h
  | cons a t ih =>
    obtain ⟨k, v⟩ := a
    simp only [tput] at h
    split at h
    · simpa using h
    · split at h
      · subst_vars
        simp only [List.mem_cons] at h ⊢
        exact h.imp id Or.inr
      · simp only [List.mem_cons] at h ⊢
        rcases h with h | h
        · exact Or.inr (Or.inl h)
        · exact (ih h).imp id Or.inr

/-- Setting a key keeps the canonical form. -/
theorem wf_tset [DecidableEq α] {d : α} {t : Tab α} (q : Nat) (x : α) (h : Tab.wf d t = true) : Tab.wf d (tset d t q x) = true := by
  simp only [Tab.wf, Bool.and_eq_true, List.all_eq_true, decide_eq_true_eq] at h ⊢
  unfold tset
  split
  · exact ⟨sorted_tdel q h.1, fun e he => h.2 e (tdel_sub he)⟩
  · refine ⟨sorted_tput q x h.1, fun e he => ?_⟩
    rcases mem_tput he with rfl | he
    · assumption
    · exact h.2 e he

/-- A key reads what it was set to. -/
theorem tget_tset_self [DecidableEq α] {d : α} {t : Tab α} (q : Nat) (x : α) (h : Tab.sorted t = true) :
    tget d (tset d t q x) q = x := by
  unfold tset tget
  split
  · simp [tfind_tdel_self q h, *]
  · simp

/-- Setting a key leaves every other one alone. -/
theorem tget_tset_ne [DecidableEq α] {d : α} {t : Tab α} {q r : Nat} (x : α) (h : Tab.sorted t = true) (hr : r ≠ q) :
    tget d (tset d t q x) r = tget d t r := by
  unfold tset tget
  split
  · rw [tfind_tdel_ne h hr]
  · rw [tfind_tput_ne t x hr]

end Sys2Proof.Machine
end

