-- ==== Sys2Proof/Laws/Memory.lean ====
section
/-! SUPPORT. The laws of the mailbox areas: every write keeps the canonical form, an address reads what was written to it last, and a
write leaves every other address alone. -/

namespace Sys2Proof.Machine

theorem memWrite_wf {m : Tab Byte} (a : Nat) (b : Bytes) (h : Memory.wf m = true) : Memory.wf (memWrite a b m) = true := by
  induction b generalizing a m with
  | nil => exact h
  | cons x b ih => exact ih (a + 1) (wf_tset a x h)

theorem memWrite_outside {m : Tab Byte} (a : Nat) (b : Bytes) (h : Memory.wf m = true) {k : Nat} (hk : k < a ∨ a + b.length ≤ k) :
    tget 0 (memWrite a b m) k = tget 0 m k := by
  induction b generalizing a m with
  | nil => rfl
  | cons x b ih =>
    simp only [List.length_cons] at hk
    rw [memWrite, ih (a + 1) (wf_tset a x h) (by omega), tget_tset_ne x (wf_sorted h) (by omega)]

theorem memWrite_inside {m : Tab Byte} (a : Nat) (b : Bytes) (h : Memory.wf m = true) {i : Nat} (hi : i < b.length) :
    tget 0 (memWrite a b m) (a + i) = b[i] := by
  induction b generalizing a m i with
  | nil => simp at hi
  | cons x b ih =>
    rw [memWrite]
    cases i with
    | zero =>
      rw [memWrite_outside (a + 1) b (wf_tset a x h) (by omega), Nat.add_zero, tget_tset_self a x (wf_sorted h)]
      rfl
    | succ i =>
      have := ih (a + 1) (wf_tset a x h) (i := i) (by simpa using hi)
      rw [show a + (i + 1) = a + 1 + i by omega, this]
      rfl

@[simp] theorem slotWrite_mem (f : Fn) (n off : Nat) (b : Bytes) (s : State) :
    (slotWrite f n off b s).win.mem = memWrite (slotAddr f n off) b s.win.mem := rfl

@[simp] theorem leBytes_length (n v : Nat) : (leBytes n v).length = n := by
  induction n generalizing v with
  | zero => rfl
  | succ n ih => simp [leBytes, ih]

theorem slotWrite_keeps {f : Fn} {n off : Nat} {b : Bytes} {s : State} (h : Memory.wf s.win.mem = true) :
    Memory.wf (slotWrite f n off b s).win.mem = true := memWrite_wf _ _ h

/-- The memory of the machine after reset has the canonical form. -/
theorem reset_mem_wf : Memory.wf State.reset.win.mem = true := rfl

end Sys2Proof.Machine
end

