-- ==== Sys2Proof/Laws/Interrupts.lean ====
section
/-! SUPPORT. What raising an interrupt cause and comparing the fault status can do to the state: only the function registers, the PBA, the
output and the counters change. -/

namespace Sys2Proof.Machine

theorem sendMsix_eq (f : Fn) (v : Nat) (s : State) : ∃ pba out stat,
    sendMsix f v s = { s with win := { s.win with pba := pba }, outbox := out, stat := stat } := by
  unfold sendMsix
  dsimp only
  split
  · exact ⟨_, _, _, rfl⟩
  · exact ⟨_, _, _, rfl⟩

/-- Raising a cause changes nothing but the function registers, the PBA, the output and the counters. -/
theorem raiseCause_eq (b : Nat) (f : Fn) (s : State) : ∃ fns pba out stat,
    raiseCause b f s = { s with win := { s.win with fns := fns, pba := pba }, outbox := out, stat := stat } := by
  unfold raiseCause
  dsimp only
  split
  · exact ⟨_, _, _, _, rfl⟩
  · split
    · obtain ⟨p, o, t, h⟩ := sendMsix_eq f (causeVector b) (setFnRegs f { fnRegs s f with cause := (fnRegs s f).cause + 2 ^ b } s)
      rw [h]
      exact ⟨_, _, _, _, rfl⟩
    · exact ⟨_, _, _, _, rfl⟩

theorem raisePfCause_eq (b : Nat) (s : State) : ∃ fns pba out stat,
    raisePfCause b s = { s with win := { s.win with fns := fns, pba := pba }, outbox := out, stat := stat } := by
  obtain ⟨a1, a2, a3, a4, h1⟩ := raiseCause_eq b 0 s
  obtain ⟨b1, b2, b3, b4, h2⟩ := raiseCause_eq b 64 (raiseCause b 0 s)
  unfold raisePfCause
  rw [h2, h1]
  exact ⟨_, _, _, _, rfl⟩

/-- The fault status does not depend on what raising a cause changes. -/
@[simp] theorem faultStatus_raisePfCause (b : Nat) (s : State) : faultStatus (raisePfCause b s) = faultStatus s := by
  obtain ⟨_, _, _, _, h⟩ := raisePfCause_eq b s
  rw [h]
  rfl

@[simp] theorem syncFault_status (s : State) : (syncFault s).ev.status = faultStatus s := by
  unfold syncFault
  dsimp only
  split
  · simp [*]
  · obtain ⟨_, _, _, _, h⟩ := raisePfCause_eq 2 { s with ev := { s.ev with
      status := faultStatus s, sticky := s.ev.sticky ||| (faultStatus s &&& (faultStatus s ^^^ s.ev.status)) } }
    rw [h]

@[simp] theorem faultStatus_syncFault (s : State) : faultStatus (syncFault s) = faultStatus s := by
  unfold syncFault
  dsimp only
  split
  · rfl
  · rw [faultStatus_raisePfCause]
    rfl

/-- Comparing the fault status changes nothing but the event registers, the function registers, the PBA, the output and the counters. -/
theorem syncFault_eq (s : State) : ∃ fns pba out stat ev,
    syncFault s = { s with win := { s.win with fns := fns, pba := pba }, outbox := out, stat := stat, ev := ev } ∧ ev.log = s.ev.log := by
  unfold syncFault
  dsimp only
  split
  · exact ⟨_, _, _, _, _, rfl, rfl⟩
  · obtain ⟨_, _, _, _, h⟩ := raisePfCause_eq 2 { s with ev := { s.ev with
      status := faultStatus s, sticky := s.ev.sticky ||| (faultStatus s &&& (faultStatus s ^^^ s.ev.status)) } }
    rw [h]
    exact ⟨_, _, _, _, _, rfl, rfl⟩

@[simp] theorem syncFault_cfg (s : State) : (syncFault s).cfg = s.cfg := by obtain ⟨_, _, _, _, _, h, _⟩ := syncFault_eq s; rw [h]
@[simp] theorem syncFault_pos (s : State) : (syncFault s).pos = s.pos := by obtain ⟨_, _, _, _, _, h, _⟩ := syncFault_eq s; rw [h]
@[simp] theorem syncFault_mem (s : State) : (syncFault s).win.mem = s.win.mem := by obtain ⟨_, _, _, _, _, h, _⟩ := syncFault_eq s; rw [h]
@[simp] theorem syncFault_slots (s : State) : (syncFault s).win.slots = s.win.slots := by
  obtain ⟨_, _, _, _, _, h, _⟩ := syncFault_eq s; rw [h]
@[simp] theorem syncFault_log (s : State) : (syncFault s).ev.log = s.ev.log := by
  obtain ⟨_, _, _, _, _, h, hl⟩ := syncFault_eq s; rw [h]; exact hl
@[simp] theorem syncFault_pending (s : State) : (syncFault s).pending = s.pending := by
  obtain ⟨_, _, _, _, _, h, _⟩ := syncFault_eq s; rw [h]

theorem b2n_le (b : Bool) : b2n b ≤ 1 := by cases b <;> simp [b2n]

theorem stacksMarked_le (s : State) : stacksMarked s ≤ 15 := by
  simp only [stacksMarked, sumBy, show List.range 4 = [0, 1, 2, 3] from rfl, List.foldl]
  have := b2n_le (markedChannels s 0 != 0)
  have := b2n_le (markedChannels s 1 != 0)
  have := b2n_le (markedChannels s 2 != 0)
  have := b2n_le (markedChannels s 3 != 0)
  omega

/-- A function's registers read what was set, whatever stood there: the table's first entry of a key counts. -/
theorem fnRegs_setFnRegs {f : Fn} {r : FnRegs} {s : State} (h : r ≠ {}) : fnRegs (setFnRegs f r s) f = r := by
  simp [fnRegs, setFnRegs, tset, h, tget]

end Sys2Proof.Machine
end

