-- ==== Sys2Proof/Laws/Mailbox.lean ====
section
/-! SUPPORT. What serving a request can do: the Headstock takes a defined command at once, a request for another row is left alone, a
check of R35 that fails answers its status, and otherwise the command's own work is done and answered. -/

namespace Sys2Proof.Machine

theorem headstockTurn_defined {s : State} {q : Req} {rest : List Req} (hi : s.mbx.inbox = q :: rest) (hd : codeDefined q.command = true) :
    headstockTurn s = s := by
  unfold headstockTurn
  split
  · rfl
  · rw [hi]; simp [answerUndefined, hd]

/-- A request for another defined command is left alone. -/
theorem serve_other {c : CmdSpec} {io : HostIo} {own : State → Req → Bytes → Reply} {s : State} {q : Req} {rest : List Req}
    (hi : s.mbx.inbox = q :: rest) (hd : codeDefined q.command = true) (hc : q.command ≠ c.code) : serve c io own s = s := by
  unfold serve
  rw [headstockTurn_defined hi hd, serveNext, hi]
  simp [hc]

theorem serveOrHold_other {c : CmdSpec} {io : HostIo} {own : State → Req → Bytes → Reply ⊕ State} {s : State} {q : Req} {rest : List Req}
    (hi : s.mbx.inbox = q :: rest) (hd : codeDefined q.command = true) (hc : q.command ≠ c.code) : serveOrHold c io own s = s := by
  unfold serveOrHold
  rw [headstockTurn_defined hi hd, serveHoldNext, hi]
  simp [hc]

/-- A request that fails a check of R35 is answered with its status. -/
theorem serve_bad {c : CmdSpec} {io : HostIo} {own : State → Req → Bytes → Reply} {s : State} {q : Req} {rest : List Req} {st : Nat}
    (hd : codeDefined c.code = true) (h : Oldest c q rest s) (hb : firstBad c q (payloadOf q io.req) (taken rest s) = some st) :
    serve c io own s = complete q true (taken rest s) (reply st (taken rest s)) := by
  obtain ⟨ha, hh, hi, hc⟩ := h
  unfold serve
  rw [headstockTurn_defined hi (hc ▸ hd), serveNext, hi]
  simp only [ha, hh, hc, taken] at hb ⊢
  simp [hb]

theorem serveOrHold_bad {c : CmdSpec} {io : HostIo} {own : State → Req → Bytes → Reply ⊕ State} {s : State} {q : Req} {rest : List Req}
    {st : Nat} (hd : codeDefined c.code = true) (h : Oldest c q rest s) (hb : firstBad c q (payloadOf q io.req) (taken rest s) = some st) :
    serveOrHold c io own s = complete q true (taken rest s) (reply st (taken rest s)) := by
  obtain ⟨ha, hh, hi, hc⟩ := h
  unfold serveOrHold
  rw [headstockTurn_defined hi (hc ▸ hd), serveHoldNext, hi]
  simp only [ha, hh, hc, taken] at hb ⊢
  simp [hb]

/-- A request that passes is worked on. -/
theorem serve_own {c : CmdSpec} {io : HostIo} {own : State → Req → Bytes → Reply} {s : State} {q : Req} {rest : List Req} {p : Bytes}
    (hd : codeDefined c.code = true) (h : Comes c io q rest p s) :
    serve c io own s = complete q io.respOk (taken rest s) (own (taken rest s) q p) := by
  obtain ⟨⟨ha, hh, hi, hc⟩, hb, hp⟩ := h
  unfold serve
  rw [headstockTurn_defined hi (hc ▸ hd), serveNext, hi]
  simp only [ha, hh, hc, hp, taken] at hb ⊢
  simp [hb]

theorem serveOrHold_own {c : CmdSpec} {io : HostIo} {own : State → Req → Bytes → Reply ⊕ State} {s : State} {q : Req} {rest : List Req}
    {p : Bytes} (hd : codeDefined c.code = true) (h : Comes c io q rest p s) :
    serveOrHold c io own s = match own (taken rest s) q p with
      | .inl r => complete q io.respOk (taken rest s) r
      | .inr t => t := by
  obtain ⟨⟨ha, hh, hi, hc⟩, hb, hp⟩ := h
  unfold serveOrHold
  rw [headstockTurn_defined hi (hc ▸ hd), serveHoldNext, hi]
  simp only [ha, hh, hc, hp, taken] at hb ⊢
  simp [hb] <;> rfl

/-- A reply without a payload is put into the slot. -/
theorem complete_empty (q : Req) (ok : Bool) (b : State) (r : Reply) (h : r.payload = []) :
    complete q ok b r = respond q r.status [] 0 r.ticket r.st := by
  simp [complete, h]

/-- A payload that reaches the host is answered. -/
theorem complete_answered {q : Req} {io : HostIo} {b : State} {r : Reply} (h : Reaches q io r.payload) :
    complete q io.respOk b r = answered q r.status r.payload r.ticket r.st := by
  obtain ⟨h1, h2⟩ := h
  unfold complete answered
  rw [if_neg (by omega)]
  split
  · rename_i h3
    simp only [Bool.and_eq_true, bne_iff_ne, ne_eq, List.length_eq_zero_iff] at h3
    simp [h2 h3.1 h3.2]
  · rfl

theorem taken_mbx (rest : List Req) (s : State) : (taken rest s).mbx = { s.mbx with inbox := rest } := rfl
@[simp] theorem taken_cfg (rest : List Req) (s : State) : (taken rest s).cfg = s.cfg := rfl
@[simp] theorem taken_win (rest : List Req) (s : State) : (taken rest s).win = s.win := rfl
@[simp] theorem taken_trel (rest : List Req) (s : State) : (taken rest s).trel = s.trel := rfl
@[simp] theorem taken_start (rest : List Req) (s : State) : (taken rest s).start = s.start := rfl
@[simp] theorem clocheBusy_taken (rest : List Req) (s : State) : clocheBusy (taken rest s) = clocheBusy s := rfl
@[simp] theorem ticketsOf_taken (rest : List Req) (s : State) (f : Fn) : ticketsOf (taken rest s) f = ticketsOf s f := rfl

/-- What a staged command does when it stages. -/
theorem stage_ok {code : Nat} {obj : Bytes → Nat} {check : State → Bytes → Option Nat} {s : State} {q : Req} {p : Bytes}
    (hb : clocheBusy s = false) (hc : check s p = none) :
    stage code obj check s q p = reply stOk { s with cfg := { s.cfg with staged := tput s.cfg.staged (settingKey code (obj p)) p } } := by
  simp [stage, hb, hc]

theorem stage_busy {code : Nat} {obj : Bytes → Nat} {check : State → Bytes → Option Nat} {s : State} {q : Req} {p : Bytes}
    (hb : clocheBusy s = true) : stage code obj check s q p = reply stBusy s := by
  simp [stage, hb]

/-- Issuing a ticket, when the function has one left. -/
theorem issueTicket_ok {q : Req} {args : Bytes} {start : Nat → State → State} {s : State} (h : ticketsOf s q.fn < ticketLimit q.fn) :
    issueTicket q args start s = ⟨stInProgress, [], s.mbx.nextTicket, start s.mbx.nextTicket (ticketed q args s)⟩ := by
  simp [issueTicket, Nat.not_le.mpr h, ticketed, ticketFor]

/-! From a row's meaning to what it does when its request comes -/

theorem stages_of {mk : HostIo → Instr} {c : CmdSpec} {obj : Bytes → Nat} {check : State → Bytes → Option Nat}
    (hd : codeDefined c.code = true) (he : ∀ io s, exec (mk io) s = done (serve c io (stage c.code obj check) s)) :
    Stages mk c obj check := by
  intro io q rest p s h hb hc
  rw [he, serve_own hd h, stage_ok (by simpa using hb) hc, complete_empty _ _ _ _ rfl]
  rfl

theorem performs_of {mk : HostIo → Instr} {c : CmdSpec} {own : State → Req → Bytes → Reply} {ok : State → Req → Bytes → Prop}
    {status : Nat} {answer : State → Req → Bytes → Bytes} {effect : State → Req → Bytes → State}
    (hd : codeDefined c.code = true) (he : ∀ io s, exec (mk io) s = done (serve c io own s))
    (ho : ∀ s q p, ok s q p → own s q p = ⟨status, answer s q p, 0, effect s q p⟩) : Performs mk c ok status answer effect := by
  intro io q rest p s h hk hr
  rw [he, serve_own hd h, ho _ _ _ hk, complete_answered hr]
  rfl

theorem acts_of {mk : HostIo → Instr} {c : CmdSpec} {own : State → Req → Bytes → Reply} {ok : State → Req → Bytes → Prop}
    {effect : State → Req → Bytes → State} (hd : codeDefined c.code = true) (he : ∀ io s, exec (mk io) s = done (serve c io own s))
    (ho : ∀ s q p, ok s q p → own s q p = reply stOk (effect s q p)) : Acts mk c ok effect := by
  intro io q rest p s h hk
  rw [he, serve_own hd h, ho _ _ _ hk, complete_empty _ _ _ _ rfl]
  rfl

theorem issues_of {mk : HostIo → Instr} {c : CmdSpec} {own : State → Req → Bytes → Reply} {ok : State → Req → Bytes → Prop}
    {args : Req → Bytes → Bytes} {start : Req → Bytes → Nat → State → State} (hd : codeDefined c.code = true)
    (he : ∀ io s, exec (mk io) s = done (serve c io own s))
    (ho : ∀ s q p, ok s q p → own s q p = issueTicket q (args q p) (start q p) s) : Issues mk c ok args start := by
  intro io q rest p s h hk hr
  rw [he, serve_own hd h, ho _ _ _ hk, issueTicket_ok (by simpa using hr), complete_empty _ _ _ _ rfl]
  rfl

end Sys2Proof.Machine
end

