-- ==== Sys2Proof/Laws/Respond.lean ====
section
/-! SUPPORT. What a response can do to the state: it writes its slot and the response area, and may raise the completion cause of its
function; a staged command's answer is one setting more, or none. -/

namespace Sys2Proof.Machine

/-- A response changes nothing but the window (areas, slots, function registers, PBA), the output and the counters. -/
theorem putResponse_eq (q : Req) (st : Nat) (a : Bytes) (len tk : Nat) (s : State) : ∃ win out stat,
    putResponse q st a len tk s = { s with win := win, outbox := out, stat := stat } := by
  have key : ∀ x, (∃ win, x = { s with win := win }) → ∃ win out stat,
      (if bitOf q.flags 2 then x else raiseCause 0 q.fn x) = { s with win := win, outbox := out, stat := stat } := by
    rintro _ ⟨w, rfl⟩
    split
    · exact ⟨_, _, _, rfl⟩
    · obtain ⟨f, p, o, t, h⟩ := raiseCause_eq 0 q.fn { s with win := w }
      exact ⟨_, _, _, h⟩
  exact key _ ⟨_, rfl⟩

/-- The bytes of a request that was read change the counters alone. -/
theorem countRequest_eq (q : Req) (s : State) : ∃ stat, countRequest q s = { s with stat := stat } := by
  unfold countRequest
  split
  · exact ⟨_, rfl⟩
  · exact ⟨_, rfl⟩

theorem respond_eq (q : Req) (st : Nat) (a : Bytes) (len tk : Nat) (s : State) : ∃ win out stat,
    respond q st a len tk s = { s with win := win, outbox := out, stat := stat } := by
  obtain ⟨t, h⟩ := countRequest_eq q s
  obtain ⟨w, o, u, h2⟩ := putResponse_eq q st a len tk { s with stat := t }
  exact ⟨w, o, u, by rw [respond, h, h2]⟩

@[simp] theorem respond_cfg (q : Req) (st : Nat) (a : Bytes) (len tk : Nat) (s : State) : (respond q st a len tk s).cfg = s.cfg := by
  obtain ⟨_, _, _, h⟩ := respond_eq q st a len tk s
  rw [h]

/-- Completing a request leaves the configuration as it was before the command, or as the command left it. -/
theorem complete_cfg (q : Req) (ok : Bool) (b : State) (r : Reply) : (complete q ok b r).cfg = b.cfg ∨ (complete q ok b r).cfg = r.st.cfg := by
  unfold complete
  split
  · exact .inl (respond_cfg ..)
  · split
    · split
      · exact .inr (respond_cfg ..)
      · exact .inl (respond_cfg ..)
    · exact .inr (respond_cfg ..)

/-- A staged command stages its payload under its code and its object, or stages nothing; its answer has no payload. -/
theorem stage_staged (code : Nat) (obj : Bytes → Nat) (check : State → Bytes → Option Nat) (s : State) (q : Req) (p : Bytes) :
    (stage code obj check s q p).payload = [] ∧ ((stage code obj check s q p).st = s ∨
      (stage code obj check s q p).st = { s with cfg := { s.cfg with staged := tput s.cfg.staged (settingKey code (obj p)) p } }) := by
  unfold stage
  split
  · exact ⟨rfl, .inl rfl⟩
  · split
    · exact ⟨rfl, .inl rfl⟩
    · exact ⟨rfl, .inr rfl⟩

end Sys2Proof.Machine
end

