-- ==== Sys2Proof/Laws/Rows.lean ====
section
/-! SUPPORT. Every row of the mailbox serves its command; every command ends with the comparison of the fault status. -/

namespace Sys2Proof.Machine

/-- A row of the mailbox is the Headstock's turn on its command, whose code is defined. -/
theorem exec_mailboxRow {i : Instr} {c : CmdSpec} {io : HostIo} (h : mailboxRow i = some (c, io)) : codeDefined c.code = true ∧
    ((∃ own, ∀ s, exec i s = done (serve c io own s)) ∨ ∃ own, ∀ s, exec i s = done (serveOrHold c io own s)) := by
  cases i <;> cases h
  case camGvcp => exact ⟨rfl, .inr ⟨_, fun _ => rfl⟩⟩
  case camCxpControl => exact ⟨rfl, .inr ⟨_, fun _ => rfl⟩⟩
  case diagSnapshot => exact ⟨rfl, .inr ⟨_, fun _ => rfl⟩⟩
  case trigQueueAdd => exact ⟨rfl, .inr ⟨_, fun _ => rfl⟩⟩
  all_goals exact ⟨rfl, .inl ⟨_, fun _ => rfl⟩⟩

/-- Every command answers a next state, which ends with the comparison of the fault status. -/
theorem exec_done (c : Instr) (s : State) : ∃ t, exec c s = done t := by
  cases c
  case tileCutStart => unfold exec execTileCutStart; dsimp only; split <;> exact ⟨_, rfl⟩
  case tileWaitExpiry => unfold exec execTileWaitExpiry; dsimp only; split <;> exact ⟨_, rfl⟩
  all_goals exact ⟨_, rfl⟩

/-- Every step answers a next state. -/
theorem step_done (s : State) : ∃ t, step s = done t := by
  unfold step
  split
  · exact ⟨_, rfl⟩
  · exact exec_done _ _

end Sys2Proof.Machine
end

