-- ==== Sys2Proof/Laws/Forms.lean ====
section
/-! SUPPORT. The forms in which a command's next state is stated, from its meaning; and what the shared operations of the window do. -/

namespace Sys2Proof.Machine

/-- A row that a camera must answer is held with its effect. -/
theorem holds_of {mk : HostIo → Instr} {c : CmdSpec} {own : State → Req → Bytes → Reply ⊕ State} {ok : State → Req → Bytes → Prop} {effect : State → Req → Bytes → State} (hd : codeDefined c.code = true) (he : ∀ io s, exec (mk io) s = done (serveOrHold c io own s))
    (ho : ∀ s q p, ok s q p → own s q p = .inr (effect s q p)) : Holds mk c ok effect := by
  intro io q rest p s h hk
  rw [he, serveOrHold_own hd h, ho _ _ _ hk]
  rfl

/-- An event whose meaning is `g` gives `f` wherever `g` is `f`. -/
theorem gives_of {i : Instr} {ok : State → Prop} {f g : State → State} (he : ∀ s, exec i s = done (g s)) (h : ∀ s, ok s → g s = f s) : Gives i ok f := by
  intro s hs
  rw [he, h s hs]; rfl

theorem orBadArg_true {b} (h : b = true) : orBadArg b = none := by simp [orBadArg, h]

/-- A query whose check passes answers and leaves the state alone. -/
theorem answers_query {mk c check answer} {ok : State → Req → Bytes → Prop} (hd : codeDefined c.code = true) (he : ∀ io s, exec (mk io) s = done (serve c io (query check answer) s)) (h : ∀ s q p, ok s q p → check s p = none) : Answers mk c ok answer :=
  performs_of hd he (fun s q p hk => by simp [query, h s q p hk, replyOk])

/-- The last of two values put at one key stays. -/
theorem tput_tput {α} (t : Tab α) (k) (a b : α) : tput (tput t k a) k b = tput t k b := by
  induction t with
  | nil => simp [tput]
  | cons e t ih =>
    obtain ⟨j, v⟩ := e
    simp only [tput]
    split
    · simp [tput]
    · split
      · subst_vars; simp [tput]
      · simp only [tput, ih]; simp [*]

/-- The fault status has 16 bits. -/
theorem faultStatus_lt (s) : faultStatus s < 65536 := by
  unfold faultStatus
  have := stacksMarked_le s
  have := b2n_le s.start.w1Running
  have := b2n_le s.start.safe
  have := b2n_le s.fault.warn
  have := b2n_le s.fault.throttle
  have := b2n_le s.fault.stop
  have := b2n_le s.fab.sprint.on
  have := b2n_le (feature s 6)
  have := b2n_le (coverageReduced s)
  have := b2n_le s.trel.diverged
  have := b2n_le (noMotion s)
  have := b2n_le (s.pos.sp.altActive || s.trel.posStale || s.trel.detached)
  have := b2n_le (s.fab.graphs.any (fun e => e.2.stopped))
  omega

/-- Adding the weight of a clear bit sets it. -/
theorem bitOf_add (c b : Nat) (h : bitOf c b = false) : bitOf (c + 2 ^ b) b = true := by
  simp only [bitOf, beq_eq_false_iff_ne, ne_eq, beq_iff_eq] at *
  rw [Nat.add_div_right _ (Nat.two_pow_pos b)]
  omega

theorem sendMsix_fns (f v) (s : State) : (sendMsix f v s).win.fns = s.win.fns := by
  obtain ⟨_, _, _, h⟩ := sendMsix_eq f v s
  rw [h]

/-- Raising a cause sets its bit. -/
theorem raiseCause_self (b f) (s : State) : bitOf (fnRegs (raiseCause b f s) f).cause b = true := by
  unfold raiseCause
  dsimp only
  split
  · assumption
  · rename_i h
    have hb : bitOf ((fnRegs s f).cause + 2 ^ b) b = true := bitOf_add _ _ (by simpa using h)
    have key : (fnRegs (setFnRegs f { fnRegs s f with cause := (fnRegs s f).cause + 2 ^ b } s) f) = { fnRegs s f with cause := (fnRegs s f).cause + 2 ^ b } := by
      apply fnRegs_setFnRegs
      intro hc
      have := congrArg FnRegs.cause hc
      simp at this
    split
    · rw [show fnRegs (sendMsix f (causeVector b) (setFnRegs f { fnRegs s f with cause := (fnRegs s f).cause + 2 ^ b } s)) f = fnRegs (setFnRegs f { fnRegs s f with cause := (fnRegs s f).cause + 2 ^ b } s) f by simp [fnRegs, sendMsix_fns], key]
      exact hb
    · rw [key]; exact hb

/-- Raising a cause leaves the registers of every other function alone. -/
theorem raiseCause_other (b f g) (s : State) (h : g ≠ f) : fnRegs (raiseCause b f s) g = fnRegs s g := by
  unfold raiseCause
  dsimp only
  split
  · rfl
  · rename_i hx
    have key : ∀ r : FnRegs, r ≠ {} → fnRegs (setFnRegs f r s) g = fnRegs s g := by
      intro r hr
      simp [fnRegs, setFnRegs, tset, hr, tget, tfind_tput_ne _ _ h]
    have hr : ({ fnRegs s f with cause := (fnRegs s f).cause + 2 ^ b } : FnRegs) ≠ {} := by
      intro hc
      have := congrArg FnRegs.cause hc
      simp at this
    split
    · rw [← key _ hr]
      simp [fnRegs, sendMsix_fns]
    · exact key _ hr

theorem raiseCause_win (b f) (s : State) : (raiseCause b f s).win.mem = s.win.mem ∧ (raiseCause b f s).win.slots = s.win.slots := by
  obtain ⟨_, _, _, _, h⟩ := raiseCause_eq b f s
  rw [h]; exact ⟨rfl, rfl⟩

/-- What a response writes into the areas and the slots. -/
theorem putResponse_win (q : Req) (st : Nat) (a : Bytes) (len tk : Nat) (s : State) : 
   (putResponse q st a len tk s).win.mem = memWrite (slotAddr q.fn q.slot 0x1000) (leBytes 2 q.command ++ leBytes 2 st ++ leBytes 4 q.sequence ++ leBytes 4 len ++ leBytes 4 tk) (memWrite (slotAddr q.fn q.slot 0x1010) a s.win.mem) ∧
   (putResponse q st a len tk s).win.slots = tset {} s.win.slots (q.fn * 64 + q.slot) { slotOf s q.fn q.slot with st := 2, seqLow := q.sequence % 65536 } := by
  unfold putResponse
  dsimp only
  split
  · exact ⟨rfl, rfl⟩
  · rw [(raiseCause_win _ _ _).1, (raiseCause_win _ _ _).2]; exact ⟨rfl, rfl⟩

theorem respond_win (q : Req) (st : Nat) (a : Bytes) (len tk : Nat) (s : State) :
   (respond q st a len tk s).win.mem = memWrite (slotAddr q.fn q.slot 0x1000) (leBytes 2 q.command ++ leBytes 2 st ++ leBytes 4 q.sequence ++ leBytes 4 len ++ leBytes 4 tk) (memWrite (slotAddr q.fn q.slot 0x1010) a s.win.mem) ∧
   (respond q st a len tk s).win.slots = tset {} s.win.slots (q.fn * 64 + q.slot) { slotOf s q.fn q.slot with st := 2, seqLow := q.sequence % 65536 } := by
  obtain ⟨_, h⟩ := countRequest_eq q s
  rw [respond, h]
  exact putResponse_win q st a len tk _

/-- Bytes that stand at an offset of a slot are what is read there. -/
theorem slotRead_eq (s : State) (f n off k : Nat) (a : Bytes) (hl : a.length = k) (h : ∀ i (hi : i < a.length), tget 0 s.win.mem (slotAddr f n off + i) = a[i]) : slotRead s f n off k = a := by
  induction k generalizing off a with
  | zero => simp at hl; subst hl; rfl
  | succ k ih =>
    cases a with
    | nil => simp at hl
    | cons x a =>
      simp only [slotRead]
      have h0 := h 0 (by simp)
      simp only [Nat.add_zero, List.getElem_cons_zero] at h0
      rw [h0, ih (off+1) a (by simpa using hl)]
      intro i hi
      have := h (i+1) (by simpa using hi)
      simp only [List.getElem_cons_succ] at this
      rw [← this]; congr 1; simp only [slotAddr]; omega

theorem leNat_lt : ∀ p : List Byte, leNat p < 256 ^ p.length := by
  intro p
  induction p with
  | nil => simp [leNat]
  | cons x t ih =>
    simp only [leNat, List.length_cons, Nat.pow_succ]
    have := x.isLt
    omega

/-- A field of n bytes is below 256^n. -/
theorem fld_lt (p : Bytes) (o n : Nat) : fld p o n < 256 ^ n :=
  Nat.lt_of_lt_of_le (leNat_lt _) (Nat.pow_le_pow_right (by omega) (by simp <;> omega))

theorem trigUnit_setTrigUnit {u : Nat} {x : TrigUnit} {s : State} (h : x ≠ {}) : trigUnit (setTrigUnit u x s) u = x := by
  simp [trigUnit, setTrigUnit, tset, h, tget]

theorem trigUnit_setTrigUnit_ne {u v : Nat} {x : TrigUnit} {s : State} (h : x ≠ {}) (hv : v ≠ u) : trigUnit (setTrigUnit u x s) v = trigUnit s v := by
  simp [trigUnit, setTrigUnit, tset, h, tget, tfind_tput_ne _ _ hv]

theorem trigUnit_syncFault (s : State) (u : Nat) : trigUnit (syncFault s) u = trigUnit s u := by
  obtain ⟨_, _, _, _, _, h, _⟩ := syncFault_eq s; rw [h]; rfl

/-- A bed whose rows are ready and whose graphs accept emits them. -/
theorem bedRowEmit_ready {bed grid : Nat} {gate : Gate} {t u : State} (h1 : u.fault.stop = false) (h3 : gateOf u grid = some gate) (h4 : t = beforeRow bed gate.g gate.beds.isEmpty u) (h5 : rowsReady t bed grid = true) (h6 : graphsAccept t (bedImage t bed) (bedMembers t bed grid) = true) : bedRowEmit bed grid u = (
      let r := buildRows bed grid t
      let out := releaseRows bed r.1 r.2
      let v := noteHeld bed grid false (giveRows (bedImage t bed) (bedGeneration t bed) (shortDigestOf t (dropResets (bedImage t bed))) out.1 out.2)
      settleCommit (regrid (gateAfterEmit bed grid (noteEmitted bed gate.g v)))) := by
  subst h4
  simp [bedRowEmit, h1, h3, h5, h6]

end Sys2Proof.Machine
end

