-- ==== Sys2Proof/Laws/State.lean ====
section
/-! SUPPORT. Which components of the state each shared update leaves alone: one lemma per component per update, so that no later proof
unfolds a record update. -/

namespace Sys2Proof.Machine

@[simp] theorem setGate_pending (k : Nat) (g : Option Gate) (s : State) : (setGate k g s).pending = s.pending := rfl
@[simp] theorem setGate_outbox (k : Nat) (g : Option Gate) (s : State) : (setGate k g s).outbox = s.outbox := rfl
@[simp] theorem setGate_draws (k : Nat) (g : Option Gate) (s : State) : (setGate k g s).draws = s.draws := rfl
@[simp] theorem setGate_win (k : Nat) (g : Option Gate) (s : State) : (setGate k g s).win = s.win := rfl
@[simp] theorem setGate_mbx (k : Nat) (g : Option Gate) (s : State) : (setGate k g s).mbx = s.mbx := rfl
@[simp] theorem setGate_cfg (k : Nat) (g : Option Gate) (s : State) : (setGate k g s).cfg = s.cfg := rfl
@[simp] theorem setGate_stat (k : Nat) (g : Option Gate) (s : State) : (setGate k g s).stat = s.stat := rfl
@[simp] theorem setGate_ev (k : Nat) (g : Option Gate) (s : State) : (setGate k g s).ev = s.ev := rfl
@[simp] theorem setGate_handoff (k : Nat) (g : Option Gate) (s : State) : (setGate k g s).handoff = s.handoff := rfl
@[simp] theorem setGate_time (k : Nat) (g : Option Gate) (s : State) : (setGate k g s).time = s.time := rfl
@[simp] theorem setGate_pos (k : Nat) (g : Option Gate) (s : State) : (setGate k g s).pos = s.pos := rfl
@[simp] theorem setGate_start (k : Nat) (g : Option Gate) (s : State) : (setGate k g s).start = s.start := rfl
@[simp] theorem setGate_trig (k : Nat) (g : Option Gate) (s : State) : (setGate k g s).trig = s.trig := rfl
@[simp] theorem setGate_lane (k : Nat) (g : Option Gate) (s : State) : (setGate k g s).lane = s.lane := rfl
@[simp] theorem setGate_cam (k : Nat) (g : Option Gate) (s : State) : (setGate k g s).cam = s.cam := rfl
@[simp] theorem setGate_fab (k : Nat) (g : Option Gate) (s : State) : (setGate k g s).fab = s.fab := rfl
@[simp] theorem setGate_fault (k : Nat) (g : Option Gate) (s : State) : (setGate k g s).fault = s.fault := rfl
@[simp] theorem setGate_trel (k : Nat) (g : Option Gate) (s : State) : (setGate k g s).trel = s.trel := rfl
@[simp] theorem setGate_cal (k : Nat) (g : Option Gate) (s : State) : (setGate k g s).cal = s.cal := rfl
@[simp] theorem setGate_deliv (k : Nat) (g : Option Gate) (s : State) : (setGate k g s).deliv = s.deliv := rfl

@[simp] theorem setModule_pending (b : Nat) (x : Module) (s : State) : (setModule b x s).pending = s.pending := rfl
@[simp] theorem setModule_outbox (b : Nat) (x : Module) (s : State) : (setModule b x s).outbox = s.outbox := rfl
@[simp] theorem setModule_draws (b : Nat) (x : Module) (s : State) : (setModule b x s).draws = s.draws := rfl
@[simp] theorem setModule_win (b : Nat) (x : Module) (s : State) : (setModule b x s).win = s.win := rfl
@[simp] theorem setModule_mbx (b : Nat) (x : Module) (s : State) : (setModule b x s).mbx = s.mbx := rfl
@[simp] theorem setModule_cfg (b : Nat) (x : Module) (s : State) : (setModule b x s).cfg = s.cfg := rfl
@[simp] theorem setModule_stat (b : Nat) (x : Module) (s : State) : (setModule b x s).stat = s.stat := rfl
@[simp] theorem setModule_ev (b : Nat) (x : Module) (s : State) : (setModule b x s).ev = s.ev := rfl
@[simp] theorem setModule_handoff (b : Nat) (x : Module) (s : State) : (setModule b x s).handoff = s.handoff := rfl
@[simp] theorem setModule_time (b : Nat) (x : Module) (s : State) : (setModule b x s).time = s.time := rfl
@[simp] theorem setModule_pos (b : Nat) (x : Module) (s : State) : (setModule b x s).pos = s.pos := rfl
@[simp] theorem setModule_start (b : Nat) (x : Module) (s : State) : (setModule b x s).start = s.start := rfl
@[simp] theorem setModule_trig (b : Nat) (x : Module) (s : State) : (setModule b x s).trig = s.trig := rfl
@[simp] theorem setModule_lane (b : Nat) (x : Module) (s : State) : (setModule b x s).lane = s.lane := rfl
@[simp] theorem setModule_ing (b : Nat) (x : Module) (s : State) : (setModule b x s).ing = s.ing := rfl
@[simp] theorem setModule_fab (b : Nat) (x : Module) (s : State) : (setModule b x s).fab = s.fab := rfl
@[simp] theorem setModule_fault (b : Nat) (x : Module) (s : State) : (setModule b x s).fault = s.fault := rfl
@[simp] theorem setModule_trel (b : Nat) (x : Module) (s : State) : (setModule b x s).trel = s.trel := rfl
@[simp] theorem setModule_cal (b : Nat) (x : Module) (s : State) : (setModule b x s).cal = s.cal := rfl
@[simp] theorem setModule_deliv (b : Nat) (x : Module) (s : State) : (setModule b x s).deliv = s.deliv := rfl

@[simp] theorem setBlocks_pending (b : Tab RowBlock) (s : State) : (setBlocks b s).pending = s.pending := rfl
@[simp] theorem setBlocks_outbox (b : Tab RowBlock) (s : State) : (setBlocks b s).outbox = s.outbox := rfl
@[simp] theorem setBlocks_draws (b : Tab RowBlock) (s : State) : (setBlocks b s).draws = s.draws := rfl
@[simp] theorem setBlocks_win (b : Tab RowBlock) (s : State) : (setBlocks b s).win = s.win := rfl
@[simp] theorem setBlocks_mbx (b : Tab RowBlock) (s : State) : (setBlocks b s).mbx = s.mbx := rfl
@[simp] theorem setBlocks_cfg (b : Tab RowBlock) (s : State) : (setBlocks b s).cfg = s.cfg := rfl
@[simp] theorem setBlocks_stat (b : Tab RowBlock) (s : State) : (setBlocks b s).stat = s.stat := rfl
@[simp] theorem setBlocks_ev (b : Tab RowBlock) (s : State) : (setBlocks b s).ev = s.ev := rfl
@[simp] theorem setBlocks_handoff (b : Tab RowBlock) (s : State) : (setBlocks b s).handoff = s.handoff := rfl
@[simp] theorem setBlocks_time (b : Tab RowBlock) (s : State) : (setBlocks b s).time = s.time := rfl
@[simp] theorem setBlocks_pos (b : Tab RowBlock) (s : State) : (setBlocks b s).pos = s.pos := rfl
@[simp] theorem setBlocks_start (b : Tab RowBlock) (s : State) : (setBlocks b s).start = s.start := rfl
@[simp] theorem setBlocks_trig (b : Tab RowBlock) (s : State) : (setBlocks b s).trig = s.trig := rfl
@[simp] theorem setBlocks_lane (b : Tab RowBlock) (s : State) : (setBlocks b s).lane = s.lane := rfl
@[simp] theorem setBlocks_cam (b : Tab RowBlock) (s : State) : (setBlocks b s).cam = s.cam := rfl
@[simp] theorem setBlocks_ing (b : Tab RowBlock) (s : State) : (setBlocks b s).ing = s.ing := rfl
@[simp] theorem setBlocks_fab (b : Tab RowBlock) (s : State) : (setBlocks b s).fab = s.fab := rfl
@[simp] theorem setBlocks_fault (b : Tab RowBlock) (s : State) : (setBlocks b s).fault = s.fault := rfl
@[simp] theorem setBlocks_trel (b : Tab RowBlock) (s : State) : (setBlocks b s).trel = s.trel := rfl
@[simp] theorem setBlocks_cal (b : Tab RowBlock) (s : State) : (setBlocks b s).cal = s.cal := rfl

@[simp] theorem setHostPort_pending (p : Nat) (x : HostPort) (s : State) : (setHostPort p x s).pending = s.pending := rfl
@[simp] theorem setHostPort_outbox (p : Nat) (x : HostPort) (s : State) : (setHostPort p x s).outbox = s.outbox := rfl
@[simp] theorem setHostPort_draws (p : Nat) (x : HostPort) (s : State) : (setHostPort p x s).draws = s.draws := rfl
@[simp] theorem setHostPort_win (p : Nat) (x : HostPort) (s : State) : (setHostPort p x s).win = s.win := rfl
@[simp] theorem setHostPort_mbx (p : Nat) (x : HostPort) (s : State) : (setHostPort p x s).mbx = s.mbx := rfl
@[simp] theorem setHostPort_cfg (p : Nat) (x : HostPort) (s : State) : (setHostPort p x s).cfg = s.cfg := rfl
@[simp] theorem setHostPort_stat (p : Nat) (x : HostPort) (s : State) : (setHostPort p x s).stat = s.stat := rfl
@[simp] theorem setHostPort_ev (p : Nat) (x : HostPort) (s : State) : (setHostPort p x s).ev = s.ev := rfl
@[simp] theorem setHostPort_handoff (p : Nat) (x : HostPort) (s : State) : (setHostPort p x s).handoff = s.handoff := rfl
@[simp] theorem setHostPort_time (p : Nat) (x : HostPort) (s : State) : (setHostPort p x s).time = s.time := rfl
@[simp] theorem setHostPort_pos (p : Nat) (x : HostPort) (s : State) : (setHostPort p x s).pos = s.pos := rfl
@[simp] theorem setHostPort_start (p : Nat) (x : HostPort) (s : State) : (setHostPort p x s).start = s.start := rfl
@[simp] theorem setHostPort_trig (p : Nat) (x : HostPort) (s : State) : (setHostPort p x s).trig = s.trig := rfl
@[simp] theorem setHostPort_lane (p : Nat) (x : HostPort) (s : State) : (setHostPort p x s).lane = s.lane := rfl
@[simp] theorem setHostPort_cam (p : Nat) (x : HostPort) (s : State) : (setHostPort p x s).cam = s.cam := rfl
@[simp] theorem setHostPort_ing (p : Nat) (x : HostPort) (s : State) : (setHostPort p x s).ing = s.ing := rfl
@[simp] theorem setHostPort_fab (p : Nat) (x : HostPort) (s : State) : (setHostPort p x s).fab = s.fab := rfl
@[simp] theorem setHostPort_fault (p : Nat) (x : HostPort) (s : State) : (setHostPort p x s).fault = s.fault := rfl
@[simp] theorem setHostPort_trel (p : Nat) (x : HostPort) (s : State) : (setHostPort p x s).trel = s.trel := rfl
@[simp] theorem setHostPort_cal (p : Nat) (x : HostPort) (s : State) : (setHostPort p x s).cal = s.cal := rfl

@[simp] theorem handUnit_pending (u : DUnit) (s : State) : (handUnit u s).pending = s.pending := rfl
@[simp] theorem handUnit_outbox (u : DUnit) (s : State) : (handUnit u s).outbox = s.outbox := rfl
@[simp] theorem handUnit_draws (u : DUnit) (s : State) : (handUnit u s).draws = s.draws := rfl
@[simp] theorem handUnit_win (u : DUnit) (s : State) : (handUnit u s).win = s.win := rfl
@[simp] theorem handUnit_mbx (u : DUnit) (s : State) : (handUnit u s).mbx = s.mbx := rfl
@[simp] theorem handUnit_cfg (u : DUnit) (s : State) : (handUnit u s).cfg = s.cfg := rfl
@[simp] theorem handUnit_stat (u : DUnit) (s : State) : (handUnit u s).stat = s.stat := rfl
@[simp] theorem handUnit_ev (u : DUnit) (s : State) : (handUnit u s).ev = s.ev := rfl
@[simp] theorem handUnit_time (u : DUnit) (s : State) : (handUnit u s).time = s.time := rfl
@[simp] theorem handUnit_pos (u : DUnit) (s : State) : (handUnit u s).pos = s.pos := rfl
@[simp] theorem handUnit_start (u : DUnit) (s : State) : (handUnit u s).start = s.start := rfl
@[simp] theorem handUnit_trig (u : DUnit) (s : State) : (handUnit u s).trig = s.trig := rfl
@[simp] theorem handUnit_lane (u : DUnit) (s : State) : (handUnit u s).lane = s.lane := rfl
@[simp] theorem handUnit_cam (u : DUnit) (s : State) : (handUnit u s).cam = s.cam := rfl
@[simp] theorem handUnit_ing (u : DUnit) (s : State) : (handUnit u s).ing = s.ing := rfl
@[simp] theorem handUnit_fab (u : DUnit) (s : State) : (handUnit u s).fab = s.fab := rfl
@[simp] theorem handUnit_fault (u : DUnit) (s : State) : (handUnit u s).fault = s.fault := rfl
@[simp] theorem handUnit_trel (u : DUnit) (s : State) : (handUnit u s).trel = s.trel := rfl
@[simp] theorem handUnit_cal (u : DUnit) (s : State) : (handUnit u s).cal = s.cal := rfl
@[simp] theorem handUnit_deliv (u : DUnit) (s : State) : (handUnit u s).deliv = s.deliv := rfl

@[simp] theorem setFab_pending (f : Fab) (s : State) : (setFab f s).pending = s.pending := rfl
@[simp] theorem setFab_outbox (f : Fab) (s : State) : (setFab f s).outbox = s.outbox := rfl
@[simp] theorem setFab_draws (f : Fab) (s : State) : (setFab f s).draws = s.draws := rfl
@[simp] theorem setFab_win (f : Fab) (s : State) : (setFab f s).win = s.win := rfl
@[simp] theorem setFab_mbx (f : Fab) (s : State) : (setFab f s).mbx = s.mbx := rfl
@[simp] theorem setFab_cfg (f : Fab) (s : State) : (setFab f s).cfg = s.cfg := rfl
@[simp] theorem setFab_stat (f : Fab) (s : State) : (setFab f s).stat = s.stat := rfl
@[simp] theorem setFab_ev (f : Fab) (s : State) : (setFab f s).ev = s.ev := rfl
@[simp] theorem setFab_handoff (f : Fab) (s : State) : (setFab f s).handoff = s.handoff := rfl
@[simp] theorem setFab_time (f : Fab) (s : State) : (setFab f s).time = s.time := rfl
@[simp] theorem setFab_pos (f : Fab) (s : State) : (setFab f s).pos = s.pos := rfl
@[simp] theorem setFab_start (f : Fab) (s : State) : (setFab f s).start = s.start := rfl
@[simp] theorem setFab_trig (f : Fab) (s : State) : (setFab f s).trig = s.trig := rfl
@[simp] theorem setFab_lane (f : Fab) (s : State) : (setFab f s).lane = s.lane := rfl
@[simp] theorem setFab_cam (f : Fab) (s : State) : (setFab f s).cam = s.cam := rfl
@[simp] theorem setFab_ing (f : Fab) (s : State) : (setFab f s).ing = s.ing := rfl
@[simp] theorem setFab_fault (f : Fab) (s : State) : (setFab f s).fault = s.fault := rfl
@[simp] theorem setFab_trel (f : Fab) (s : State) : (setFab f s).trel = s.trel := rfl
@[simp] theorem setFab_cal (f : Fab) (s : State) : (setFab f s).cal = s.cal := rfl
@[simp] theorem setFab_deliv (f : Fab) (s : State) : (setFab f s).deliv = s.deliv := rfl

@[simp] theorem setFault_pending (x : FaultSt) (s : State) : (setFault x s).pending = s.pending := rfl
@[simp] theorem setFault_outbox (x : FaultSt) (s : State) : (setFault x s).outbox = s.outbox := rfl
@[simp] theorem setFault_draws (x : FaultSt) (s : State) : (setFault x s).draws = s.draws := rfl
@[simp] theorem setFault_win (x : FaultSt) (s : State) : (setFault x s).win = s.win := rfl
@[simp] theorem setFault_mbx (x : FaultSt) (s : State) : (setFault x s).mbx = s.mbx := rfl
@[simp] theorem setFault_cfg (x : FaultSt) (s : State) : (setFault x s).cfg = s.cfg := rfl
@[simp] theorem setFault_stat (x : FaultSt) (s : State) : (setFault x s).stat = s.stat := rfl
@[simp] theorem setFault_ev (x : FaultSt) (s : State) : (setFault x s).ev = s.ev := rfl
@[simp] theorem setFault_handoff (x : FaultSt) (s : State) : (setFault x s).handoff = s.handoff := rfl
@[simp] theorem setFault_time (x : FaultSt) (s : State) : (setFault x s).time = s.time := rfl
@[simp] theorem setFault_pos (x : FaultSt) (s : State) : (setFault x s).pos = s.pos := rfl
@[simp] theorem setFault_start (x : FaultSt) (s : State) : (setFault x s).start = s.start := rfl
@[simp] theorem setFault_trig (x : FaultSt) (s : State) : (setFault x s).trig = s.trig := rfl
@[simp] theorem setFault_lane (x : FaultSt) (s : State) : (setFault x s).lane = s.lane := rfl
@[simp] theorem setFault_cam (x : FaultSt) (s : State) : (setFault x s).cam = s.cam := rfl
@[simp] theorem setFault_ing (x : FaultSt) (s : State) : (setFault x s).ing = s.ing := rfl
@[simp] theorem setFault_fab (x : FaultSt) (s : State) : (setFault x s).fab = s.fab := rfl
@[simp] theorem setFault_trel (x : FaultSt) (s : State) : (setFault x s).trel = s.trel := rfl
@[simp] theorem setFault_cal (x : FaultSt) (s : State) : (setFault x s).cal = s.cal := rfl
@[simp] theorem setFault_deliv (x : FaultSt) (s : State) : (setFault x s).deliv = s.deliv := rfl

@[simp] theorem setFurrow_pending (n : Nat) (x : Furrow) (s : State) : (setFurrow n x s).pending = s.pending := rfl
@[simp] theorem setFurrow_outbox (n : Nat) (x : Furrow) (s : State) : (setFurrow n x s).outbox = s.outbox := rfl
@[simp] theorem setFurrow_draws (n : Nat) (x : Furrow) (s : State) : (setFurrow n x s).draws = s.draws := rfl
@[simp] theorem setFurrow_win (n : Nat) (x : Furrow) (s : State) : (setFurrow n x s).win = s.win := rfl
@[simp] theorem setFurrow_mbx (n : Nat) (x : Furrow) (s : State) : (setFurrow n x s).mbx = s.mbx := rfl
@[simp] theorem setFurrow_cfg (n : Nat) (x : Furrow) (s : State) : (setFurrow n x s).cfg = s.cfg := rfl
@[simp] theorem setFurrow_stat (n : Nat) (x : Furrow) (s : State) : (setFurrow n x s).stat = s.stat := rfl
@[simp] theorem setFurrow_ev (n : Nat) (x : Furrow) (s : State) : (setFurrow n x s).ev = s.ev := rfl
@[simp] theorem setFurrow_handoff (n : Nat) (x : Furrow) (s : State) : (setFurrow n x s).handoff = s.handoff := rfl
@[simp] theorem setFurrow_time (n : Nat) (x : Furrow) (s : State) : (setFurrow n x s).time = s.time := rfl
@[simp] theorem setFurrow_pos (n : Nat) (x : Furrow) (s : State) : (setFurrow n x s).pos = s.pos := rfl
@[simp] theorem setFurrow_start (n : Nat) (x : Furrow) (s : State) : (setFurrow n x s).start = s.start := rfl
@[simp] theorem setFurrow_trig (n : Nat) (x : Furrow) (s : State) : (setFurrow n x s).trig = s.trig := rfl
@[simp] theorem setFurrow_lane (n : Nat) (x : Furrow) (s : State) : (setFurrow n x s).lane = s.lane := rfl
@[simp] theorem setFurrow_cam (n : Nat) (x : Furrow) (s : State) : (setFurrow n x s).cam = s.cam := rfl
@[simp] theorem setFurrow_ing (n : Nat) (x : Furrow) (s : State) : (setFurrow n x s).ing = s.ing := rfl
@[simp] theorem setFurrow_fab (n : Nat) (x : Furrow) (s : State) : (setFurrow n x s).fab = s.fab := rfl
@[simp] theorem setFurrow_fault (n : Nat) (x : Furrow) (s : State) : (setFurrow n x s).fault = s.fault := rfl
@[simp] theorem setFurrow_trel (n : Nat) (x : Furrow) (s : State) : (setFurrow n x s).trel = s.trel := rfl
@[simp] theorem setFurrow_cal (n : Nat) (x : Furrow) (s : State) : (setFurrow n x s).cal = s.cal := rfl

@[simp] theorem setLane_pending (l : Nat) (x : Lane) (s : State) : (setLane l x s).pending = s.pending := rfl
@[simp] theorem setLane_outbox (l : Nat) (x : Lane) (s : State) : (setLane l x s).outbox = s.outbox := rfl
@[simp] theorem setLane_draws (l : Nat) (x : Lane) (s : State) : (setLane l x s).draws = s.draws := rfl
@[simp] theorem setLane_win (l : Nat) (x : Lane) (s : State) : (setLane l x s).win = s.win := rfl
@[simp] theorem setLane_mbx (l : Nat) (x : Lane) (s : State) : (setLane l x s).mbx = s.mbx := rfl
@[simp] theorem setLane_cfg (l : Nat) (x : Lane) (s : State) : (setLane l x s).cfg = s.cfg := rfl
@[simp] theorem setLane_stat (l : Nat) (x : Lane) (s : State) : (setLane l x s).stat = s.stat := rfl
@[simp] theorem setLane_ev (l : Nat) (x : Lane) (s : State) : (setLane l x s).ev = s.ev := rfl
@[simp] theorem setLane_handoff (l : Nat) (x : Lane) (s : State) : (setLane l x s).handoff = s.handoff := rfl
@[simp] theorem setLane_time (l : Nat) (x : Lane) (s : State) : (setLane l x s).time = s.time := rfl
@[simp] theorem setLane_pos (l : Nat) (x : Lane) (s : State) : (setLane l x s).pos = s.pos := rfl
@[simp] theorem setLane_start (l : Nat) (x : Lane) (s : State) : (setLane l x s).start = s.start := rfl
@[simp] theorem setLane_trig (l : Nat) (x : Lane) (s : State) : (setLane l x s).trig = s.trig := rfl
@[simp] theorem setLane_cam (l : Nat) (x : Lane) (s : State) : (setLane l x s).cam = s.cam := rfl
@[simp] theorem setLane_ing (l : Nat) (x : Lane) (s : State) : (setLane l x s).ing = s.ing := rfl
@[simp] theorem setLane_fab (l : Nat) (x : Lane) (s : State) : (setLane l x s).fab = s.fab := rfl
@[simp] theorem setLane_fault (l : Nat) (x : Lane) (s : State) : (setLane l x s).fault = s.fault := rfl
@[simp] theorem setLane_trel (l : Nat) (x : Lane) (s : State) : (setLane l x s).trel = s.trel := rfl
@[simp] theorem setLane_cal (l : Nat) (x : Lane) (s : State) : (setLane l x s).cal = s.cal := rfl
@[simp] theorem setLane_deliv (l : Nat) (x : Lane) (s : State) : (setLane l x s).deliv = s.deliv := rfl

@[simp] theorem setGraft_pending (g : Nat) (x : Graft) (s : State) : (setGraft g x s).pending = s.pending := rfl
@[simp] theorem setGraft_outbox (g : Nat) (x : Graft) (s : State) : (setGraft g x s).outbox = s.outbox := rfl
@[simp] theorem setGraft_draws (g : Nat) (x : Graft) (s : State) : (setGraft g x s).draws = s.draws := rfl
@[simp] theorem setGraft_win (g : Nat) (x : Graft) (s : State) : (setGraft g x s).win = s.win := rfl
@[simp] theorem setGraft_mbx (g : Nat) (x : Graft) (s : State) : (setGraft g x s).mbx = s.mbx := rfl
@[simp] theorem setGraft_cfg (g : Nat) (x : Graft) (s : State) : (setGraft g x s).cfg = s.cfg := rfl
@[simp] theorem setGraft_stat (g : Nat) (x : Graft) (s : State) : (setGraft g x s).stat = s.stat := rfl
@[simp] theorem setGraft_ev (g : Nat) (x : Graft) (s : State) : (setGraft g x s).ev = s.ev := rfl
@[simp] theorem setGraft_handoff (g : Nat) (x : Graft) (s : State) : (setGraft g x s).handoff = s.handoff := rfl
@[simp] theorem setGraft_time (g : Nat) (x : Graft) (s : State) : (setGraft g x s).time = s.time := rfl
@[simp] theorem setGraft_pos (g : Nat) (x : Graft) (s : State) : (setGraft g x s).pos = s.pos := rfl
@[simp] theorem setGraft_start (g : Nat) (x : Graft) (s : State) : (setGraft g x s).start = s.start := rfl
@[simp] theorem setGraft_trig (g : Nat) (x : Graft) (s : State) : (setGraft g x s).trig = s.trig := rfl
@[simp] theorem setGraft_cam (g : Nat) (x : Graft) (s : State) : (setGraft g x s).cam = s.cam := rfl
@[simp] theorem setGraft_ing (g : Nat) (x : Graft) (s : State) : (setGraft g x s).ing = s.ing := rfl
@[simp] theorem setGraft_fab (g : Nat) (x : Graft) (s : State) : (setGraft g x s).fab = s.fab := rfl
@[simp] theorem setGraft_fault (g : Nat) (x : Graft) (s : State) : (setGraft g x s).fault = s.fault := rfl
@[simp] theorem setGraft_trel (g : Nat) (x : Graft) (s : State) : (setGraft g x s).trel = s.trel := rfl
@[simp] theorem setGraft_cal (g : Nat) (x : Graft) (s : State) : (setGraft g x s).cal = s.cal := rfl
@[simp] theorem setGraft_deliv (g : Nat) (x : Graft) (s : State) : (setGraft g x s).deliv = s.deliv := rfl

@[simp] theorem setHead_pending (h : Nat) (x : Head) (s : State) : (setHead h x s).pending = s.pending := rfl
@[simp] theorem setHead_outbox (h : Nat) (x : Head) (s : State) : (setHead h x s).outbox = s.outbox := rfl
@[simp] theorem setHead_draws (h : Nat) (x : Head) (s : State) : (setHead h x s).draws = s.draws := rfl
@[simp] theorem setHead_win (h : Nat) (x : Head) (s : State) : (setHead h x s).win = s.win := rfl
@[simp] theorem setHead_mbx (h : Nat) (x : Head) (s : State) : (setHead h x s).mbx = s.mbx := rfl
@[simp] theorem setHead_cfg (h : Nat) (x : Head) (s : State) : (setHead h x s).cfg = s.cfg := rfl
@[simp] theorem setHead_stat (h : Nat) (x : Head) (s : State) : (setHead h x s).stat = s.stat := rfl
@[simp] theorem setHead_ev (h : Nat) (x : Head) (s : State) : (setHead h x s).ev = s.ev := rfl
@[simp] theorem setHead_handoff (h : Nat) (x : Head) (s : State) : (setHead h x s).handoff = s.handoff := rfl
@[simp] theorem setHead_time (h : Nat) (x : Head) (s : State) : (setHead h x s).time = s.time := rfl
@[simp] theorem setHead_pos (h : Nat) (x : Head) (s : State) : (setHead h x s).pos = s.pos := rfl
@[simp] theorem setHead_start (h : Nat) (x : Head) (s : State) : (setHead h x s).start = s.start := rfl
@[simp] theorem setHead_trig (h : Nat) (x : Head) (s : State) : (setHead h x s).trig = s.trig := rfl
@[simp] theorem setHead_lane (h : Nat) (x : Head) (s : State) : (setHead h x s).lane = s.lane := rfl
@[simp] theorem setHead_ing (h : Nat) (x : Head) (s : State) : (setHead h x s).ing = s.ing := rfl
@[simp] theorem setHead_fab (h : Nat) (x : Head) (s : State) : (setHead h x s).fab = s.fab := rfl
@[simp] theorem setHead_fault (h : Nat) (x : Head) (s : State) : (setHead h x s).fault = s.fault := rfl
@[simp] theorem setHead_trel (h : Nat) (x : Head) (s : State) : (setHead h x s).trel = s.trel := rfl
@[simp] theorem setHead_cal (h : Nat) (x : Head) (s : State) : (setHead h x s).cal = s.cal := rfl
@[simp] theorem setHead_deliv (h : Nat) (x : Head) (s : State) : (setHead h x s).deliv = s.deliv := rfl

@[simp] theorem setChan7_pending (n : Nat) (x : Chan7) (s : State) : (setChan7 n x s).pending = s.pending := rfl
@[simp] theorem setChan7_outbox (n : Nat) (x : Chan7) (s : State) : (setChan7 n x s).outbox = s.outbox := rfl
@[simp] theorem setChan7_draws (n : Nat) (x : Chan7) (s : State) : (setChan7 n x s).draws = s.draws := rfl
@[simp] theorem setChan7_win (n : Nat) (x : Chan7) (s : State) : (setChan7 n x s).win = s.win := rfl
@[simp] theorem setChan7_mbx (n : Nat) (x : Chan7) (s : State) : (setChan7 n x s).mbx = s.mbx := rfl
@[simp] theorem setChan7_cfg (n : Nat) (x : Chan7) (s : State) : (setChan7 n x s).cfg = s.cfg := rfl
@[simp] theorem setChan7_stat (n : Nat) (x : Chan7) (s : State) : (setChan7 n x s).stat = s.stat := rfl
@[simp] theorem setChan7_ev (n : Nat) (x : Chan7) (s : State) : (setChan7 n x s).ev = s.ev := rfl
@[simp] theorem setChan7_handoff (n : Nat) (x : Chan7) (s : State) : (setChan7 n x s).handoff = s.handoff := rfl
@[simp] theorem setChan7_time (n : Nat) (x : Chan7) (s : State) : (setChan7 n x s).time = s.time := rfl
@[simp] theorem setChan7_pos (n : Nat) (x : Chan7) (s : State) : (setChan7 n x s).pos = s.pos := rfl
@[simp] theorem setChan7_start (n : Nat) (x : Chan7) (s : State) : (setChan7 n x s).start = s.start := rfl
@[simp] theorem setChan7_trig (n : Nat) (x : Chan7) (s : State) : (setChan7 n x s).trig = s.trig := rfl
@[simp] theorem setChan7_lane (n : Nat) (x : Chan7) (s : State) : (setChan7 n x s).lane = s.lane := rfl
@[simp] theorem setChan7_ing (n : Nat) (x : Chan7) (s : State) : (setChan7 n x s).ing = s.ing := rfl
@[simp] theorem setChan7_fab (n : Nat) (x : Chan7) (s : State) : (setChan7 n x s).fab = s.fab := rfl
@[simp] theorem setChan7_fault (n : Nat) (x : Chan7) (s : State) : (setChan7 n x s).fault = s.fault := rfl
@[simp] theorem setChan7_trel (n : Nat) (x : Chan7) (s : State) : (setChan7 n x s).trel = s.trel := rfl
@[simp] theorem setChan7_cal (n : Nat) (x : Chan7) (s : State) : (setChan7 n x s).cal = s.cal := rfl
@[simp] theorem setChan7_deliv (n : Nat) (x : Chan7) (s : State) : (setChan7 n x s).deliv = s.deliv := rfl

@[simp] theorem setStreamSt_pending (n : Nat) (x : StreamSt) (s : State) : (setStreamSt n x s).pending = s.pending := rfl
@[simp] theorem setStreamSt_outbox (n : Nat) (x : StreamSt) (s : State) : (setStreamSt n x s).outbox = s.outbox := rfl
@[simp] theorem setStreamSt_draws (n : Nat) (x : StreamSt) (s : State) : (setStreamSt n x s).draws = s.draws := rfl
@[simp] theorem setStreamSt_win (n : Nat) (x : StreamSt) (s : State) : (setStreamSt n x s).win = s.win := rfl
@[simp] theorem setStreamSt_mbx (n : Nat) (x : StreamSt) (s : State) : (setStreamSt n x s).mbx = s.mbx := rfl
@[simp] theorem setStreamSt_cfg (n : Nat) (x : StreamSt) (s : State) : (setStreamSt n x s).cfg = s.cfg := rfl
@[simp] theorem setStreamSt_stat (n : Nat) (x : StreamSt) (s : State) : (setStreamSt n x s).stat = s.stat := rfl
@[simp] theorem setStreamSt_ev (n : Nat) (x : StreamSt) (s : State) : (setStreamSt n x s).ev = s.ev := rfl
@[simp] theorem setStreamSt_handoff (n : Nat) (x : StreamSt) (s : State) : (setStreamSt n x s).handoff = s.handoff := rfl
@[simp] theorem setStreamSt_time (n : Nat) (x : StreamSt) (s : State) : (setStreamSt n x s).time = s.time := rfl
@[simp] theorem setStreamSt_pos (n : Nat) (x : StreamSt) (s : State) : (setStreamSt n x s).pos = s.pos := rfl
@[simp] theorem setStreamSt_start (n : Nat) (x : StreamSt) (s : State) : (setStreamSt n x s).start = s.start := rfl
@[simp] theorem setStreamSt_trig (n : Nat) (x : StreamSt) (s : State) : (setStreamSt n x s).trig = s.trig := rfl
@[simp] theorem setStreamSt_lane (n : Nat) (x : StreamSt) (s : State) : (setStreamSt n x s).lane = s.lane := rfl
@[simp] theorem setStreamSt_cam (n : Nat) (x : StreamSt) (s : State) : (setStreamSt n x s).cam = s.cam := rfl
@[simp] theorem setStreamSt_fab (n : Nat) (x : StreamSt) (s : State) : (setStreamSt n x s).fab = s.fab := rfl
@[simp] theorem setStreamSt_fault (n : Nat) (x : StreamSt) (s : State) : (setStreamSt n x s).fault = s.fault := rfl
@[simp] theorem setStreamSt_trel (n : Nat) (x : StreamSt) (s : State) : (setStreamSt n x s).trel = s.trel := rfl
@[simp] theorem setStreamSt_cal (n : Nat) (x : StreamSt) (s : State) : (setStreamSt n x s).cal = s.cal := rfl
@[simp] theorem setStreamSt_deliv (n : Nat) (x : StreamSt) (s : State) : (setStreamSt n x s).deliv = s.deliv := rfl

@[simp] theorem setBed_pending (b : Nat) (x : Bed) (s : State) : (setBed b x s).pending = s.pending := rfl
@[simp] theorem setBed_outbox (b : Nat) (x : Bed) (s : State) : (setBed b x s).outbox = s.outbox := rfl
@[simp] theorem setBed_draws (b : Nat) (x : Bed) (s : State) : (setBed b x s).draws = s.draws := rfl
@[simp] theorem setBed_win (b : Nat) (x : Bed) (s : State) : (setBed b x s).win = s.win := rfl
@[simp] theorem setBed_mbx (b : Nat) (x : Bed) (s : State) : (setBed b x s).mbx = s.mbx := rfl
@[simp] theorem setBed_cfg (b : Nat) (x : Bed) (s : State) : (setBed b x s).cfg = s.cfg := rfl
@[simp] theorem setBed_stat (b : Nat) (x : Bed) (s : State) : (setBed b x s).stat = s.stat := rfl
@[simp] theorem setBed_ev (b : Nat) (x : Bed) (s : State) : (setBed b x s).ev = s.ev := rfl
@[simp] theorem setBed_handoff (b : Nat) (x : Bed) (s : State) : (setBed b x s).handoff = s.handoff := rfl
@[simp] theorem setBed_time (b : Nat) (x : Bed) (s : State) : (setBed b x s).time = s.time := rfl
@[simp] theorem setBed_pos (b : Nat) (x : Bed) (s : State) : (setBed b x s).pos = s.pos := rfl
@[simp] theorem setBed_start (b : Nat) (x : Bed) (s : State) : (setBed b x s).start = s.start := rfl
@[simp] theorem setBed_trig (b : Nat) (x : Bed) (s : State) : (setBed b x s).trig = s.trig := rfl
@[simp] theorem setBed_lane (b : Nat) (x : Bed) (s : State) : (setBed b x s).lane = s.lane := rfl
@[simp] theorem setBed_cam (b : Nat) (x : Bed) (s : State) : (setBed b x s).cam = s.cam := rfl
@[simp] theorem setBed_fab (b : Nat) (x : Bed) (s : State) : (setBed b x s).fab = s.fab := rfl
@[simp] theorem setBed_fault (b : Nat) (x : Bed) (s : State) : (setBed b x s).fault = s.fault := rfl
@[simp] theorem setBed_trel (b : Nat) (x : Bed) (s : State) : (setBed b x s).trel = s.trel := rfl
@[simp] theorem setBed_cal (b : Nat) (x : Bed) (s : State) : (setBed b x s).cal = s.cal := rfl
@[simp] theorem setBed_deliv (b : Nat) (x : Bed) (s : State) : (setBed b x s).deliv = s.deliv := rfl

@[simp] theorem setLb_pending (x : LookBack) (s : State) : (setLb x s).pending = s.pending := rfl
@[simp] theorem setLb_outbox (x : LookBack) (s : State) : (setLb x s).outbox = s.outbox := rfl
@[simp] theorem setLb_draws (x : LookBack) (s : State) : (setLb x s).draws = s.draws := rfl
@[simp] theorem setLb_win (x : LookBack) (s : State) : (setLb x s).win = s.win := rfl
@[simp] theorem setLb_mbx (x : LookBack) (s : State) : (setLb x s).mbx = s.mbx := rfl
@[simp] theorem setLb_cfg (x : LookBack) (s : State) : (setLb x s).cfg = s.cfg := rfl
@[simp] theorem setLb_stat (x : LookBack) (s : State) : (setLb x s).stat = s.stat := rfl
@[simp] theorem setLb_ev (x : LookBack) (s : State) : (setLb x s).ev = s.ev := rfl
@[simp] theorem setLb_handoff (x : LookBack) (s : State) : (setLb x s).handoff = s.handoff := rfl
@[simp] theorem setLb_time (x : LookBack) (s : State) : (setLb x s).time = s.time := rfl
@[simp] theorem setLb_pos (x : LookBack) (s : State) : (setLb x s).pos = s.pos := rfl
@[simp] theorem setLb_start (x : LookBack) (s : State) : (setLb x s).start = s.start := rfl
@[simp] theorem setLb_trig (x : LookBack) (s : State) : (setLb x s).trig = s.trig := rfl
@[simp] theorem setLb_lane (x : LookBack) (s : State) : (setLb x s).lane = s.lane := rfl
@[simp] theorem setLb_cam (x : LookBack) (s : State) : (setLb x s).cam = s.cam := rfl
@[simp] theorem setLb_fab (x : LookBack) (s : State) : (setLb x s).fab = s.fab := rfl
@[simp] theorem setLb_fault (x : LookBack) (s : State) : (setLb x s).fault = s.fault := rfl
@[simp] theorem setLb_trel (x : LookBack) (s : State) : (setLb x s).trel = s.trel := rfl
@[simp] theorem setLb_cal (x : LookBack) (s : State) : (setLb x s).cal = s.cal := rfl
@[simp] theorem setLb_deliv (x : LookBack) (s : State) : (setLb x s).deliv = s.deliv := rfl

@[simp] theorem setGraph_pending (g : Nat) (x : GraphSt) (s : State) : (setGraph g x s).pending = s.pending := rfl
@[simp] theorem setGraph_outbox (g : Nat) (x : GraphSt) (s : State) : (setGraph g x s).outbox = s.outbox := rfl
@[simp] theorem setGraph_draws (g : Nat) (x : GraphSt) (s : State) : (setGraph g x s).draws = s.draws := rfl
@[simp] theorem setGraph_win (g : Nat) (x : GraphSt) (s : State) : (setGraph g x s).win = s.win := rfl
@[simp] theorem setGraph_mbx (g : Nat) (x : GraphSt) (s : State) : (setGraph g x s).mbx = s.mbx := rfl
@[simp] theorem setGraph_cfg (g : Nat) (x : GraphSt) (s : State) : (setGraph g x s).cfg = s.cfg := rfl
@[simp] theorem setGraph_stat (g : Nat) (x : GraphSt) (s : State) : (setGraph g x s).stat = s.stat := rfl
@[simp] theorem setGraph_ev (g : Nat) (x : GraphSt) (s : State) : (setGraph g x s).ev = s.ev := rfl
@[simp] theorem setGraph_handoff (g : Nat) (x : GraphSt) (s : State) : (setGraph g x s).handoff = s.handoff := rfl
@[simp] theorem setGraph_time (g : Nat) (x : GraphSt) (s : State) : (setGraph g x s).time = s.time := rfl
@[simp] theorem setGraph_pos (g : Nat) (x : GraphSt) (s : State) : (setGraph g x s).pos = s.pos := rfl
@[simp] theorem setGraph_start (g : Nat) (x : GraphSt) (s : State) : (setGraph g x s).start = s.start := rfl
@[simp] theorem setGraph_trig (g : Nat) (x : GraphSt) (s : State) : (setGraph g x s).trig = s.trig := rfl
@[simp] theorem setGraph_lane (g : Nat) (x : GraphSt) (s : State) : (setGraph g x s).lane = s.lane := rfl
@[simp] theorem setGraph_cam (g : Nat) (x : GraphSt) (s : State) : (setGraph g x s).cam = s.cam := rfl
@[simp] theorem setGraph_ing (g : Nat) (x : GraphSt) (s : State) : (setGraph g x s).ing = s.ing := rfl
@[simp] theorem setGraph_fault (g : Nat) (x : GraphSt) (s : State) : (setGraph g x s).fault = s.fault := rfl
@[simp] theorem setGraph_trel (g : Nat) (x : GraphSt) (s : State) : (setGraph g x s).trel = s.trel := rfl
@[simp] theorem setGraph_cal (g : Nat) (x : GraphSt) (s : State) : (setGraph g x s).cal = s.cal := rfl
@[simp] theorem setGraph_deliv (g : Nat) (x : GraphSt) (s : State) : (setGraph g x s).deliv = s.deliv := rfl

@[simp] theorem setRgn_pending (r : Rgn) (s : State) : (setRgn r s).pending = s.pending := rfl
@[simp] theorem setRgn_outbox (r : Rgn) (s : State) : (setRgn r s).outbox = s.outbox := rfl
@[simp] theorem setRgn_draws (r : Rgn) (s : State) : (setRgn r s).draws = s.draws := rfl
@[simp] theorem setRgn_win (r : Rgn) (s : State) : (setRgn r s).win = s.win := rfl
@[simp] theorem setRgn_mbx (r : Rgn) (s : State) : (setRgn r s).mbx = s.mbx := rfl
@[simp] theorem setRgn_cfg (r : Rgn) (s : State) : (setRgn r s).cfg = s.cfg := rfl
@[simp] theorem setRgn_stat (r : Rgn) (s : State) : (setRgn r s).stat = s.stat := rfl
@[simp] theorem setRgn_ev (r : Rgn) (s : State) : (setRgn r s).ev = s.ev := rfl
@[simp] theorem setRgn_handoff (r : Rgn) (s : State) : (setRgn r s).handoff = s.handoff := rfl
@[simp] theorem setRgn_time (r : Rgn) (s : State) : (setRgn r s).time = s.time := rfl
@[simp] theorem setRgn_pos (r : Rgn) (s : State) : (setRgn r s).pos = s.pos := rfl
@[simp] theorem setRgn_start (r : Rgn) (s : State) : (setRgn r s).start = s.start := rfl
@[simp] theorem setRgn_trig (r : Rgn) (s : State) : (setRgn r s).trig = s.trig := rfl
@[simp] theorem setRgn_lane (r : Rgn) (s : State) : (setRgn r s).lane = s.lane := rfl
@[simp] theorem setRgn_cam (r : Rgn) (s : State) : (setRgn r s).cam = s.cam := rfl
@[simp] theorem setRgn_ing (r : Rgn) (s : State) : (setRgn r s).ing = s.ing := rfl
@[simp] theorem setRgn_fault (r : Rgn) (s : State) : (setRgn r s).fault = s.fault := rfl
@[simp] theorem setRgn_trel (r : Rgn) (s : State) : (setRgn r s).trel = s.trel := rfl
@[simp] theorem setRgn_cal (r : Rgn) (s : State) : (setRgn r s).cal = s.cal := rfl
@[simp] theorem setRgn_deliv (r : Rgn) (s : State) : (setRgn r s).deliv = s.deliv := rfl

@[simp] theorem setSlot_pending (f : Fn) (n : Nat) (x : Slot) (s : State) : (setSlot f n x s).pending = s.pending := rfl
@[simp] theorem setSlot_outbox (f : Fn) (n : Nat) (x : Slot) (s : State) : (setSlot f n x s).outbox = s.outbox := rfl
@[simp] theorem setSlot_draws (f : Fn) (n : Nat) (x : Slot) (s : State) : (setSlot f n x s).draws = s.draws := rfl
@[simp] theorem setSlot_mbx (f : Fn) (n : Nat) (x : Slot) (s : State) : (setSlot f n x s).mbx = s.mbx := rfl
@[simp] theorem setSlot_cfg (f : Fn) (n : Nat) (x : Slot) (s : State) : (setSlot f n x s).cfg = s.cfg := rfl
@[simp] theorem setSlot_stat (f : Fn) (n : Nat) (x : Slot) (s : State) : (setSlot f n x s).stat = s.stat := rfl
@[simp] theorem setSlot_ev (f : Fn) (n : Nat) (x : Slot) (s : State) : (setSlot f n x s).ev = s.ev := rfl
@[simp] theorem setSlot_handoff (f : Fn) (n : Nat) (x : Slot) (s : State) : (setSlot f n x s).handoff = s.handoff := rfl
@[simp] theorem setSlot_time (f : Fn) (n : Nat) (x : Slot) (s : State) : (setSlot f n x s).time = s.time := rfl
@[simp] theorem setSlot_pos (f : Fn) (n : Nat) (x : Slot) (s : State) : (setSlot f n x s).pos = s.pos := rfl
@[simp] theorem setSlot_start (f : Fn) (n : Nat) (x : Slot) (s : State) : (setSlot f n x s).start = s.start := rfl
@[simp] theorem setSlot_trig (f : Fn) (n : Nat) (x : Slot) (s : State) : (setSlot f n x s).trig = s.trig := rfl
@[simp] theorem setSlot_lane (f : Fn) (n : Nat) (x : Slot) (s : State) : (setSlot f n x s).lane = s.lane := rfl
@[simp] theorem setSlot_cam (f : Fn) (n : Nat) (x : Slot) (s : State) : (setSlot f n x s).cam = s.cam := rfl
@[simp] theorem setSlot_ing (f : Fn) (n : Nat) (x : Slot) (s : State) : (setSlot f n x s).ing = s.ing := rfl
@[simp] theorem setSlot_fab (f : Fn) (n : Nat) (x : Slot) (s : State) : (setSlot f n x s).fab = s.fab := rfl
@[simp] theorem setSlot_fault (f : Fn) (n : Nat) (x : Slot) (s : State) : (setSlot f n x s).fault = s.fault := rfl
@[simp] theorem setSlot_trel (f : Fn) (n : Nat) (x : Slot) (s : State) : (setSlot f n x s).trel = s.trel := rfl
@[simp] theorem setSlot_cal (f : Fn) (n : Nat) (x : Slot) (s : State) : (setSlot f n x s).cal = s.cal := rfl
@[simp] theorem setSlot_deliv (f : Fn) (n : Nat) (x : Slot) (s : State) : (setSlot f n x s).deliv = s.deliv := rfl

@[simp] theorem slotWrite_pending (f : Fn) (n off : Nat) (b : Bytes) (s : State) : (slotWrite f n off b s).pending = s.pending := rfl
@[simp] theorem slotWrite_outbox (f : Fn) (n off : Nat) (b : Bytes) (s : State) : (slotWrite f n off b s).outbox = s.outbox := rfl
@[simp] theorem slotWrite_draws (f : Fn) (n off : Nat) (b : Bytes) (s : State) : (slotWrite f n off b s).draws = s.draws := rfl
@[simp] theorem slotWrite_mbx (f : Fn) (n off : Nat) (b : Bytes) (s : State) : (slotWrite f n off b s).mbx = s.mbx := rfl
@[simp] theorem slotWrite_cfg (f : Fn) (n off : Nat) (b : Bytes) (s : State) : (slotWrite f n off b s).cfg = s.cfg := rfl
@[simp] theorem slotWrite_stat (f : Fn) (n off : Nat) (b : Bytes) (s : State) : (slotWrite f n off b s).stat = s.stat := rfl
@[simp] theorem slotWrite_ev (f : Fn) (n off : Nat) (b : Bytes) (s : State) : (slotWrite f n off b s).ev = s.ev := rfl
@[simp] theorem slotWrite_handoff (f : Fn) (n off : Nat) (b : Bytes) (s : State) : (slotWrite f n off b s).handoff = s.handoff := rfl
@[simp] theorem slotWrite_time (f : Fn) (n off : Nat) (b : Bytes) (s : State) : (slotWrite f n off b s).time = s.time := rfl
@[simp] theorem slotWrite_pos (f : Fn) (n off : Nat) (b : Bytes) (s : State) : (slotWrite f n off b s).pos = s.pos := rfl
@[simp] theorem slotWrite_start (f : Fn) (n off : Nat) (b : Bytes) (s : State) : (slotWrite f n off b s).start = s.start := rfl
@[simp] theorem slotWrite_trig (f : Fn) (n off : Nat) (b : Bytes) (s : State) : (slotWrite f n off b s).trig = s.trig := rfl
@[simp] theorem slotWrite_lane (f : Fn) (n off : Nat) (b : Bytes) (s : State) : (slotWrite f n off b s).lane = s.lane := rfl
@[simp] theorem slotWrite_cam (f : Fn) (n off : Nat) (b : Bytes) (s : State) : (slotWrite f n off b s).cam = s.cam := rfl
@[simp] theorem slotWrite_ing (f : Fn) (n off : Nat) (b : Bytes) (s : State) : (slotWrite f n off b s).ing = s.ing := rfl
@[simp] theorem slotWrite_fab (f : Fn) (n off : Nat) (b : Bytes) (s : State) : (slotWrite f n off b s).fab = s.fab := rfl
@[simp] theorem slotWrite_fault (f : Fn) (n off : Nat) (b : Bytes) (s : State) : (slotWrite f n off b s).fault = s.fault := rfl
@[simp] theorem slotWrite_trel (f : Fn) (n off : Nat) (b : Bytes) (s : State) : (slotWrite f n off b s).trel = s.trel := rfl
@[simp] theorem slotWrite_cal (f : Fn) (n off : Nat) (b : Bytes) (s : State) : (slotWrite f n off b s).cal = s.cal := rfl
@[simp] theorem slotWrite_deliv (f : Fn) (n off : Nat) (b : Bytes) (s : State) : (slotWrite f n off b s).deliv = s.deliv := rfl

@[simp] theorem setMarks_pending (m : List Mark) (s : State) : (setMarks m s).pending = s.pending := rfl
@[simp] theorem setMarks_outbox (m : List Mark) (s : State) : (setMarks m s).outbox = s.outbox := rfl
@[simp] theorem setMarks_draws (m : List Mark) (s : State) : (setMarks m s).draws = s.draws := rfl
@[simp] theorem setMarks_win (m : List Mark) (s : State) : (setMarks m s).win = s.win := rfl
@[simp] theorem setMarks_mbx (m : List Mark) (s : State) : (setMarks m s).mbx = s.mbx := rfl
@[simp] theorem setMarks_cfg (m : List Mark) (s : State) : (setMarks m s).cfg = s.cfg := rfl
@[simp] theorem setMarks_stat (m : List Mark) (s : State) : (setMarks m s).stat = s.stat := rfl
@[simp] theorem setMarks_ev (m : List Mark) (s : State) : (setMarks m s).ev = s.ev := rfl
@[simp] theorem setMarks_handoff (m : List Mark) (s : State) : (setMarks m s).handoff = s.handoff := rfl
@[simp] theorem setMarks_time (m : List Mark) (s : State) : (setMarks m s).time = s.time := rfl
@[simp] theorem setMarks_pos (m : List Mark) (s : State) : (setMarks m s).pos = s.pos := rfl
@[simp] theorem setMarks_start (m : List Mark) (s : State) : (setMarks m s).start = s.start := rfl
@[simp] theorem setMarks_lane (m : List Mark) (s : State) : (setMarks m s).lane = s.lane := rfl
@[simp] theorem setMarks_cam (m : List Mark) (s : State) : (setMarks m s).cam = s.cam := rfl
@[simp] theorem setMarks_ing (m : List Mark) (s : State) : (setMarks m s).ing = s.ing := rfl
@[simp] theorem setMarks_fab (m : List Mark) (s : State) : (setMarks m s).fab = s.fab := rfl
@[simp] theorem setMarks_fault (m : List Mark) (s : State) : (setMarks m s).fault = s.fault := rfl
@[simp] theorem setMarks_trel (m : List Mark) (s : State) : (setMarks m s).trel = s.trel := rfl
@[simp] theorem setMarks_cal (m : List Mark) (s : State) : (setMarks m s).cal = s.cal := rfl
@[simp] theorem setMarks_deliv (m : List Mark) (s : State) : (setMarks m s).deliv = s.deliv := rfl

@[simp] theorem emit_pending (o : Out) (s : State) : (emit o s).pending = s.pending := rfl
@[simp] theorem emit_draws (o : Out) (s : State) : (emit o s).draws = s.draws := rfl
@[simp] theorem emit_win (o : Out) (s : State) : (emit o s).win = s.win := rfl
@[simp] theorem emit_mbx (o : Out) (s : State) : (emit o s).mbx = s.mbx := rfl
@[simp] theorem emit_cfg (o : Out) (s : State) : (emit o s).cfg = s.cfg := rfl
@[simp] theorem emit_stat (o : Out) (s : State) : (emit o s).stat = s.stat := rfl
@[simp] theorem emit_ev (o : Out) (s : State) : (emit o s).ev = s.ev := rfl
@[simp] theorem emit_handoff (o : Out) (s : State) : (emit o s).handoff = s.handoff := rfl
@[simp] theorem emit_time (o : Out) (s : State) : (emit o s).time = s.time := rfl
@[simp] theorem emit_pos (o : Out) (s : State) : (emit o s).pos = s.pos := rfl
@[simp] theorem emit_start (o : Out) (s : State) : (emit o s).start = s.start := rfl
@[simp] theorem emit_trig (o : Out) (s : State) : (emit o s).trig = s.trig := rfl
@[simp] theorem emit_lane (o : Out) (s : State) : (emit o s).lane = s.lane := rfl
@[simp] theorem emit_cam (o : Out) (s : State) : (emit o s).cam = s.cam := rfl
@[simp] theorem emit_ing (o : Out) (s : State) : (emit o s).ing = s.ing := rfl
@[simp] theorem emit_fab (o : Out) (s : State) : (emit o s).fab = s.fab := rfl
@[simp] theorem emit_fault (o : Out) (s : State) : (emit o s).fault = s.fault := rfl
@[simp] theorem emit_trel (o : Out) (s : State) : (emit o s).trel = s.trel := rfl
@[simp] theorem emit_cal (o : Out) (s : State) : (emit o s).cal = s.cal := rfl
@[simp] theorem emit_deliv (o : Out) (s : State) : (emit o s).deliv = s.deliv := rfl

@[simp] theorem draw_pending (s : State) : (draw s).pending = s.pending := rfl
@[simp] theorem draw_outbox (s : State) : (draw s).outbox = s.outbox := rfl
@[simp] theorem draw_win (s : State) : (draw s).win = s.win := rfl
@[simp] theorem draw_mbx (s : State) : (draw s).mbx = s.mbx := rfl
@[simp] theorem draw_cfg (s : State) : (draw s).cfg = s.cfg := rfl
@[simp] theorem draw_stat (s : State) : (draw s).stat = s.stat := rfl
@[simp] theorem draw_ev (s : State) : (draw s).ev = s.ev := rfl
@[simp] theorem draw_handoff (s : State) : (draw s).handoff = s.handoff := rfl
@[simp] theorem draw_time (s : State) : (draw s).time = s.time := rfl
@[simp] theorem draw_pos (s : State) : (draw s).pos = s.pos := rfl
@[simp] theorem draw_start (s : State) : (draw s).start = s.start := rfl
@[simp] theorem draw_trig (s : State) : (draw s).trig = s.trig := rfl
@[simp] theorem draw_lane (s : State) : (draw s).lane = s.lane := rfl
@[simp] theorem draw_cam (s : State) : (draw s).cam = s.cam := rfl
@[simp] theorem draw_ing (s : State) : (draw s).ing = s.ing := rfl
@[simp] theorem draw_fab (s : State) : (draw s).fab = s.fab := rfl
@[simp] theorem draw_fault (s : State) : (draw s).fault = s.fault := rfl
@[simp] theorem draw_trel (s : State) : (draw s).trel = s.trel := rfl
@[simp] theorem draw_cal (s : State) : (draw s).cal = s.cal := rfl
@[simp] theorem draw_deliv (s : State) : (draw s).deliv = s.deliv := rfl

@[simp] theorem bumpBy_pending (f i n : Nat) (s : State) : (bumpBy f i n s).pending = s.pending := rfl
@[simp] theorem bumpBy_outbox (f i n : Nat) (s : State) : (bumpBy f i n s).outbox = s.outbox := rfl
@[simp] theorem bumpBy_draws (f i n : Nat) (s : State) : (bumpBy f i n s).draws = s.draws := rfl
@[simp] theorem bumpBy_win (f i n : Nat) (s : State) : (bumpBy f i n s).win = s.win := rfl
@[simp] theorem bumpBy_mbx (f i n : Nat) (s : State) : (bumpBy f i n s).mbx = s.mbx := rfl
@[simp] theorem bumpBy_cfg (f i n : Nat) (s : State) : (bumpBy f i n s).cfg = s.cfg := rfl
@[simp] theorem bumpBy_ev (f i n : Nat) (s : State) : (bumpBy f i n s).ev = s.ev := rfl
@[simp] theorem bumpBy_handoff (f i n : Nat) (s : State) : (bumpBy f i n s).handoff = s.handoff := rfl
@[simp] theorem bumpBy_time (f i n : Nat) (s : State) : (bumpBy f i n s).time = s.time := rfl
@[simp] theorem bumpBy_pos (f i n : Nat) (s : State) : (bumpBy f i n s).pos = s.pos := rfl
@[simp] theorem bumpBy_start (f i n : Nat) (s : State) : (bumpBy f i n s).start = s.start := rfl
@[simp] theorem bumpBy_trig (f i n : Nat) (s : State) : (bumpBy f i n s).trig = s.trig := rfl
@[simp] theorem bumpBy_lane (f i n : Nat) (s : State) : (bumpBy f i n s).lane = s.lane := rfl
@[simp] theorem bumpBy_cam (f i n : Nat) (s : State) : (bumpBy f i n s).cam = s.cam := rfl
@[simp] theorem bumpBy_ing (f i n : Nat) (s : State) : (bumpBy f i n s).ing = s.ing := rfl
@[simp] theorem bumpBy_fab (f i n : Nat) (s : State) : (bumpBy f i n s).fab = s.fab := rfl
@[simp] theorem bumpBy_fault (f i n : Nat) (s : State) : (bumpBy f i n s).fault = s.fault := rfl
@[simp] theorem bumpBy_trel (f i n : Nat) (s : State) : (bumpBy f i n s).trel = s.trel := rfl
@[simp] theorem bumpBy_cal (f i n : Nat) (s : State) : (bumpBy f i n s).cal = s.cal := rfl
@[simp] theorem bumpBy_deliv (f i n : Nat) (s : State) : (bumpBy f i n s).deliv = s.deliv := rfl

@[simp] theorem setFnRegs_pending (f : Fn) (r : FnRegs) (s : State) : (setFnRegs f r s).pending = s.pending := rfl
@[simp] theorem setFnRegs_outbox (f : Fn) (r : FnRegs) (s : State) : (setFnRegs f r s).outbox = s.outbox := rfl
@[simp] theorem setFnRegs_draws (f : Fn) (r : FnRegs) (s : State) : (setFnRegs f r s).draws = s.draws := rfl
@[simp] theorem setFnRegs_mbx (f : Fn) (r : FnRegs) (s : State) : (setFnRegs f r s).mbx = s.mbx := rfl
@[simp] theorem setFnRegs_cfg (f : Fn) (r : FnRegs) (s : State) : (setFnRegs f r s).cfg = s.cfg := rfl
@[simp] theorem setFnRegs_stat (f : Fn) (r : FnRegs) (s : State) : (setFnRegs f r s).stat = s.stat := rfl
@[simp] theorem setFnRegs_ev (f : Fn) (r : FnRegs) (s : State) : (setFnRegs f r s).ev = s.ev := rfl
@[simp] theorem setFnRegs_handoff (f : Fn) (r : FnRegs) (s : State) : (setFnRegs f r s).handoff = s.handoff := rfl
@[simp] theorem setFnRegs_time (f : Fn) (r : FnRegs) (s : State) : (setFnRegs f r s).time = s.time := rfl
@[simp] theorem setFnRegs_pos (f : Fn) (r : FnRegs) (s : State) : (setFnRegs f r s).pos = s.pos := rfl
@[simp] theorem setFnRegs_start (f : Fn) (r : FnRegs) (s : State) : (setFnRegs f r s).start = s.start := rfl
@[simp] theorem setFnRegs_trig (f : Fn) (r : FnRegs) (s : State) : (setFnRegs f r s).trig = s.trig := rfl
@[simp] theorem setFnRegs_lane (f : Fn) (r : FnRegs) (s : State) : (setFnRegs f r s).lane = s.lane := rfl
@[simp] theorem setFnRegs_cam (f : Fn) (r : FnRegs) (s : State) : (setFnRegs f r s).cam = s.cam := rfl
@[simp] theorem setFnRegs_ing (f : Fn) (r : FnRegs) (s : State) : (setFnRegs f r s).ing = s.ing := rfl
@[simp] theorem setFnRegs_fab (f : Fn) (r : FnRegs) (s : State) : (setFnRegs f r s).fab = s.fab := rfl
@[simp] theorem setFnRegs_fault (f : Fn) (r : FnRegs) (s : State) : (setFnRegs f r s).fault = s.fault := rfl
@[simp] theorem setFnRegs_trel (f : Fn) (r : FnRegs) (s : State) : (setFnRegs f r s).trel = s.trel := rfl
@[simp] theorem setFnRegs_cal (f : Fn) (r : FnRegs) (s : State) : (setFnRegs f r s).cal = s.cal := rfl
@[simp] theorem setFnRegs_deliv (f : Fn) (r : FnRegs) (s : State) : (setFnRegs f r s).deliv = s.deliv := rfl

@[simp] theorem setView_pending (v : Nat) (x : View) (s : State) : (setView v x s).pending = s.pending := by unfold setView; split <;> rfl
@[simp] theorem setView_outbox (v : Nat) (x : View) (s : State) : (setView v x s).outbox = s.outbox := by unfold setView; split <;> rfl
@[simp] theorem setView_draws (v : Nat) (x : View) (s : State) : (setView v x s).draws = s.draws := by unfold setView; split <;> rfl
@[simp] theorem setView_win (v : Nat) (x : View) (s : State) : (setView v x s).win = s.win := by unfold setView; split <;> rfl
@[simp] theorem setView_mbx (v : Nat) (x : View) (s : State) : (setView v x s).mbx = s.mbx := by unfold setView; split <;> rfl
@[simp] theorem setView_cfg (v : Nat) (x : View) (s : State) : (setView v x s).cfg = s.cfg := by unfold setView; split <;> rfl
@[simp] theorem setView_stat (v : Nat) (x : View) (s : State) : (setView v x s).stat = s.stat := by unfold setView; split <;> rfl
@[simp] theorem setView_ev (v : Nat) (x : View) (s : State) : (setView v x s).ev = s.ev := by unfold setView; split <;> rfl
@[simp] theorem setView_handoff (v : Nat) (x : View) (s : State) : (setView v x s).handoff = s.handoff := by unfold setView; split <;> rfl
@[simp] theorem setView_pos (v : Nat) (x : View) (s : State) : (setView v x s).pos = s.pos := by unfold setView; split <;> rfl
@[simp] theorem setView_start (v : Nat) (x : View) (s : State) : (setView v x s).start = s.start := by unfold setView; split <;> rfl
@[simp] theorem setView_trig (v : Nat) (x : View) (s : State) : (setView v x s).trig = s.trig := by unfold setView; split <;> rfl
@[simp] theorem setView_lane (v : Nat) (x : View) (s : State) : (setView v x s).lane = s.lane := by unfold setView; split <;> rfl
@[simp] theorem setView_cam (v : Nat) (x : View) (s : State) : (setView v x s).cam = s.cam := by unfold setView; split <;> rfl
@[simp] theorem setView_ing (v : Nat) (x : View) (s : State) : (setView v x s).ing = s.ing := by unfold setView; split <;> rfl
@[simp] theorem setView_fab (v : Nat) (x : View) (s : State) : (setView v x s).fab = s.fab := by unfold setView; split <;> rfl
@[simp] theorem setView_fault (v : Nat) (x : View) (s : State) : (setView v x s).fault = s.fault := by unfold setView; split <;> rfl
@[simp] theorem setView_trel (v : Nat) (x : View) (s : State) : (setView v x s).trel = s.trel := by unfold setView; split <;> rfl
@[simp] theorem setView_cal (v : Nat) (x : View) (s : State) : (setView v x s).cal = s.cal := by unfold setView; split <;> rfl
@[simp] theorem setView_deliv (v : Nat) (x : View) (s : State) : (setView v x s).deliv = s.deliv := by unfold setView; split <;> rfl

@[simp] theorem setChan_pending (ch : Nat) (c : Chan) (s : State) : (setChan ch c s).pending = s.pending := rfl
@[simp] theorem setChan_outbox (ch : Nat) (c : Chan) (s : State) : (setChan ch c s).outbox = s.outbox := rfl
@[simp] theorem setChan_draws (ch : Nat) (c : Chan) (s : State) : (setChan ch c s).draws = s.draws := rfl
@[simp] theorem setChan_win (ch : Nat) (c : Chan) (s : State) : (setChan ch c s).win = s.win := rfl
@[simp] theorem setChan_mbx (ch : Nat) (c : Chan) (s : State) : (setChan ch c s).mbx = s.mbx := rfl
@[simp] theorem setChan_cfg (ch : Nat) (c : Chan) (s : State) : (setChan ch c s).cfg = s.cfg := rfl
@[simp] theorem setChan_stat (ch : Nat) (c : Chan) (s : State) : (setChan ch c s).stat = s.stat := rfl
@[simp] theorem setChan_ev (ch : Nat) (c : Chan) (s : State) : (setChan ch c s).ev = s.ev := rfl
@[simp] theorem setChan_handoff (ch : Nat) (c : Chan) (s : State) : (setChan ch c s).handoff = s.handoff := rfl
@[simp] theorem setChan_time (ch : Nat) (c : Chan) (s : State) : (setChan ch c s).time = s.time := rfl
@[simp] theorem setChan_start (ch : Nat) (c : Chan) (s : State) : (setChan ch c s).start = s.start := rfl
@[simp] theorem setChan_trig (ch : Nat) (c : Chan) (s : State) : (setChan ch c s).trig = s.trig := rfl
@[simp] theorem setChan_lane (ch : Nat) (c : Chan) (s : State) : (setChan ch c s).lane = s.lane := rfl
@[simp] theorem setChan_cam (ch : Nat) (c : Chan) (s : State) : (setChan ch c s).cam = s.cam := rfl
@[simp] theorem setChan_ing (ch : Nat) (c : Chan) (s : State) : (setChan ch c s).ing = s.ing := rfl
@[simp] theorem setChan_fab (ch : Nat) (c : Chan) (s : State) : (setChan ch c s).fab = s.fab := rfl
@[simp] theorem setChan_fault (ch : Nat) (c : Chan) (s : State) : (setChan ch c s).fault = s.fault := rfl
@[simp] theorem setChan_trel (ch : Nat) (c : Chan) (s : State) : (setChan ch c s).trel = s.trel := rfl
@[simp] theorem setChan_cal (ch : Nat) (c : Chan) (s : State) : (setChan ch c s).cal = s.cal := rfl
@[simp] theorem setChan_deliv (ch : Nat) (c : Chan) (s : State) : (setChan ch c s).deliv = s.deliv := rfl

@[simp] theorem modSpin_pending (f : Spindle → Spindle) (s : State) : (modSpin f s).pending = s.pending := rfl
@[simp] theorem modSpin_outbox (f : Spindle → Spindle) (s : State) : (modSpin f s).outbox = s.outbox := rfl
@[simp] theorem modSpin_draws (f : Spindle → Spindle) (s : State) : (modSpin f s).draws = s.draws := rfl
@[simp] theorem modSpin_win (f : Spindle → Spindle) (s : State) : (modSpin f s).win = s.win := rfl
@[simp] theorem modSpin_mbx (f : Spindle → Spindle) (s : State) : (modSpin f s).mbx = s.mbx := rfl
@[simp] theorem modSpin_cfg (f : Spindle → Spindle) (s : State) : (modSpin f s).cfg = s.cfg := rfl
@[simp] theorem modSpin_stat (f : Spindle → Spindle) (s : State) : (modSpin f s).stat = s.stat := rfl
@[simp] theorem modSpin_ev (f : Spindle → Spindle) (s : State) : (modSpin f s).ev = s.ev := rfl
@[simp] theorem modSpin_handoff (f : Spindle → Spindle) (s : State) : (modSpin f s).handoff = s.handoff := rfl
@[simp] theorem modSpin_time (f : Spindle → Spindle) (s : State) : (modSpin f s).time = s.time := rfl
@[simp] theorem modSpin_start (f : Spindle → Spindle) (s : State) : (modSpin f s).start = s.start := rfl
@[simp] theorem modSpin_trig (f : Spindle → Spindle) (s : State) : (modSpin f s).trig = s.trig := rfl
@[simp] theorem modSpin_lane (f : Spindle → Spindle) (s : State) : (modSpin f s).lane = s.lane := rfl
@[simp] theorem modSpin_cam (f : Spindle → Spindle) (s : State) : (modSpin f s).cam = s.cam := rfl
@[simp] theorem modSpin_ing (f : Spindle → Spindle) (s : State) : (modSpin f s).ing = s.ing := rfl
@[simp] theorem modSpin_fab (f : Spindle → Spindle) (s : State) : (modSpin f s).fab = s.fab := rfl
@[simp] theorem modSpin_fault (f : Spindle → Spindle) (s : State) : (modSpin f s).fault = s.fault := rfl
@[simp] theorem modSpin_trel (f : Spindle → Spindle) (s : State) : (modSpin f s).trel = s.trel := rfl
@[simp] theorem modSpin_cal (f : Spindle → Spindle) (s : State) : (modSpin f s).cal = s.cal := rfl
@[simp] theorem modSpin_deliv (f : Spindle → Spindle) (s : State) : (modSpin f s).deliv = s.deliv := rfl

@[simp] theorem setTrel_pending (x : TrelSt) (s : State) : (setTrel x s).pending = s.pending := rfl
@[simp] theorem setTrel_outbox (x : TrelSt) (s : State) : (setTrel x s).outbox = s.outbox := rfl
@[simp] theorem setTrel_draws (x : TrelSt) (s : State) : (setTrel x s).draws = s.draws := rfl
@[simp] theorem setTrel_win (x : TrelSt) (s : State) : (setTrel x s).win = s.win := rfl
@[simp] theorem setTrel_mbx (x : TrelSt) (s : State) : (setTrel x s).mbx = s.mbx := rfl
@[simp] theorem setTrel_cfg (x : TrelSt) (s : State) : (setTrel x s).cfg = s.cfg := rfl
@[simp] theorem setTrel_stat (x : TrelSt) (s : State) : (setTrel x s).stat = s.stat := rfl
@[simp] theorem setTrel_ev (x : TrelSt) (s : State) : (setTrel x s).ev = s.ev := rfl
@[simp] theorem setTrel_handoff (x : TrelSt) (s : State) : (setTrel x s).handoff = s.handoff := rfl
@[simp] theorem setTrel_time (x : TrelSt) (s : State) : (setTrel x s).time = s.time := rfl
@[simp] theorem setTrel_pos (x : TrelSt) (s : State) : (setTrel x s).pos = s.pos := rfl
@[simp] theorem setTrel_start (x : TrelSt) (s : State) : (setTrel x s).start = s.start := rfl
@[simp] theorem setTrel_trig (x : TrelSt) (s : State) : (setTrel x s).trig = s.trig := rfl
@[simp] theorem setTrel_lane (x : TrelSt) (s : State) : (setTrel x s).lane = s.lane := rfl
@[simp] theorem setTrel_cam (x : TrelSt) (s : State) : (setTrel x s).cam = s.cam := rfl
@[simp] theorem setTrel_ing (x : TrelSt) (s : State) : (setTrel x s).ing = s.ing := rfl
@[simp] theorem setTrel_fab (x : TrelSt) (s : State) : (setTrel x s).fab = s.fab := rfl
@[simp] theorem setTrel_fault (x : TrelSt) (s : State) : (setTrel x s).fault = s.fault := rfl
@[simp] theorem setTrel_cal (x : TrelSt) (s : State) : (setTrel x s).cal = s.cal := rfl
@[simp] theorem setTrel_deliv (x : TrelSt) (s : State) : (setTrel x s).deliv = s.deliv := rfl

@[simp] theorem setMember_pending (d : Nat) (m : Member) (s : State) : (setMember d m s).pending = s.pending := rfl
@[simp] theorem setMember_outbox (d : Nat) (m : Member) (s : State) : (setMember d m s).outbox = s.outbox := rfl
@[simp] theorem setMember_draws (d : Nat) (m : Member) (s : State) : (setMember d m s).draws = s.draws := rfl
@[simp] theorem setMember_win (d : Nat) (m : Member) (s : State) : (setMember d m s).win = s.win := rfl
@[simp] theorem setMember_mbx (d : Nat) (m : Member) (s : State) : (setMember d m s).mbx = s.mbx := rfl
@[simp] theorem setMember_cfg (d : Nat) (m : Member) (s : State) : (setMember d m s).cfg = s.cfg := rfl
@[simp] theorem setMember_stat (d : Nat) (m : Member) (s : State) : (setMember d m s).stat = s.stat := rfl
@[simp] theorem setMember_ev (d : Nat) (m : Member) (s : State) : (setMember d m s).ev = s.ev := rfl
@[simp] theorem setMember_handoff (d : Nat) (m : Member) (s : State) : (setMember d m s).handoff = s.handoff := rfl
@[simp] theorem setMember_time (d : Nat) (m : Member) (s : State) : (setMember d m s).time = s.time := rfl
@[simp] theorem setMember_pos (d : Nat) (m : Member) (s : State) : (setMember d m s).pos = s.pos := rfl
@[simp] theorem setMember_start (d : Nat) (m : Member) (s : State) : (setMember d m s).start = s.start := rfl
@[simp] theorem setMember_trig (d : Nat) (m : Member) (s : State) : (setMember d m s).trig = s.trig := rfl
@[simp] theorem setMember_lane (d : Nat) (m : Member) (s : State) : (setMember d m s).lane = s.lane := rfl
@[simp] theorem setMember_cam (d : Nat) (m : Member) (s : State) : (setMember d m s).cam = s.cam := rfl
@[simp] theorem setMember_ing (d : Nat) (m : Member) (s : State) : (setMember d m s).ing = s.ing := rfl
@[simp] theorem setMember_fab (d : Nat) (m : Member) (s : State) : (setMember d m s).fab = s.fab := rfl
@[simp] theorem setMember_fault (d : Nat) (m : Member) (s : State) : (setMember d m s).fault = s.fault := rfl
@[simp] theorem setMember_cal (d : Nat) (m : Member) (s : State) : (setMember d m s).cal = s.cal := rfl
@[simp] theorem setMember_deliv (d : Nat) (m : Member) (s : State) : (setMember d m s).deliv = s.deliv := rfl

@[simp] theorem setCal_pending (k : Nat) (x : CalTarget) (s : State) : (setCal k x s).pending = s.pending := rfl
@[simp] theorem setCal_outbox (k : Nat) (x : CalTarget) (s : State) : (setCal k x s).outbox = s.outbox := rfl
@[simp] theorem setCal_draws (k : Nat) (x : CalTarget) (s : State) : (setCal k x s).draws = s.draws := rfl
@[simp] theorem setCal_win (k : Nat) (x : CalTarget) (s : State) : (setCal k x s).win = s.win := rfl
@[simp] theorem setCal_mbx (k : Nat) (x : CalTarget) (s : State) : (setCal k x s).mbx = s.mbx := rfl
@[simp] theorem setCal_cfg (k : Nat) (x : CalTarget) (s : State) : (setCal k x s).cfg = s.cfg := rfl
@[simp] theorem setCal_stat (k : Nat) (x : CalTarget) (s : State) : (setCal k x s).stat = s.stat := rfl
@[simp] theorem setCal_ev (k : Nat) (x : CalTarget) (s : State) : (setCal k x s).ev = s.ev := rfl
@[simp] theorem setCal_handoff (k : Nat) (x : CalTarget) (s : State) : (setCal k x s).handoff = s.handoff := rfl
@[simp] theorem setCal_time (k : Nat) (x : CalTarget) (s : State) : (setCal k x s).time = s.time := rfl
@[simp] theorem setCal_pos (k : Nat) (x : CalTarget) (s : State) : (setCal k x s).pos = s.pos := rfl
@[simp] theorem setCal_start (k : Nat) (x : CalTarget) (s : State) : (setCal k x s).start = s.start := rfl
@[simp] theorem setCal_trig (k : Nat) (x : CalTarget) (s : State) : (setCal k x s).trig = s.trig := rfl
@[simp] theorem setCal_lane (k : Nat) (x : CalTarget) (s : State) : (setCal k x s).lane = s.lane := rfl
@[simp] theorem setCal_cam (k : Nat) (x : CalTarget) (s : State) : (setCal k x s).cam = s.cam := rfl
@[simp] theorem setCal_ing (k : Nat) (x : CalTarget) (s : State) : (setCal k x s).ing = s.ing := rfl
@[simp] theorem setCal_fab (k : Nat) (x : CalTarget) (s : State) : (setCal k x s).fab = s.fab := rfl
@[simp] theorem setCal_fault (k : Nat) (x : CalTarget) (s : State) : (setCal k x s).fault = s.fault := rfl
@[simp] theorem setCal_trel (k : Nat) (x : CalTarget) (s : State) : (setCal k x s).trel = s.trel := rfl
@[simp] theorem setCal_deliv (k : Nat) (x : CalTarget) (s : State) : (setCal k x s).deliv = s.deliv := rfl

@[simp] theorem setSprint_pending (x : Sprint) (s : State) : (setSprint x s).pending = s.pending := rfl
@[simp] theorem setSprint_outbox (x : Sprint) (s : State) : (setSprint x s).outbox = s.outbox := rfl
@[simp] theorem setSprint_draws (x : Sprint) (s : State) : (setSprint x s).draws = s.draws := rfl
@[simp] theorem setSprint_win (x : Sprint) (s : State) : (setSprint x s).win = s.win := rfl
@[simp] theorem setSprint_mbx (x : Sprint) (s : State) : (setSprint x s).mbx = s.mbx := rfl
@[simp] theorem setSprint_cfg (x : Sprint) (s : State) : (setSprint x s).cfg = s.cfg := rfl
@[simp] theorem setSprint_stat (x : Sprint) (s : State) : (setSprint x s).stat = s.stat := rfl
@[simp] theorem setSprint_ev (x : Sprint) (s : State) : (setSprint x s).ev = s.ev := rfl
@[simp] theorem setSprint_handoff (x : Sprint) (s : State) : (setSprint x s).handoff = s.handoff := rfl
@[simp] theorem setSprint_time (x : Sprint) (s : State) : (setSprint x s).time = s.time := rfl
@[simp] theorem setSprint_pos (x : Sprint) (s : State) : (setSprint x s).pos = s.pos := rfl
@[simp] theorem setSprint_start (x : Sprint) (s : State) : (setSprint x s).start = s.start := rfl
@[simp] theorem setSprint_trig (x : Sprint) (s : State) : (setSprint x s).trig = s.trig := rfl
@[simp] theorem setSprint_lane (x : Sprint) (s : State) : (setSprint x s).lane = s.lane := rfl
@[simp] theorem setSprint_cam (x : Sprint) (s : State) : (setSprint x s).cam = s.cam := rfl
@[simp] theorem setSprint_ing (x : Sprint) (s : State) : (setSprint x s).ing = s.ing := rfl
@[simp] theorem setSprint_fault (x : Sprint) (s : State) : (setSprint x s).fault = s.fault := rfl
@[simp] theorem setSprint_trel (x : Sprint) (s : State) : (setSprint x s).trel = s.trel := rfl
@[simp] theorem setSprint_cal (x : Sprint) (s : State) : (setSprint x s).cal = s.cal := rfl
@[simp] theorem setSprint_deliv (x : Sprint) (s : State) : (setSprint x s).deliv = s.deliv := rfl

@[simp] theorem setStart_pending (x : StartSt) (s : State) : (setStart x s).pending = s.pending := rfl
@[simp] theorem setStart_outbox (x : StartSt) (s : State) : (setStart x s).outbox = s.outbox := rfl
@[simp] theorem setStart_draws (x : StartSt) (s : State) : (setStart x s).draws = s.draws := rfl
@[simp] theorem setStart_win (x : StartSt) (s : State) : (setStart x s).win = s.win := rfl
@[simp] theorem setStart_mbx (x : StartSt) (s : State) : (setStart x s).mbx = s.mbx := rfl
@[simp] theorem setStart_cfg (x : StartSt) (s : State) : (setStart x s).cfg = s.cfg := rfl
@[simp] theorem setStart_stat (x : StartSt) (s : State) : (setStart x s).stat = s.stat := rfl
@[simp] theorem setStart_ev (x : StartSt) (s : State) : (setStart x s).ev = s.ev := rfl
@[simp] theorem setStart_handoff (x : StartSt) (s : State) : (setStart x s).handoff = s.handoff := rfl
@[simp] theorem setStart_time (x : StartSt) (s : State) : (setStart x s).time = s.time := rfl
@[simp] theorem setStart_pos (x : StartSt) (s : State) : (setStart x s).pos = s.pos := rfl
@[simp] theorem setStart_trig (x : StartSt) (s : State) : (setStart x s).trig = s.trig := rfl
@[simp] theorem setStart_lane (x : StartSt) (s : State) : (setStart x s).lane = s.lane := rfl
@[simp] theorem setStart_cam (x : StartSt) (s : State) : (setStart x s).cam = s.cam := rfl
@[simp] theorem setStart_ing (x : StartSt) (s : State) : (setStart x s).ing = s.ing := rfl
@[simp] theorem setStart_fab (x : StartSt) (s : State) : (setStart x s).fab = s.fab := rfl
@[simp] theorem setStart_fault (x : StartSt) (s : State) : (setStart x s).fault = s.fault := rfl
@[simp] theorem setStart_trel (x : StartSt) (s : State) : (setStart x s).trel = s.trel := rfl
@[simp] theorem setStart_cal (x : StartSt) (s : State) : (setStart x s).cal = s.cal := rfl
@[simp] theorem setStart_deliv (x : StartSt) (s : State) : (setStart x s).deliv = s.deliv := rfl

@[simp] theorem setFwSlot_pending (n : Nat) (x : FwSlot) (s : State) : (setFwSlot n x s).pending = s.pending := rfl
@[simp] theorem setFwSlot_outbox (n : Nat) (x : FwSlot) (s : State) : (setFwSlot n x s).outbox = s.outbox := rfl
@[simp] theorem setFwSlot_draws (n : Nat) (x : FwSlot) (s : State) : (setFwSlot n x s).draws = s.draws := rfl
@[simp] theorem setFwSlot_win (n : Nat) (x : FwSlot) (s : State) : (setFwSlot n x s).win = s.win := rfl
@[simp] theorem setFwSlot_mbx (n : Nat) (x : FwSlot) (s : State) : (setFwSlot n x s).mbx = s.mbx := rfl
@[simp] theorem setFwSlot_cfg (n : Nat) (x : FwSlot) (s : State) : (setFwSlot n x s).cfg = s.cfg := rfl
@[simp] theorem setFwSlot_stat (n : Nat) (x : FwSlot) (s : State) : (setFwSlot n x s).stat = s.stat := rfl
@[simp] theorem setFwSlot_ev (n : Nat) (x : FwSlot) (s : State) : (setFwSlot n x s).ev = s.ev := rfl
@[simp] theorem setFwSlot_handoff (n : Nat) (x : FwSlot) (s : State) : (setFwSlot n x s).handoff = s.handoff := rfl
@[simp] theorem setFwSlot_time (n : Nat) (x : FwSlot) (s : State) : (setFwSlot n x s).time = s.time := rfl
@[simp] theorem setFwSlot_pos (n : Nat) (x : FwSlot) (s : State) : (setFwSlot n x s).pos = s.pos := rfl
@[simp] theorem setFwSlot_trig (n : Nat) (x : FwSlot) (s : State) : (setFwSlot n x s).trig = s.trig := rfl
@[simp] theorem setFwSlot_lane (n : Nat) (x : FwSlot) (s : State) : (setFwSlot n x s).lane = s.lane := rfl
@[simp] theorem setFwSlot_cam (n : Nat) (x : FwSlot) (s : State) : (setFwSlot n x s).cam = s.cam := rfl
@[simp] theorem setFwSlot_ing (n : Nat) (x : FwSlot) (s : State) : (setFwSlot n x s).ing = s.ing := rfl
@[simp] theorem setFwSlot_fab (n : Nat) (x : FwSlot) (s : State) : (setFwSlot n x s).fab = s.fab := rfl
@[simp] theorem setFwSlot_fault (n : Nat) (x : FwSlot) (s : State) : (setFwSlot n x s).fault = s.fault := rfl
@[simp] theorem setFwSlot_trel (n : Nat) (x : FwSlot) (s : State) : (setFwSlot n x s).trel = s.trel := rfl
@[simp] theorem setFwSlot_cal (n : Nat) (x : FwSlot) (s : State) : (setFwSlot n x s).cal = s.cal := rfl
@[simp] theorem setFwSlot_deliv (n : Nat) (x : FwSlot) (s : State) : (setFwSlot n x s).deliv = s.deliv := rfl

@[simp] theorem setPtpPort_pending (n : Nat) (x : PtpPort) (s : State) : (setPtpPort n x s).pending = s.pending := rfl
@[simp] theorem setPtpPort_outbox (n : Nat) (x : PtpPort) (s : State) : (setPtpPort n x s).outbox = s.outbox := rfl
@[simp] theorem setPtpPort_draws (n : Nat) (x : PtpPort) (s : State) : (setPtpPort n x s).draws = s.draws := rfl
@[simp] theorem setPtpPort_win (n : Nat) (x : PtpPort) (s : State) : (setPtpPort n x s).win = s.win := rfl
@[simp] theorem setPtpPort_mbx (n : Nat) (x : PtpPort) (s : State) : (setPtpPort n x s).mbx = s.mbx := rfl
@[simp] theorem setPtpPort_cfg (n : Nat) (x : PtpPort) (s : State) : (setPtpPort n x s).cfg = s.cfg := rfl
@[simp] theorem setPtpPort_stat (n : Nat) (x : PtpPort) (s : State) : (setPtpPort n x s).stat = s.stat := rfl
@[simp] theorem setPtpPort_ev (n : Nat) (x : PtpPort) (s : State) : (setPtpPort n x s).ev = s.ev := rfl
@[simp] theorem setPtpPort_handoff (n : Nat) (x : PtpPort) (s : State) : (setPtpPort n x s).handoff = s.handoff := rfl
@[simp] theorem setPtpPort_pos (n : Nat) (x : PtpPort) (s : State) : (setPtpPort n x s).pos = s.pos := rfl
@[simp] theorem setPtpPort_start (n : Nat) (x : PtpPort) (s : State) : (setPtpPort n x s).start = s.start := rfl
@[simp] theorem setPtpPort_trig (n : Nat) (x : PtpPort) (s : State) : (setPtpPort n x s).trig = s.trig := rfl
@[simp] theorem setPtpPort_lane (n : Nat) (x : PtpPort) (s : State) : (setPtpPort n x s).lane = s.lane := rfl
@[simp] theorem setPtpPort_cam (n : Nat) (x : PtpPort) (s : State) : (setPtpPort n x s).cam = s.cam := rfl
@[simp] theorem setPtpPort_ing (n : Nat) (x : PtpPort) (s : State) : (setPtpPort n x s).ing = s.ing := rfl
@[simp] theorem setPtpPort_fab (n : Nat) (x : PtpPort) (s : State) : (setPtpPort n x s).fab = s.fab := rfl
@[simp] theorem setPtpPort_fault (n : Nat) (x : PtpPort) (s : State) : (setPtpPort n x s).fault = s.fault := rfl
@[simp] theorem setPtpPort_trel (n : Nat) (x : PtpPort) (s : State) : (setPtpPort n x s).trel = s.trel := rfl
@[simp] theorem setPtpPort_cal (n : Nat) (x : PtpPort) (s : State) : (setPtpPort n x s).cal = s.cal := rfl
@[simp] theorem setPtpPort_deliv (n : Nat) (x : PtpPort) (s : State) : (setPtpPort n x s).deliv = s.deliv := rfl

@[simp] theorem setTxq_pending (n : Nat) (x : Txq) (s : State) : (setTxq n x s).pending = s.pending := rfl
@[simp] theorem setTxq_outbox (n : Nat) (x : Txq) (s : State) : (setTxq n x s).outbox = s.outbox := rfl
@[simp] theorem setTxq_draws (n : Nat) (x : Txq) (s : State) : (setTxq n x s).draws = s.draws := rfl
@[simp] theorem setTxq_win (n : Nat) (x : Txq) (s : State) : (setTxq n x s).win = s.win := rfl
@[simp] theorem setTxq_mbx (n : Nat) (x : Txq) (s : State) : (setTxq n x s).mbx = s.mbx := rfl
@[simp] theorem setTxq_cfg (n : Nat) (x : Txq) (s : State) : (setTxq n x s).cfg = s.cfg := rfl
@[simp] theorem setTxq_stat (n : Nat) (x : Txq) (s : State) : (setTxq n x s).stat = s.stat := rfl
@[simp] theorem setTxq_ev (n : Nat) (x : Txq) (s : State) : (setTxq n x s).ev = s.ev := rfl
@[simp] theorem setTxq_handoff (n : Nat) (x : Txq) (s : State) : (setTxq n x s).handoff = s.handoff := rfl
@[simp] theorem setTxq_pos (n : Nat) (x : Txq) (s : State) : (setTxq n x s).pos = s.pos := rfl
@[simp] theorem setTxq_start (n : Nat) (x : Txq) (s : State) : (setTxq n x s).start = s.start := rfl
@[simp] theorem setTxq_trig (n : Nat) (x : Txq) (s : State) : (setTxq n x s).trig = s.trig := rfl
@[simp] theorem setTxq_lane (n : Nat) (x : Txq) (s : State) : (setTxq n x s).lane = s.lane := rfl
@[simp] theorem setTxq_cam (n : Nat) (x : Txq) (s : State) : (setTxq n x s).cam = s.cam := rfl
@[simp] theorem setTxq_ing (n : Nat) (x : Txq) (s : State) : (setTxq n x s).ing = s.ing := rfl
@[simp] theorem setTxq_fab (n : Nat) (x : Txq) (s : State) : (setTxq n x s).fab = s.fab := rfl
@[simp] theorem setTxq_fault (n : Nat) (x : Txq) (s : State) : (setTxq n x s).fault = s.fault := rfl
@[simp] theorem setTxq_trel (n : Nat) (x : Txq) (s : State) : (setTxq n x s).trel = s.trel := rfl
@[simp] theorem setTxq_cal (n : Nat) (x : Txq) (s : State) : (setTxq n x s).cal = s.cal := rfl
@[simp] theorem setTxq_deliv (n : Nat) (x : Txq) (s : State) : (setTxq n x s).deliv = s.deliv := rfl

@[simp] theorem setLink_pending (first : Nat) (l : Link) (s : State) : (setLink first l s).pending = s.pending := rfl
@[simp] theorem setLink_outbox (first : Nat) (l : Link) (s : State) : (setLink first l s).outbox = s.outbox := rfl
@[simp] theorem setLink_draws (first : Nat) (l : Link) (s : State) : (setLink first l s).draws = s.draws := rfl
@[simp] theorem setLink_win (first : Nat) (l : Link) (s : State) : (setLink first l s).win = s.win := rfl
@[simp] theorem setLink_mbx (first : Nat) (l : Link) (s : State) : (setLink first l s).mbx = s.mbx := rfl
@[simp] theorem setLink_cfg (first : Nat) (l : Link) (s : State) : (setLink first l s).cfg = s.cfg := rfl
@[simp] theorem setLink_stat (first : Nat) (l : Link) (s : State) : (setLink first l s).stat = s.stat := rfl
@[simp] theorem setLink_ev (first : Nat) (l : Link) (s : State) : (setLink first l s).ev = s.ev := rfl
@[simp] theorem setLink_handoff (first : Nat) (l : Link) (s : State) : (setLink first l s).handoff = s.handoff := rfl
@[simp] theorem setLink_time (first : Nat) (l : Link) (s : State) : (setLink first l s).time = s.time := rfl
@[simp] theorem setLink_pos (first : Nat) (l : Link) (s : State) : (setLink first l s).pos = s.pos := rfl
@[simp] theorem setLink_start (first : Nat) (l : Link) (s : State) : (setLink first l s).start = s.start := rfl
@[simp] theorem setLink_trig (first : Nat) (l : Link) (s : State) : (setLink first l s).trig = s.trig := rfl
@[simp] theorem setLink_lane (first : Nat) (l : Link) (s : State) : (setLink first l s).lane = s.lane := rfl
@[simp] theorem setLink_cam (first : Nat) (l : Link) (s : State) : (setLink first l s).cam = s.cam := rfl
@[simp] theorem setLink_ing (first : Nat) (l : Link) (s : State) : (setLink first l s).ing = s.ing := rfl
@[simp] theorem setLink_fab (first : Nat) (l : Link) (s : State) : (setLink first l s).fab = s.fab := rfl
@[simp] theorem setLink_fault (first : Nat) (l : Link) (s : State) : (setLink first l s).fault = s.fault := rfl
@[simp] theorem setLink_cal (first : Nat) (l : Link) (s : State) : (setLink first l s).cal = s.cal := rfl
@[simp] theorem setLink_deliv (first : Nat) (l : Link) (s : State) : (setLink first l s).deliv = s.deliv := rfl

@[simp] theorem setTrigUnit_pending (u : Nat) (x : TrigUnit) (s : State) : (setTrigUnit u x s).pending = s.pending := rfl
@[simp] theorem setTrigUnit_outbox (u : Nat) (x : TrigUnit) (s : State) : (setTrigUnit u x s).outbox = s.outbox := rfl
@[simp] theorem setTrigUnit_draws (u : Nat) (x : TrigUnit) (s : State) : (setTrigUnit u x s).draws = s.draws := rfl
@[simp] theorem setTrigUnit_win (u : Nat) (x : TrigUnit) (s : State) : (setTrigUnit u x s).win = s.win := rfl
@[simp] theorem setTrigUnit_mbx (u : Nat) (x : TrigUnit) (s : State) : (setTrigUnit u x s).mbx = s.mbx := rfl
@[simp] theorem setTrigUnit_cfg (u : Nat) (x : TrigUnit) (s : State) : (setTrigUnit u x s).cfg = s.cfg := rfl
@[simp] theorem setTrigUnit_stat (u : Nat) (x : TrigUnit) (s : State) : (setTrigUnit u x s).stat = s.stat := rfl
@[simp] theorem setTrigUnit_ev (u : Nat) (x : TrigUnit) (s : State) : (setTrigUnit u x s).ev = s.ev := rfl
@[simp] theorem setTrigUnit_handoff (u : Nat) (x : TrigUnit) (s : State) : (setTrigUnit u x s).handoff = s.handoff := rfl
@[simp] theorem setTrigUnit_time (u : Nat) (x : TrigUnit) (s : State) : (setTrigUnit u x s).time = s.time := rfl
@[simp] theorem setTrigUnit_pos (u : Nat) (x : TrigUnit) (s : State) : (setTrigUnit u x s).pos = s.pos := rfl
@[simp] theorem setTrigUnit_start (u : Nat) (x : TrigUnit) (s : State) : (setTrigUnit u x s).start = s.start := rfl
@[simp] theorem setTrigUnit_lane (u : Nat) (x : TrigUnit) (s : State) : (setTrigUnit u x s).lane = s.lane := rfl
@[simp] theorem setTrigUnit_cam (u : Nat) (x : TrigUnit) (s : State) : (setTrigUnit u x s).cam = s.cam := rfl
@[simp] theorem setTrigUnit_ing (u : Nat) (x : TrigUnit) (s : State) : (setTrigUnit u x s).ing = s.ing := rfl
@[simp] theorem setTrigUnit_fab (u : Nat) (x : TrigUnit) (s : State) : (setTrigUnit u x s).fab = s.fab := rfl
@[simp] theorem setTrigUnit_fault (u : Nat) (x : TrigUnit) (s : State) : (setTrigUnit u x s).fault = s.fault := rfl
@[simp] theorem setTrigUnit_trel (u : Nat) (x : TrigUnit) (s : State) : (setTrigUnit u x s).trel = s.trel := rfl
@[simp] theorem setTrigUnit_cal (u : Nat) (x : TrigUnit) (s : State) : (setTrigUnit u x s).cal = s.cal := rfl
@[simp] theorem setTrigUnit_deliv (u : Nat) (x : TrigUnit) (s : State) : (setTrigUnit u x s).deliv = s.deliv := rfl

@[simp] theorem setTrgOut_pending (o : Nat) (x : TrgOut) (s : State) : (setTrgOut o x s).pending = s.pending := rfl
@[simp] theorem setTrgOut_outbox (o : Nat) (x : TrgOut) (s : State) : (setTrgOut o x s).outbox = s.outbox := rfl
@[simp] theorem setTrgOut_draws (o : Nat) (x : TrgOut) (s : State) : (setTrgOut o x s).draws = s.draws := rfl
@[simp] theorem setTrgOut_win (o : Nat) (x : TrgOut) (s : State) : (setTrgOut o x s).win = s.win := rfl
@[simp] theorem setTrgOut_mbx (o : Nat) (x : TrgOut) (s : State) : (setTrgOut o x s).mbx = s.mbx := rfl
@[simp] theorem setTrgOut_cfg (o : Nat) (x : TrgOut) (s : State) : (setTrgOut o x s).cfg = s.cfg := rfl
@[simp] theorem setTrgOut_stat (o : Nat) (x : TrgOut) (s : State) : (setTrgOut o x s).stat = s.stat := rfl
@[simp] theorem setTrgOut_ev (o : Nat) (x : TrgOut) (s : State) : (setTrgOut o x s).ev = s.ev := rfl
@[simp] theorem setTrgOut_handoff (o : Nat) (x : TrgOut) (s : State) : (setTrgOut o x s).handoff = s.handoff := rfl
@[simp] theorem setTrgOut_time (o : Nat) (x : TrgOut) (s : State) : (setTrgOut o x s).time = s.time := rfl
@[simp] theorem setTrgOut_pos (o : Nat) (x : TrgOut) (s : State) : (setTrgOut o x s).pos = s.pos := rfl
@[simp] theorem setTrgOut_start (o : Nat) (x : TrgOut) (s : State) : (setTrgOut o x s).start = s.start := rfl
@[simp] theorem setTrgOut_lane (o : Nat) (x : TrgOut) (s : State) : (setTrgOut o x s).lane = s.lane := rfl
@[simp] theorem setTrgOut_cam (o : Nat) (x : TrgOut) (s : State) : (setTrgOut o x s).cam = s.cam := rfl
@[simp] theorem setTrgOut_ing (o : Nat) (x : TrgOut) (s : State) : (setTrgOut o x s).ing = s.ing := rfl
@[simp] theorem setTrgOut_fab (o : Nat) (x : TrgOut) (s : State) : (setTrgOut o x s).fab = s.fab := rfl
@[simp] theorem setTrgOut_fault (o : Nat) (x : TrgOut) (s : State) : (setTrgOut o x s).fault = s.fault := rfl
@[simp] theorem setTrgOut_trel (o : Nat) (x : TrgOut) (s : State) : (setTrgOut o x s).trel = s.trel := rfl
@[simp] theorem setTrgOut_cal (o : Nat) (x : TrgOut) (s : State) : (setTrgOut o x s).cal = s.cal := rfl
@[simp] theorem setTrgOut_deliv (o : Nat) (x : TrgOut) (s : State) : (setTrgOut o x s).deliv = s.deliv := rfl

end Sys2Proof.Machine
end

