-- ==== Sys2Proof/WellFormed.lean ====
section
/-! DEFINITION. Which commands are well formed: the numbers of their operands lie in the ranges the spec gives the things they name. The
meanings are the spec's for commands that are well formed. -/

namespace Sys2Proof

/-- What was read at req_addr is at most 64 MiB (R28). -/
def ioFits (io : HostIo) : Bool := match io.req with
  | some b => decide (b.length ≤ 67108864)
  | none => true

/-- Whether a command names existing things: functions 0 to 127 (Table 2.3), mailbox slots (R22), encoder channels, GP inputs, compare
units, outputs, lanes, heads, streams, beds, graphs, tiles, engines, furrows and the rest by their number ranges. -/
def Instr.wellFormed : Instr → Bool
  | .slotGo fn slot | .slotOverrunClear fn slot => decide (fn < 128) && decide (slot < 64)
  | .ticketWorkEnd _ _ | .ticketExpiry _ | .commitPreparationDone | .commitIdleApply | .timeLatticePoint | .spindleUpdate | .speedSample
  | .markAssert | .markDeassert | .selectRevert | .ppsInEdge _ _ | .clk10Gate _ | .ppsOutPulse | .streamPacketRx _ | .stripeFlush
  | .sprintStart | .sprintEnd | .regionClose | .tileCutStart | .tileWaitExpiry | .unitHandoff | .helloSend | .formationTimeout
  | .positionSample | .posStale | .isolated | .masterLost | .estateDetached | .prepareTimeout | .commitRepeat | .prepareHoldExpiry
  | .commitPartialTimeout | .digestSweep | .rstNAssert | .rstNRelease _ _ _ | .brownOut | .rootPllUnlock | .coldStart _
  | .deviceWarmStart _ | .controlWarmStart _ | .watchdog | .startFailure _ | .startSuccess | .trimRecompute _ | .trimApply _
  | .calibrationDue _ | .calibrationRunDone _ _ | .calDeferred _ | .twinSwap _ | .calSlotStore _ | .scrub _ | .thermalSample _ _
  | .thermalTrip _ | .eventsSuppressed | .smbReadThermalStep _ | .smbReadPower _ | .smbReadStatus _ | .smbReadDeviceId _
  | .smbReadStepping _ | .smbAlertResponse | .smbUnknownCommand _ | .heartbeatTick | .keptLaneValuesExpiry | .gvcpProxyDeadline _
  | .selectionBiasSettled | .jtagTapAccess _ _ => true
  | .sysNop io | .sysGetFeatures io | .sysSetFeatures io | .sysTicketStatus io | .cfgStatus io | .cfgCommit io | .cfgCancel io
  | .cfgDiscard io | .cfgReadImage io | .statSetPeriod io | .statLatchNow io | .posSetChannel io | .posSetSpindle io | .posSetDiv io
  | .posSetEmu io | .posSetGpInput io | .posGetStatus io | .posGetChannel io | .posGetIndexHistory io | .posClearFlags io
  | .posRestoreMaster io | .trigSetUnit io | .trigSetTrgOutput io | .trigSetActBank io | .trigSetActOutput io | .trigSetActionRule io
  | .trigSetGevAction io | .trigQueueAdd io | .trigQueueCancel io | .trigQueueFlush io | .trigGetUnit io | .trigReadLog io
  | .trigMarkAdd io | .timeSetView io | .timeSetPtpPort io | .timeSetSelect io | .timeSetPps io | .timeGetView io | .timeStepView io
  | .timeFeedOffset io | .timeSelectNow io | .timeClearFlags io | .laneSetLane io | .laneSetEq io | .laneGetStatus io _ | .laneGetEq io _
  | .laneRetrain io | .laneBitSlip io _ | .laneLockHere io _ _ | .laneSetTest io | .laneGetTest io _ _ | .laneClearFlags io
  | .camSetPort io | .camSetHead io | .camSetStream io | .camGetHead io | .camGvcp io | .camCxpControl io | .camDiscover io
  | .camScheduleParam io | .camCancelParam io | .camModuleRead io _ | .camModuleWrite io | .camGetModule io | .ingSetBuffer io
  | .ingSetStream io | .ingSetGroup io | .ingGetStream io | .ingGetBed io | .ingGetBuffer io | .ingReadLines io _ | .corSetStream io
  | .corSetHeadGeom io | .corSetGrid io | .corSetCorrSet io | .corLoadTable io | .corSetStitch io | .corGetStream io | .corReadTable io
  | .corGetStitch io | .corAverageLines io _ | .graphLoad io | .graphSetBinding io | .graphSetSprint io | .graphGetHeadroom io
  | .graphGetEngines io | .graphSprintNow io | .graphGetSprint io | .graphReadCutList io | .rgnSetGraph io | .rgnSetTiles io
  | .rgnGetStatus io | .rgnGetGraph io | .rgnFlush io | .hostSetRoute io | .hostSetQueue io | .hostFurrowCreate io | .hostFurrowStart io
  | .hostFurrowStop io _ | .hostFurrowDestroy io | .hostFurrowPair io | .hostFurrowSwitch io | .hostGetFurrow io | .hostGetPort io _
  | .trelSetStation io | .trelSetIdentity io | .trelGetStatus io | .trelGetMember io | .trelCommit io | .trelAbort io | .trelResync io
  | .trelHandover io _ | .trelReattach io | .trelSetExpected io | .trelGetDigests io | .sysRestart io | .sysGetStartInfo io
  | .sysFwWrite io | .sysFwActivate io | .sysFwConfirm io _ | .sysFwRecover io | .calSetPolicy io | .calRun io | .calGetStatus io
  | .calGetTrims io | .calStore io | .calClearField io | .diagSnapshot io | .diagReadEvents io | .diagGetHbm io _ _ | .diagInject io => ioFits io
  | .encoderEdgeAccepted ch _ _ | .overspeed ch | .ssiFrame ch _ _ _ | .stuckZ ch | .stale ch | .flagLiveExpiry ch => decide (ch < 16)
  | .emuOutputCount e => decide (e < 2)
  | .gpInputEdge gp _ _ => decide (gp < 24)
  | .gpStuck g => decide (g < 24)
  | .spinPosLoRead f => decide (f < 128)
  | .compareMatch u _ | .lateTrigger u _ | .gevActionSend u | .gevAchievedSample u => decide (u < 64)
  | .trgPulseStart o | .trgPulseEnd o => decide (o < 64)
  | .servoMeasurement v _ _ | .viewLost v | .qualificationEnd v | .viewStepApply v => decide (v < 7)
  | .ptpMessageRx port _ | .ptpMasterTransmit port _ | .ptpDelayReqSend port _ | .txqEntry0Read port | .txqDropsRead port
  | .txqOverflowClear port => decide (port < 49)
  | .viewBlockRead f v => decide (f < 128) && decide (v < 9)
  | .refclkLost input => decide (input < 4)
  | .adaptationFreeze lane _ _ | .adaptationResume lane _ _ | .boundHit lane _ _ | .retrainInterval lane | .reanchor lane _
  | .trainingFrameRx lane _ _ _ _ _ | .trainingEnd lane _ | .trainingTimeout lane | .blockLock lane _ | .lockLoss lane _
  | .laneReadmission lane | .checkerLock lane | .checkerResync lane _ | .autonegResolved lane _ | .signalEnergyChange lane _ => decide (lane < 64)
  | .flitRx first _ | .replayTimeout first | .alignmentMarker first | .graftLinkFail first | .hello first | .formed first
  | .timeFlitSend first _ | .timeFlit first _ _ | .positionFlit first | .roleClaim first | .handover first | .prepare first
  | .prepared first | .commit first | .armed first | .abort first | .applied first | .digestReq first | .digest first => decide (first < 64)
  | .ethFrameRx port _ => decide (port < 64)
  | .modulePoll bus _ => decide (bus < 16)
  | .gvcpAckRx head _ _ _ _ _ _ | .gvcpTimeout head _ | .heartbeatRead head | .headRetry head | .streamIdle head | .cxpHeartbeatSend head
  | .cxpHeartbeatTimeout head | .paramWriteSend head | .cxpControlPacketRx head _ _ _ _ _ => decide (head < 48)
  | .blockTimeout stream | .packetresendCmd stream | .resendTimeout stream | .lineComplete stream | .lineWaitExpiry stream => decide (stream < 128)
  | .bedServeLine bed => decide (bed < 8)
  | .memberWaitExpiry grid => decide (grid < 192)
  | .bedRowEmit bed grid _ => decide (bed < 8) && decide (grid < 192)
  | .graphRow graph _ | .rerunComplete graph | .contextFetchDone graph => decide (graph < 64)
  | .shadowCheck tile slot _ _ => decide (tile < 32) && decide (slot < 16)
  | .engineEccError engine _ => decide (engine < 544)
  | .knownAnswerTestDone tile _ _ => decide (tile < 32)
  | .doorbellWrite fn _ _ _ | .functionReset fn _ | .faultStickyClear fn _ | .tjPeakRead fn | .dcLoRead fn | .intCauseClear fn _
  | .mboxDoneClear fn _ _ | .registerWrite fn _ _ _ _ => decide (fn < 128)
  | .descriptorFetchDone furrow _ _ | .descriptorWriteback furrow _ _ | .packFlush furrow | .irqTimer furrow | .burstError furrow _ _ _ => decide (furrow < 32768)
  | .rowBlockIdleClose route => decide (route < 1024)
  | .portLoss port _ | .perst port _ _ | .portL0Entry port _ _ | .sriovConfigWrite port _ _ => decide (port < 2)
  | .msixUnmask fn vector => decide (fn < 128) && decide (vector < 1024)
  | .memberLost device => decide (device < 64)
  | .sramUncorrectable memory _ _ => decide (memory < 5)
  | .hbmChannelFailed stack channel _ => decide (stack < 4) && decide (channel < 16)
  | .smbReadTemperature sensor _ => decide (sensor < 7)

end Sys2Proof
end

