-- ==== Sys2Proof/Tests/Slice0.lean ====
section
/-! SUPPORT. Tests: which commands are ill formed, the spec's own worked values, and for each statement with hypotheses a concrete state
and operands that meet all of them, clause by clause. -/

namespace Sys2Proof.Tests

set_option Elab.async false

open Sys2Proof.Machine

/-! Small states and requests -/

/-- A device past its cold start, with nothing configured: the mailbox answers and every feature is accepted. -/
def ready : State := { State.reset with
  mbx := { State.reset.mbx with
    answering := true
    locked := true
    accepted := 2 ^ 15 - 1 }
  time := { State.reset.time with dc := 2 ^ 44 }
  start := { State.reset.start with
    windowUp := true
    blocksUp := true
    ready := true
    due := none } }

/-- A payload of n bytes with the named fields (offset, size, value), zero elsewhere. -/
def pay (n : Nat) (fs : List (Nat × Nat × Nat)) : Bytes :=
  fs.foldl (fun b f => b.take f.1 ++ leBytes f.2.1 f.2.2 ++ b.drop (f.1 + f.2.1)) (zeros n)

/-- A state with settings in its active configuration, each a code, an object and a payload. -/
def withSet (cs : List (Nat × Nat × Bytes)) (s : State) : State := { s with cfg := { s.cfg with
  active := cs.foldl (fun t c => tput t (settingKey c.1 c.2.1) c.2.2) s.cfg.active } }

/-- A request of PF 0 in its slot 0, the payload in the slot or, indirect both ways, in host memory. -/
def rq (ind : Bool) (code : Nat) (p : Bytes) : Req := if ind
  then ⟨0, 0, code, 3, 1, p.length, 0, 0, leBytes 8 0x1000 ++ leBytes 8 0x2000 ++ leBytes 4 67108864 ++ zeros 12⟩
  else ⟨0, 0, code, 0, 1, p.length, 0, 0, p⟩

/-- What the host's memory answers to that request. -/
def rqIo (ind : Bool) (p : Bytes) : HostIo := if ind then ⟨some p, true, false⟩ else ⟨none, true, false⟩

/-- A state whose oldest request is that one. -/
def asked (ind : Bool) (code : Nat) (p : Bytes) (s : State) : State := { s with mbx := { s.mbx with inbox := [rq ind code p] } }

/-- The request is the oldest and passes the checks before the command's own. -/
def comesB (c : CmdSpec) (ind : Bool) (p : Bytes) (s : State) : Bool :=
  s.mbx.answering && s.mbx.hold.isNone && firstBad c (rq ind c.code p) (payloadOf (rq ind c.code p) (rqIo ind p).req) (taken [] s) == none
    && payloadOf (rq ind c.code p) (rqIo ind p).req == some p

/-- Some request meets what `Stages` assumes. -/
def MetStage (c : CmdSpec) (check : State → Bytes → Option Nat) : Prop :=
  ∃ io q p s, Comes c io q [] p s ∧ clocheBusy s = false ∧ check (taken [] s) p = none

/-- Some request meets what `Acts` and `Holds` assume. -/
def Met (c : CmdSpec) (ok : State → Req → Bytes → Prop) : Prop := ∃ io q p s, Comes c io q [] p s ∧ ok (taken [] s) q p

/-- Some request meets what `Performs` and `Answers` assume. -/
def MetReply (c : CmdSpec) (ok : State → Req → Bytes → Prop) (answer : State → Req → Bytes → Bytes) : Prop :=
  ∃ io q p s, Comes c io q [] p s ∧ ok (taken [] s) q p ∧ Reaches q io (answer (taken [] s) q p)

/-- Some request meets what `Issues` assumes. -/
def MetTicket (c : CmdSpec) (ok : State → Req → Bytes → Prop) : Prop :=
  ∃ io q p s, Comes c io q [] p s ∧ ok (taken [] s) q p ∧ ticketsOf s q.fn < ticketLimit q.fn

theorem comes_of {c : CmdSpec} {ind : Bool} {p : Bytes} {s : State} (h : comesB c ind p s = true) :
    Comes c (rqIo ind p) (rq ind c.code p) [] p (asked ind c.code p s) := by
  simp only [comesB, Bool.and_eq_true, beq_iff_eq, Option.isNone_iff_eq_none] at h
  obtain ⟨⟨⟨h1, h2⟩, h3⟩, h4⟩ := h
  refine ⟨⟨h1, h2, rfl, ?_⟩, h3, h4⟩
  cases ind <;> rfl

theorem metStage {c : CmdSpec} {check : State → Bytes → Option Nat} (s : State) (p : Bytes)
    (h : (comesB c false p s && !clocheBusy s && check (taken [] (asked false c.code p s)) p == none) = true) : MetStage c check := by
  simp only [Bool.and_eq_true, Bool.not_eq_true', beq_iff_eq] at h
  exact ⟨_, _, _, _, comes_of h.1.1, h.1.2, h.2⟩

theorem met {c : CmdSpec} {ok : State → Req → Bytes → Prop} (ind : Bool) (s : State) (p : Bytes) (h : comesB c ind p s = true)
    (hk : ok (taken [] (asked ind c.code p s)) (rq ind c.code p) p) : Met c ok := ⟨_, _, _, _, comes_of h, hk⟩

theorem metReply {c : CmdSpec} {ok : State → Req → Bytes → Prop} {answer : State → Req → Bytes → Bytes} (ind : Bool) (s : State)
    (p : Bytes) (h : comesB c ind p s = true) (hk : ok (taken [] (asked ind c.code p s)) (rq ind c.code p) p)
    (hr : (answer (taken [] (asked ind c.code p s)) (rq ind c.code p) p).length ≤ respRoom (rq ind c.code p)) : MetReply c ok answer := by
  refine ⟨_, _, _, _, comes_of h, hk, hr, fun _ _ => ?_⟩
  cases ind <;> rfl

theorem metTicket {c : CmdSpec} {ok : State → Req → Bytes → Prop} (ind : Bool) (s : State) (p : Bytes) (h : comesB c ind p s = true)
    (hk : ok (taken [] (asked ind c.code p s)) (rq ind c.code p) p)
    (ht : ticketsOf (asked ind c.code p s) (rq ind c.code p).fn < ticketLimit (rq ind c.code p).fn) : MetTicket c ok :=
  ⟨_, _, _, _, comes_of h, hk, ht⟩

theorem insertSet_length (x : TrimSet × Bool) (l : List (TrimSet × Bool)) : (insertSet x l).length = l.length + 1 := by
  induction l with
  | nil => rfl
  | cons y t ih => simp only [insertSet]; split <;> simp [ih]

theorem flatMap_length {α β : Type} (f : α → List β) (n : Nat) (h : ∀ x, (f x).length = n) (l : List α) :
    (l.flatMap f).length = n * l.length := by
  induction l with
  | nil => rfl
  | cons x t ih => simp [List.flatMap_cons, h, ih, Nat.mul_add]; omega

/-- The trims of target 256, without field sets, whatever its factory sets are. -/
theorem trimBytes_256 (s : State) (h : (calTarget s 256).fields = []) : (trimBytes s 256).length ≤ 64 := by
  unfold trimBytes
  simp only [List.length_append]
  rw [flatMap_length _ 16 (fun e => by simp [padTo, codeBytes, leInt, leBytes, zeros])]
  have : (setList 256 (calTarget s 256)).length = 3 := by
    simp [setList, h, factorySets, insertSet_length]
  rw [this]
  simp [padTo, codeBytes, leInt, leBytes, zeros]

/-- A table of 512 columns of gain 1, for stream 0. -/
def tableLoad : Bytes := zeros 8 ++ (List.replicate 512 (leBytes 8 0x4000)).flatten

theorem drop_flatten (w : Bytes) (n c : Nat) (h : w.length = 8) : (List.replicate (c + n) w).flatten.drop (8 * c) = (List.replicate n w).flatten := by
  induction c with
  | zero => simp
  | succ c ih =>
    rw [show c + 1 + n = (c + n) + 1 by omega, List.replicate_succ, List.flatten_cons, show 8 * (c + 1) = 8 + 8 * c by omega, ← List.drop_drop,
      List.drop_append_of_le_length (by omega), List.drop_of_length_le (by omega : w.length ≤ 8), List.nil_append, ih]
theorem tableLoad_good : badColumn (tableLoad.drop 8) 512 = none := by
  have hd : tableLoad.drop 8 = (List.replicate 512 (leBytes 8 0x4000)).flatten := rfl
  have hw : ∀ c, c < 512 → entryWord (tableLoad.drop 8) c = 0x4000 := by
    intro c hc
    obtain ⟨n, hn⟩ : ∃ n, 512 = c + (n + 1) := ⟨511 - c, by omega⟩
    unfold entryWord fld
    rw [hd, hn, drop_flatten _ _ _ rfl]
    simp only [List.replicate_succ, List.flatten_cons]
    rw [List.take_append_of_le_length (by decide), show leNat (List.take 8 (leBytes 8 16384)) = 0x4000 by decide]
    split <;> rfl
  unfold badColumn
  rw [List.find?_eq_none]
  intro c hc
  simp only [List.mem_range] at hc
  have : c < 512 := by simpa [tableGranules, ceilDiv] using hc
  simp only [entryOk, hw c this]
  rw [if_neg (by omega), show (colEntry 0x4000).mode = 0 by decide, show (colEntry 0x4000).dl = 0 by decide,
    show (colEntry 0x4000).dr = 0 by decide]
  simp

/-- A ticket of PF 0 whose work has ended. -/
def tk : Ticket := ⟨0, 0x0012, [], [], none, 4080, true, 0, [], 0, 0⟩

/-- A SYNC of domain 0. -/
def ptpMsg : PtpMsg := ⟨0, 0, 0, false, false, 1, 2, 0, 0, false, 0, 0, 0, 0, 0, 0, 0, 0, 0, 0, 0, 0, []⟩

theorem some_of {α : Type} {o : Option α} (h : o.isSome = true) : ∃ d, o = some d := by
  cases o with
  | none => cases h
  | some d => exact ⟨d, rfl⟩

/-- The settings of a stream of 512 columns on a bed, with a grid. -/
def rowsSet : List (Nat × Nat × Bytes) := [(0x0302, 0, pay 32 [(3, 1, 1), (8, 4, 512), (12, 4, 1), (16, 4, 1)]),
  (0x0500, 0, pay 64 [(1, 1, 1), (4, 4, 1000)])]

/-- An immediate commit, prepared. -/
def immediate : CommitRec := ⟨false, 0, some 0, true, 0, 1, 0, [], [], none⟩

/-- It stands on an idle device with some settings. -/
def idleDue (cs : List (Nat × Nat × Bytes)) : State := withSet cs { ready with cfg := { ready.cfg with
  commit := some immediate } }

/-- A frame, or a flit, with its CRC-32 at the end. -/
def sealed (b : Bytes) : Bytes := b ++ leBytes 4 (crc32 b)

/-- Field lane 0 up as an Ethernet port, with head 0 on it. -/
def ethUp : State := setLane 0 { st := lsUp, set := { mode := 1 } } (withSet [(0x0200, 0, pay 16 [(1, 1, 1), (5, 1, 1)]), (0x0300, 0, zeros 16),
  (0x0301, 0, pay 64 [(1, 1, 1), (3, 1, 255), (12, 4, 0x01010101)])] ready)

/-- An ARP request for the port's address 0.0.0.0. -/
def arpFrame : Bytes := sealed ((pay 60 [(12, 1, 8), (13, 1, 6), (21, 1, 1)]))

/-- An IPv4 datagram of head 0, at address 1.1.1.1, to the event channel. -/
def eventFrame : Bytes :=
  let ip := pay 20 [(0, 1, 0x45), (3, 1, 28), (9, 1, 17), (12, 4, 0x01010101)]
  let sum := (leBytes 2 (sumField ip)).reverse
  sealed (pay 14 [(12, 1, 8)] ++ ip.take 10 ++ sum ++ ip.drop 12 ++ [0, 0, 0x0F, 0x75, 0, 8, 0, 0] ++ zeros 18)

def answerOf : FrameUse → Option Bytes
  | .answer r => some r
  | _ => none

theorem answerOf_some {u : FrameUse} {r : Bytes} (h : answerOf u = some r) : u = .answer r := by
  cases u <;> simp [answerOf] at h
  subst h; rfl

def eventOf : FrameUse → Option (Nat × Bytes)
  | .event h b => some (h, b)
  | _ => none

theorem eventOf_some {u : FrameUse} {r : Nat × Bytes} (h : eventOf u = some r) : u = .event r.1 r.2 := by
  cases u <;> simp [eventOf] at h
  subst h; rfl

/-- Head 0 streaming over GigE Vision, its stream 0 on channel 1. -/
def gigeStream : State := setHead 0 { st := hsStreaming } (withSet [(0x0301, 0, pay 64 [(1, 1, 1), (3, 1, 255)]),
  (0x0302, 0, pay 32 [(3, 1, 1), (4, 2, 1), (6, 1, 255), (8, 4, 512), (12, 4, 1), (16, 4, 1)])] ready)

/-- A data packet of that stream. -/
def dataPacket : StreamPacket := ⟨0, false, 1, true, false, true, 1, 1, 2, 1, 0, 0, 512, 1, 0, 0, zeros 8, false⟩

/-- A line of stream 0 waits for its bed. -/
def bedLoaded : State := setStreamSt 0 { unread := [1] } (setLb { lines := [⟨1, 0, some 5, 0, 0, 0, 0, 0, 0, 0, 0, 512, 1, 0,
  List.replicate 512 (some 0), false, 0, 0, 1, [0], none, false⟩] } (withSet rowsSet ready))

theorem bedLoaded_pick (r : Nat × Tab Rat) (h : drrPick (bedImage bedLoaded 0) 0 (bedSt bedLoaded 0) ((bedStreams (bedImage bedLoaded 0)
    0).filter (fun n => ownerBed bedLoaded n == 0 && (readyLine bedLoaded (bedImage bedLoaded 0) n).isSome)) = some r) : r.1 = 0 := by
  have k : (drrPick (bedImage bedLoaded 0) 0 (bedSt bedLoaded 0) ((bedStreams (bedImage bedLoaded 0)
    0).filter (fun n => ownerBed bedLoaded n == 0 && (readyLine bedLoaded (bedImage bedLoaded 0) n).isSome))).map (·.1) = some 0 := by decide +kernel
  rw [h] at k
  simpa using k

/-- A graph of one source and no operator, and a run of it up to row 5. -/
def plan0 : Plan := ⟨0, ⟨1, [], []⟩, [0], 512, 0, 0, 0, 0, 0, [], [], 0, 0, 0, 1, 0, 0, 0, 0, 0, 1, []⟩
def run0 : Run := ⟨plan0, {}, 0, 0, some 5, [], [], [], [], [], [], false, [], [], 0⟩

/-- A run of a graph with a label operator, and a row of its source. -/
def labelRun : Run := { run0 with plan := { plan0 with cut := ⟨1, [⟨opLabel, [], 0, [], []⟩], []⟩ } }
def row0 : Row := ⟨0, 0, 0, 0, 0, 0, 0, [], []⟩

/-- A unit of generation 0 without payload. -/
def unit0 : DUnit := ⟨⟨0, 0, 0, 0⟩, 0, 0, 0, 0, 0, 0, 0, 0, 0, 0, 0, 0, 0, 0, [], false, []⟩

/-- The identity of a device of trellis 0, in a ring of four. -/
def trelId (d : Nat) : Identity := ⟨0, d, 4, false, 0, 0, 0, 0, 0, 0, 0⟩

/-- A device in a trellis state, its master device 0. -/
def trelAs (st d : Nat) : State := { ready with trel := { ready.trel with
  identity := some (trelId d)
  st := st } }

/-- One flit of a kind has come on a Graft group. -/
def heard (first kind : Nat) (b : Bytes) (s : State) : State := setGraft first { graftOf s first with inbox := [⟨kind, b⟩] } s

theorem took {first msg : Nat} {s : State} (p : Ctl → State → Prop) [∀ c t, Decidable (p c t)]
    (h : (match takeControl first msg s with | (some c, t) => decide (p c t) | (none, _) => false) = true) :
    ∃ c t, takeControl first msg s = (some c, t) ∧ p c t := by
  split at h
  · rename_i c t e
    exact ⟨c, t, e, of_decide_eq_true h⟩
  · cases h

theorem popped {first kind : Nat} {s : State} (p : Bytes → State → Prop) [∀ b t, Decidable (p b t)]
    (h : (match popFlit first kind s with | some (b, t) => decide (p b t) | none => false) = true) :
    ∃ b t, popFlit first kind s = some (b, t) ∧ p b t := by
  split at h
  · rename_i b t e
    exact ⟨b, t, e, of_decide_eq_true h⟩
  · cases h

/-! The statements' hypotheses are met -/

/-- Bytes read back. -/
theorem leNat_leBytes (n v : Nat) : leNat (leBytes n v) = v % 256 ^ n := by
  induction n generalizing v with
  | zero => simp [leBytes, leNat, Nat.mod_one]
  | succ n ih =>
    have := (Nat.mod_mul (x := v) (a := 256) (b := 256 ^ n)).symm
    rw [leBytes, leNat, ih, Nat.pow_succ', ← this]; rfl

/-- A calibration slot of sequence 1 without field sets passes its checks. -/
theorem slotBytes_valid : calSlotValid (slotBytes 1 []) = true := by
  have e : fld (slotBytes 1 []) 0x10 8 = leNat (leBytes 8 Config.eui64) := rfl
  have c : fld (slotBytes 1 []) 0x1C 4 = leNat (leBytes 4 (crc32 ((slotParts 1 []).1 ++ (slotParts 1 []).2))) := by
    rw [show slotBytes 1 [] = (slotParts 1 []).1 ++ leBytes 4 (crc32 ((slotParts 1 []).1 ++ (slotParts 1 []).2)) ++ (slotParts 1 []).2 from rfl]
    generalize crc32 ((slotParts 1 []).1 ++ (slotParts 1 []).2) = z
    rfl
  have b : (slotBytes 1 []).take 28 ++ ((slotBytes 1 []).drop 32).take (fld (slotBytes 1 []) 0x0C 4 - 32) = (slotParts 1 []).1 ++ (slotParts 1 []).2 := rfl
  unfold calSlotValid
  rw [e, c, b, leNat_leBytes, leNat_leBytes,
    Nat.mod_eq_of_lt (show crc32 ((slotParts 1 []).1 ++ (slotParts 1 []).2) < 256 ^ 4 from (~~~ crcRun 0xEDB88320 _ 0xFFFFFFFF).isLt)]
  simp only [beq_self_eq_true, Bool.and_true, Nat.reducePow]
  rfl

/-- A device whose flash holds that slot alone. -/
theorem newer_of_stored (s : State) (h : s.cal.slots = [(0, slotBytes 1 [])]) : calNewer s = some 0 := by
  have a : calSlot s 0 = slotBytes 1 [] := by simp [calSlot, h, tget, tfind]
  have b : calSlot s 1 = [] := by simp [calSlot, h, tget, tfind]
  have : calSlotValid [] = false := rfl
  simp [calNewer, a, b, slotBytes_valid, this]

/-- Every clause of PositionAndTriggerSettingsStage is about something. -/
theorem test_met_PositionAndTriggerSettingsStage :
  (MetStage { code := 0x0400, len := some 48 } chanCheck)
  ∧ (MetStage { code := 0x0401, len := some 48 } spinCheck)
  ∧ (MetStage { code := 0x0402, len := some 16 } divCheck)
  ∧ (MetStage { code := 0x0403, len := some 32 } emuCheck)
  ∧ (MetStage { code := 0x0404, len := some 16 } gpCheck)
  ∧ (MetStage { code := 0x0500, len := some 64 } unitCheck)
  ∧ (MetStage { code := 0x0501, len := some 16 } trgCheck)
  ∧ (MetStage { code := 0x0502, len := some 8 } bankCheck)
  ∧ (MetStage { code := 0x0503, len := some 32 } actCheck)
  ∧ (MetStage { code := 0x0504, len := some 64 } ruleCheck)
  ∧ (MetStage { code := 0x0505, needs := some 1, len := some 32 } gevCheck) := by
  refine ⟨?_, ?_, ?_, ?_, ?_, ?_, ?_, ?_, ?_, ?_, ?_⟩
  · exact metStage ready (zeros 48) (by decide +kernel)
  · exact metStage ready (pay 48 [(0, 2, 65535)]) (by decide +kernel)
  · exact metStage ready (zeros 16) (by decide +kernel)
  · exact metStage ready (zeros 32) (by decide +kernel)
  · exact metStage ready (pay 16 [(2, 2, 1)]) (by decide +kernel)
  · exact metStage ready (zeros 64) (by decide +kernel)
  · exact metStage ready (pay 16 [(2, 2, 4)]) (by decide +kernel)
  · exact metStage ready (zeros 8) (by decide +kernel)
  · exact metStage ready (pay 32 [(4, 4, 1), (12, 4, 1)]) (by decide +kernel)
  · exact metStage ready (pay 64 [(8, 8, 1000000)]) (by decide +kernel)
  · exact metStage ready (pay 32 [(16, 4, 50)]) (by decide +kernel)

/-- Every clause of TimeLaneAndCameraSettingsStage is about something. -/
theorem test_met_TimeLaneAndCameraSettingsStage :
  (MetStage { code := 0x0600, len := some 32 } viewCheck)
  ∧ (MetStage { code := 0x0601, len := some 32 } ptpCheck)
  ∧ (MetStage { code := 0x0602, len := some 16 } selCheck)
  ∧ (MetStage { code := 0x0603, len := some 16 } ppsCheck)
  ∧ (MetStage { code := 0x0200, len := some 16 } laneCheck)
  ∧ (MetStage { code := 0x0201, len := some 16 } eqCheck)
  ∧ (MetStage { code := 0x0300, len := some 16 } portCheck)
  ∧ (MetStage { code := 0x0301, len := some 64 } headCheck)
  ∧ (MetStage { code := 0x0302, len := some 32 } streamCheck) := by
  refine ⟨?_, ?_, ?_, ?_, ?_, ?_, ?_, ?_, ?_⟩
  · exact metStage ready (pay 32 [(3, 1, 255)]) (by decide +kernel)
  · exact metStage ready (pay 32 [(8, 1, 2)]) (by decide +kernel)
  · exact metStage ready (pay 16 [(1, 1, 255)]) (by decide +kernel)
  · exact metStage ready (zeros 16) (by decide +kernel)
  · exact metStage ready (pay 16 [(5, 1, 1)]) (by decide +kernel)
  · exact metStage ready (zeros 16) (by decide +kernel)
  · exact metStage ready (zeros 16) (by decide +kernel)
  · exact metStage ready (zeros 64) (by decide +kernel)
  · exact metStage ready (pay 32 [(3, 1, 1), (8, 4, 1), (12, 4, 1), (16, 4, 1)]) (by decide +kernel)

/-- Every clause of PipelineSettingsStage is about something. -/
theorem test_met_PipelineSettingsStage :
  (MetStage { code := 0x0700, len := some 16 } bufferCheck)
  ∧ (MetStage { code := 0x0701, len := some 16 } ingStreamCheck)
  ∧ (MetStage { code := 0x0702, len := some 16 } groupCheck)
  ∧ (MetStage { code := 0x0800, len := some 16 } corCheck)
  ∧ (MetStage { code := 0x0801, len := some 32 } geomCheck)
  ∧ (MetStage { code := 0x0802, len := some 16 } gridCheck)
  ∧ (MetStage { code := 0x0803, len := some 16 } corrSetCheck)
  ∧ (MetStage { code := 0x0805, len := some 32 } stitchCheck)
  ∧ (MetStage { code := 0x0901, len := some 32 } bindCheck)
  ∧ (MetStage { code := 0x0902, len := some 8 } sprintCheck)
  ∧ (MetStage { code := 0x0A00, len := some 96 } rgnCheck)
  ∧ (MetStage { code := 0x0A01, len := some 16 } (fun _ p => orBadArg (zeroOrIn (fld p 0 2) 1 400 && zeroOrIn (fld p 2 2) 1 1000 && zeroRange p 4 12))) := by
  refine ⟨?_, ?_, ?_, ?_, ?_, ?_, ?_, ?_, ?_, ?_, ?_, ?_⟩
  · exact metStage ready (pay 16 [(0, 2, 4)]) (by decide +kernel)
  · exact metStage ready (zeros 16) (by decide +kernel)
  · exact metStage ready (zeros 16) (by decide +kernel)
  · exact metStage ready (zeros 16) (by decide +kernel)
  · exact metStage ready (pay 32 [(4, 4, 1000000)]) (by decide +kernel)
  · exact metStage ready (pay 16 [(4, 4, 1000)]) (by decide +kernel)
  · exact metStage ready (zeros 16) (by decide +kernel)
  · exact metStage ready (pay 32 [(3, 1, 2), (6, 6, 281474976710655), (16, 4, 1000), (20, 4, 1)]) (by decide +kernel)
  · exact metStage ready (pay 32 [(2, 1, 1), (5, 7, 72057594037927935), (17, 1, 255)]) (by decide +kernel)
  · exact metStage ready (zeros 8) (by decide +kernel)
  · exact metStage ready (zeros 96) (by decide +kernel)
  · exact metStage ready (zeros 16) (by decide +kernel)

/-- Every clause of DeliverySettingsStage is about something. -/
theorem test_met_DeliverySettingsStage :
  (MetStage { code := 0x0F00, len := some 16 } periodCheck)
  ∧ (MetStage { code := 0x0B00, len := some 32 } routeCheck)
  ∧ (MetStage { code := 0x0B01, len := some 8 } queueCheck)
  ∧ (MetStage { code := 0x0C00, needs := some 5, len := some 16 } (fun _ p => orBadArg (fieldsOk p [⟨0, 1, 0, 15, false⟩, ⟨1, 1, 0, 1, false⟩, ⟨8, 8, -(2 ^ 50), 2 ^ 50, true⟩] [(2, 6)])))
  ∧ (MetStage { code := 0x0D00, len := some 16 } calPolicyCheck) := by
  refine ⟨?_, ?_, ?_, ?_, ?_⟩
  · exact metStage ready (pay 16 [(0, 1, 2), (8, 8, 1000000)]) (by decide +kernel)
  · exact metStage ready (zeros 32) (by decide +kernel)
  · exact metStage ready (zeros 8) (by decide +kernel)
  · exact metStage ready (zeros 16) (by decide +kernel)
  · exact metStage ready (zeros 16) (by decide +kernel)

/-- Every clause of LoadsStage is about something. -/
theorem test_met_LoadsStage :
  (Met { code := 0x0804 } (fun s q p => clocheBusy s = false ∧ reqIndirect q.flags = true ∧ 8 ≤ p.length ∧ fld p 0 1 < 128
      ∧ zeroRange p 1 7 = true ∧ ∃ c, stagedStream s (fld p 0 1) = some c ∧ (p.drop 8).length = 8 * 512 * tableGranules c.columns
        ∧ badColumn (p.drop 8) c.columns = none))
  ∧ (Met { code := 0x0900 } (fun s q p => clocheBusy s = false ∧ reqIndirect q.flags = true ∧ 8 ≤ p.length ∧ fld p 0 1 < 64
      ∧ zeroRange p 1 7 = true ∧ (p.drop 8 = [] ∨ ∃ c, readCut (p.drop 8) = .ok c ∧ (usesOp c opExpr = true → feature s 11 = true)))) := by
  refine ⟨?_, ?_⟩
  · exact met true (withSet [(0x0302, 0, pay 32 [(3, 1, 1), (8, 4, 512), (12, 4, 1), (16, 4, 1)])] ready) (tableLoad) (by decide +kernel) (by
    refine ⟨by decide +kernel, by decide +kernel, by decide +kernel, by decide +kernel, by decide +kernel, streamCfgOf (pay 32 [(3, 1, 1), (8, 4, 512), (12, 4, 1), (16, 4, 1)]), by decide +kernel, by decide +kernel, tableLoad_good⟩)
  · exact met true (ready) (zeros 8) (by decide +kernel) (⟨by decide +kernel, by decide +kernel, by decide +kernel, by decide +kernel, by decide +kernel, .inl rfl⟩)

/-- Every clause of FrontEndQueriesAnswer is about something. -/
theorem test_met_FrontEndQueriesAnswer :
  (MetReply { code := 0x0001, vf := true, len := some 0 } (fun _ _ _ => True) (fun s _ p => (fun s _ => leBytes 32 (offeredFeatures s)
    ++ leBytes 32 (if s.mbx.locked then s.mbx.accepted else 0) ++ leBytes 4 (b2n s.mbx.locked) ++ zeros 4) s p))
  ∧ (MetReply { code := 0x0100, len := some 0 } (fun _ _ _ => True) (fun s _ p => (fun s _ => cfgStatus s) s p))
  ∧ (MetReply { code := 0x0104, len := some 8 } (fun _ q p => respIndirect q.flags = true ∧ fld p 0 1 ≤ 1
      ∧ zeroRange p 1 7 = true) (fun s _ p => (fun s p => if fld p 0 1 = 0 then canonImage s.mbx.accepted s.cfg.active else stagedCanon s) s p))
  ∧ (MetReply { code := 0x0410, len := some 0 } (fun _ _ _ => True) (fun s _ p => (fun s _ => posStatus s) s p))
  ∧ (MetReply { code := 0x0411, len := some 8 } (fun _ _ p => fld p 0 1 < 16 ∧ zeroRange p 1 7 = true) (fun s _ p => chanStatus s p))
  ∧ (MetReply { code := 0x0412, len := some 8 } (fun _ _ p => fld p 0 1 < 16 ∧ zeroRange p 1 7 = true) (fun s _ p => indexHistory s p))
  ∧ (MetReply { code := 0x0513, len := some 8 } (fun _ _ p => fld p 0 1 < 64 ∧ zeroRange p 1 7 = true) (fun s _ p => unitStatus s p))
  ∧ (MetReply { code := 0x0514, len := some 8 } (fun _ _ p => fld p 0 1 < 64 ∧ 1 ≤ fld p 2 2 ∧ fld p 2 2 ≤ 256
      ∧ zeroRange p 1 1 = true ∧ zeroRange p 4 4 = true) (fun s _ p => readLog s p))
  ∧ (MetReply { code := 0x0610, len := some 8 } (fun _ _ p => fld p 0 1 < 8 ∧ zeroRange p 1 7 = true) (fun s _ p => getView s p))
  ∧ (MetReply { code := 0x0310, len := some 8 } (fun _ _ p => fld p 0 1 < 48 ∧ zeroRange p 1 7 = true) (fun s _ p => headStatus s p))
  ∧ (MetReply { code := 0x0318, len := some 8 } (fun _ _ p => fld p 0 1 < 16 ∧ zeroRange p 1 7 = true) (fun s _ p => (fun s p => moduleBytes (moduleOf s (fld p 0 1))) s p))
  ∧ (∃ (data : Bytes), MetReply { code := 0x0316, len := some 8 } (fun s _ p => moduleBad s p = none) (fun s _ p => (fun _ p => p.take 8 ++ fitTo (fld p 4 1) data) s p)) := by
  refine ⟨?_, ?_, ?_, ?_, ?_, ?_, ?_, ?_, ?_, ?_, ?_, ?_⟩
  · exact metReply false (ready) ([]) (by decide +kernel) (by decide +kernel) (by decide +kernel)
  · exact metReply false (ready) ([]) (by decide +kernel) (by decide +kernel) (by decide +kernel)
  · exact metReply true (ready) (zeros 8) (by decide +kernel) (by decide +kernel) (by decide +kernel)
  · exact metReply false (ready) ([]) (by decide +kernel) (by decide +kernel) (by decide +kernel)
  · exact metReply false (ready) (zeros 8) (by decide +kernel) (by decide +kernel) (by decide +kernel)
  · exact metReply false (ready) (zeros 8) (by decide +kernel) (by decide +kernel) (by decide +kernel)
  · exact metReply false (ready) (zeros 8) (by decide +kernel) (by decide +kernel) (by decide +kernel)
  · exact metReply false (ready) (pay 8 [(2, 2, 1)]) (by decide +kernel) (by decide +kernel) (by decide +kernel)
  · exact metReply false (ready) (zeros 8) (by decide +kernel) (by decide +kernel) (by decide +kernel)
  · exact metReply false (ready) (zeros 8) (by decide +kernel) (by decide +kernel) (by decide +kernel)
  · exact metReply false (ready) (zeros 8) (by decide +kernel) (by decide +kernel) (by decide +kernel)
  · exact ⟨[], metReply false (setModule 0 { kind := 1 } ready) (pay 8 [(4, 1, 1)]) (by decide +kernel) (by decide +kernel) (by decide +kernel)⟩

/-- Every clause of PipelineQueriesAnswer is about something. -/
theorem test_met_PipelineQueriesAnswer :
  (MetReply { code := 0x0710, len := some 8 } (fun _ _ p => fld p 0 1 < 128 ∧ zeroRange p 1 7 = true) (fun s _ p => ingStream s p))
  ∧ (MetReply { code := 0x0711, len := some 8 } (fun _ _ p => fld p 0 1 < 8 ∧ zeroRange p 1 7 = true) (fun s _ p => ingBed s p))
  ∧ (MetReply { code := 0x0712, len := some 0 } (fun _ _ _ => True) (fun s _ p => ingBuffer s p))
  ∧ (MetReply { code := 0x0810, len := some 8 } (fun _ _ p => fld p 0 1 < 128 ∧ zeroRange p 1 7 = true) (fun s _ p => corStream s p))
  ∧ (MetReply { code := 0x0811, len := some 8 } (fun s q p => respIndirect q.flags = true ∧ fld p 0 1 < 128 ∧ fld p 1 1 ≤ 1
      ∧ zeroRange p 2 6 = true ∧ (streamCfg (if fld p 1 1 = 1 then nextImage s else s.cfg.active) (fld p 0 1)).isSome = true) (fun s _ p => (fun s p => fullTable (if fld p 1 1 = 1 then nextImage s else s.cfg.active) (fld p 0 1)) s p))
  ∧ (MetReply { code := 0x0812, len := some 8 } (fun _ _ p => fld p 0 1 < 16 ∧ zeroRange p 1 7 = true) (fun s _ p => corStitch s p))
  ∧ (∃ (st : Nat), MetReply { code := 0x0910, len := some 8 } (fun s _ p => fld p 0 1 < 2 ∧ zeroRange p 1 7 = true ∧ st = (if fld p 0 1 = 0 then stOk else
        match (admitGraphs s (nextImage s)).fail with | some e => e.2 | none => stOk))
    (fun s q p => (headroom s q p).payload))
  ∧ (MetReply { code := 0x0911, len := some 0 } (fun _ _ _ => True) (fun s _ p => (fun s _ => engineTable s) s p))
  ∧ (MetReply { code := 0x0913, len := some 0 } (fun _ _ _ => True) (fun s _ p => sprintStatus s p))
  ∧ (MetReply { code := 0x0914, len := some 8 } (fun _ q p => respIndirect q.flags = true ∧ fld p 0 1 < 64
      ∧ fld p 1 1 < 2 ∧ zeroRange p 2 6 = true) (fun s _ p => (fun s p => settingIn (if fld p 1 1 = 0 then s.cfg.active else nextImage s) 0x0900 (fld p 0 1) []) s p))
  ∧ (MetReply { code := 0x0A10, len := some 0 } (fun _ _ _ => True) (fun s _ p => rgnStatus s p))
  ∧ (MetReply { code := 0x0A11, len := some 8 } (fun s _ p => rgnGraphCheck s p = none) (fun s _ p => rgnGraph s p)) := by
  refine ⟨?_, ?_, ?_, ?_, ?_, ?_, ?_, ?_, ?_, ?_, ?_, ?_⟩
  · exact metReply false (ready) (zeros 8) (by decide +kernel) (by decide +kernel) (by decide +kernel)
  · exact metReply false (ready) (zeros 8) (by decide +kernel) (by decide +kernel) (by decide +kernel)
  · exact metReply false (ready) ([]) (by decide +kernel) (by decide +kernel) (by decide +kernel)
  · exact metReply false (ready) (zeros 8) (by decide +kernel) (by decide +kernel) (by decide +kernel)
  · exact metReply true (withSet [(0x0302, 0, pay 32 [(3, 1, 1), (8, 4, 512), (12, 4, 1), (16, 4, 1)])] ready) (zeros 8) (by decide +kernel) (by decide +kernel) (by decide +kernel)
  · exact metReply false (ready) (zeros 8) (by decide +kernel) (by decide +kernel) (by decide +kernel)
  · exact ⟨_, metReply false (ready) (zeros 8) (by decide +kernel) (⟨by decide +kernel, by decide +kernel, rfl⟩) (by decide +kernel)⟩
  · exact metReply false (ready) ([]) (by decide +kernel) (by decide +kernel) (by decide +kernel)
  · exact metReply false (ready) ([]) (by decide +kernel) (by decide +kernel) (by decide +kernel)
  · exact metReply true (ready) (zeros 8) (by decide +kernel) (by decide +kernel) (by decide +kernel)
  · exact metReply false (ready) ([]) (by decide +kernel) (by decide +kernel) (by decide +kernel)
  · exact metReply false (withSet [(0x0901, 0, pay 32 [(1, 1, 1), (2, 1, 1), (0x11, 1, 255)])] (setGraph 0 { inq := [⟨0, 0, 0, []⟩] } ready)) (zeros 8) (by decide +kernel) (by decide +kernel) (by decide +kernel)

/-- Every clause of BackEndQueriesAnswer is about something. -/
theorem test_met_BackEndQueriesAnswer :
  (MetReply { code := 0x0B16, vf := true, len := some 8, furrow := some 0 } (fun s _ p => fld p 0 2 < 32768
      ∧ zeroRange p 2 6 = true ∧ (furrowOf s (fld p 0 2)).st ≤ fsFault) (fun s _ p => furrowAnswer s p))
  ∧ (∃ (regs : PortRegs), MetReply { code := 0x0B17, len := some 8 } (fun _ _ p => fld p 0 1 < 2 ∧ zeroRange p 1 7 = true) (fun s _ p => (portAnswer regs) s p))
  ∧ (MetReply { code := 0x0C11, needs := some 3, len := some 0 } (fun _ _ _ => True) (fun s _ p => (fun s _ => trelStatus s) s p))
  ∧ (∃ (k : Nat), MetReply { code := 0x0C12, needs := some 3, len := some 8 } (fun s _ p => zeroRange p 2 6 = true
      ∧ needsRole coordinates s = none ∧ namedMember s p = some k) (fun s _ p => (fun s _ => memberBytes s k) s p))
  ∧ (MetReply { code := 0x0C19, needs := some 3, len := some 0 } (fun s q _ => respIndirect q.flags = true
      ∧ needsRole coordinates s = none) (fun s _ p => (fun s _ => (s.trel.lastSweep.map (sweepEntryBytes s)).flatten) s p))
  ∧ (MetReply { code := 0x0011, len := some 0, exempt := true, inSafe := true } (fun _ _ _ => True) (fun s _ p => (fun s _ => startInfo s) s p))
  ∧ (∃ (k : Nat), MetReply { code := 0x0D11, len := some 8 } (fun _ _ p => zeroRange p 2 6 = true ∧ fld p 0 2 ≠ 255
      ∧ namedTarget p = some k) (fun s _ p => (fun s _ => calStatus s k) s p))
  ∧ (MetReply { code := 0x0D11, len := some 8 } (fun _ _ p => zeroRange p 2 6 = true ∧ fld p 0 2 = 255) (fun s _ p => (fun s _ => deviceCalStatus s) s p))
  ∧ (∃ (k : Nat), MetReply { code := 0x0D12, len := some 8 } (fun _ _ p => zeroRange p 2 6 = true ∧ namedTarget p = some k) (fun s _ p => (fun s _ => trimBytes s k) s p))
  ∧ (MetReply { code := 0x0E11, len := some 8 } (fun s _ p => 1 ≤ fld p 4 2 ∧ fld p 4 2 ≤ 63 ∧ zeroRange p 6 2 = true
      ∧ eventsGone s (fld p 0 4) = false) (fun s _ p => (fun s p =>
      let l := (s.ev.log.reverse.filter (fun e => decide (seqAge s e.sequence ≤ seqAge s (fld p 0 4)))).take (fld p 4 2)
      leBytes 4 l.length ++ zeros 4 ++ l.flatMap eventLogEntry) s p)) := by
  refine ⟨?_, ?_, ?_, ?_, ?_, ?_, ?_, ?_, ?_, ?_⟩
  · exact metReply false (ready) (zeros 8) (by decide +kernel) (by decide +kernel) (by decide +kernel)
  · exact ⟨⟨false, 0⟩, metReply false (ready) (zeros 8) (by decide +kernel) (by decide +kernel) (by decide +kernel)⟩
  · exact metReply false (ready) ([]) (by decide +kernel) (by decide +kernel) (by decide +kernel)
  · exact ⟨_, metReply false ({ ready with trel := { ready.trel with
      identity := some ⟨0, 0, 4, false, 0, 0, 0, 0, 0, 0, 0⟩
      st := tsMaster } }) (zeros 8) (by decide +kernel) (⟨by decide +kernel, by decide +kernel, rfl⟩) (by decide +kernel)⟩
  · exact metReply true ({ ready with trel := { ready.trel with
      identity := some ⟨0, 0, 4, false, 0, 0, 0, 0, 0, 0, 0⟩
      st := tsMaster } }) ([]) (by decide +kernel) (by decide +kernel) (by decide +kernel)
  · exact metReply false (ready) ([]) (by decide +kernel) (by decide +kernel) (by decide +kernel)
  · exact ⟨_, metReply false (ready) (zeros 8) (by decide +kernel) (⟨by decide +kernel, by decide +kernel, rfl⟩) (by decide +kernel)⟩
  · exact metReply false (ready) (pay 8 [(0, 1, 255)]) (by decide +kernel) (by decide +kernel) (by decide +kernel)
  · exact ⟨256, metReply false ready (pay 8 [(0, 1, 1)]) (by decide +kernel) (by decide +kernel) (Nat.le_trans (trimBytes_256 _ rfl) (by decide +kernel))⟩
  · exact metReply false (ready) (pay 8 [(4, 2, 1)]) (by decide +kernel) (by decide +kernel) (by decide +kernel)

/-- Every clause of MailboxAndCommitCommandsAct is about something. -/
theorem test_met_MailboxAndCommitCommandsAct :
  (MetReply { code := 0x0000, vf := true, inSafe := true } (fun _ _ _ => True)
    (fun _ _ p => p))
  ∧ (MetReply { code := 0x0002, len := some 32 } (fun s _ p => s.mbx.locked = false ∧ badFeature s (fld p 0 32) = none)
    (fun s _ p => leBytes 2 0xFFFF ++ zeros 2 ++ leBytes 4 (b2n (joinTrellis { s with mbx := { s.mbx with
      locked := true, accepted := fld p 0 32 } }).mbx.locked)))
  ∧ (MetReply { code := 0x0002, len := some 32 } (fun s _ p => s.mbx.locked = true ∧ fld p 0 32 = s.mbx.accepted)
    (fun _ _ _ => leBytes 2 0xFFFF ++ zeros 2 ++ leBytes 4 1))
  ∧ (∃ (t : Ticket), MetReply { code := 0x0003, vf := true, inSafe := true, len := some 8 } (fun s q p => zeroRange p 4 4 = true ∧ tfind s.mbx.tickets (fld p 0 4) = some t ∧ t.fn = q.fn)
    (fun _ _ _ => if t.done then leBytes 2 t.command ++ leBytes 2 t.status ++ leBytes 4 t.resultLen ++ t.result
      else leBytes 2 t.command ++ leBytes 2 stInProgress ++ leBytes 4 0))
  ∧ (∃ (pc : Option Int), MetReply { code := 0x0101, len := some 24 } (fun s _ p => commitArgs s p = true ∧ s.cfg.commit = none
      ∧ (feature s 3 && formed s) = false ∧ fld p 16 4 = s.cfg.generation ∧ s.cfg.staged ≠ [] ∧ validate false s = none
      ∧ pc = commitPosition s p (leastPosition s.pos.sp.pos (spinSpeed s) (stageTime s + 100))
      ∧ (fld p 0 1 = 2 → leastPosition s.pos.sp.pos (spinSpeed s) (stageTime s + 100) ≤ sfld p 8 8 ∧ s.trig.high < sfld p 8 8))
    (fun s _ _ => leBytes 4 (nextGeneration s.cfg.generation) ++ leBytes 4 (stageTime s)
      ++ (match pc with | some v => leInt 8 v | none => leBytes 8 (2 ^ 63)) ++ sha256 (stagedCanon s)))
  ∧ (∃ (c : CommitRec), Met { code := 0x0102, len := some 0 } (fun s _ _ => s.cfg.commit = some c ∧ c.applying = false))
  ∧ (Met { code := 0x0103, len := some 0 } (fun s _ _ => clocheBusy s = false))
  ∧ (MetReply { code := 0x0F01, len := some 0 } (fun _ _ _ => True)
    (fun s _ _ => leBytes 8 s.stat.number)) := by
  refine ⟨?_, ?_, ?_, ?_, ?_, ?_, ?_, ?_⟩
  · exact metReply false (ready) (zeros 8) (by decide +kernel) (by decide +kernel) (by decide +kernel)
  · exact metReply false ({ ready with mbx := { ready.mbx with locked := false } }) (pay 32 [(0, 1, 1)]) (by decide +kernel) (by decide +kernel) (by decide +kernel)
  · exact metReply false (ready) (pay 32 [(0, 2, 32767)]) (by decide +kernel) (by decide +kernel) (by decide +kernel)
  · exact ⟨tk, metReply false ({ ready with mbx := { ready.mbx with tickets := [(5, tk)] } }) (pay 8 [(0, 4, 5)]) (by decide +kernel) (by decide +kernel) (by decide +kernel)⟩
  · exact ⟨_, metReply false ({ ready with cfg := { ready.cfg with staged := [(settingKey 0x0402 0, zeros 16)] } }) (pay 24 [(0, 1, 3)]) (by decide +kernel) (⟨by decide +kernel, by decide +kernel, by decide +kernel, by decide +kernel, by decide +kernel, by decide +kernel, rfl, fun h => absurd h (by decide +kernel)⟩) (by decide +kernel)⟩
  · exact ⟨⟨false, 3, none, true, 0, 1, 0, [], [], none⟩, met false ({ ready with cfg := { ready.cfg with commit := some ⟨false, 3, none, true, 0, 1, 0, [], [], none⟩ } }) ([]) (by decide +kernel) (by decide +kernel)⟩
  · exact met false (ready) ([]) (by decide +kernel) (by decide +kernel)
  · exact metReply false (ready) ([]) (by decide +kernel) (by decide +kernel) (by decide +kernel)

/-- Every clause of PositionAndTriggerCommandsAct is about something. -/
theorem test_met_PositionAndTriggerCommandsAct :
  (Met { code := 0x0413, len := some 8 } (fun _ _ p => zeroRange p 1 3 = true ∧ (fld p 0 1 = 0xFF ∨ fld p 0 1 < 16 ∧ fld p 4 4 < 2048)))
  ∧ (∃ (m : Nat), Met { code := 0x0414, len := some 0 } (fun s _ _ => (spinSet s).master = some m ∧ s.pos.sp.altActive = true
      ∧ recentlyFailed s (chan s m) = false ∧ s.pos.sp.windowsSince ≠ 0 ∧ s.pos.sp.lastInTol = true))
  ∧ (MetReply { code := 0x0510, len := some 16 } (fun s _ p => unitArgOk p = true ∧ (unitSet s (fld p 0 1)).enable = true
      ∧ s.trig.high < sfld p 8 8 ∧ (trigUnit s (fld p 0 1)).queue.contains (sfld p 8 8) = false ∧ (trigUnit s (fld p 0 1)).queue.length < 16)
    (fun s _ p => leBytes 1 0 ++ leBytes 1 (15 - (trigUnit s (fld p 0 1)).queue.length) ++ zeros 6))
  ∧ (Met { code := 0x0511, len := some 16 } (fun s _ p => unitArgOk p = true ∧ (unitSet s (fld p 0 1)).enable = true
      ∧ (trigUnit s (fld p 0 1)).queue.contains (sfld p 8 8) = true))
  ∧ (MetReply { code := 0x0512, len := some 8 } (fun s _ p => unitArgOk p = true ∧ (unitSet s (fld p 0 1)).enable = true)
    (fun s _ p => leBytes 8 (trigUnit s (fld p 0 1)).queue.length))
  ∧ (Met { code := 0x0515, len := some 24 } (fun s _ p => fld p 0 1 ≤ 15 ∧ fld p 1 1 ≤ 1 ∧ zeroRange p 2 6 = true
      ∧ (if (actCfg (posImage s) (fld p 0 1)).length then sfld p 8 8 < sfld p 16 8 else sfld p 16 8 = 0)
      ∧ s.trig.high < sfld p 8 8 ∧ s.trig.marks.length < markRoom)) := by
  refine ⟨?_, ?_, ?_, ?_, ?_, ?_⟩
  · exact met false (ready) (zeros 8) (by decide +kernel) (by decide +kernel)
  · exact ⟨0, met false (modSpin (fun x => { x with altActive := true, windowsSince := 1, lastInTol := true }) (withSet [(0x0401, 0, pay 48 [(1, 1, 255)])] ready)) ([]) (by decide +kernel) (by decide +kernel)⟩
  · exact metReply false (withSet [(0x0500, 0, pay 64 [(1, 1, 1), (2, 1, 1)])] ready) (pay 16 [(8, 8, 5)]) (by decide +kernel) (by decide +kernel) (by decide +kernel)
  · exact met false (setTrigUnit 0 { queue := [5] } (withSet [(0x0500, 0, pay 64 [(1, 1, 1), (2, 1, 1)])] ready)) (pay 16 [(8, 8, 5)]) (by decide +kernel) (by decide +kernel)
  · exact metReply false (setTrigUnit 0 { queue := [5] } (withSet [(0x0500, 0, pay 64 [(1, 1, 1), (2, 1, 1)])] ready)) (zeros 8) (by decide +kernel) (by decide +kernel) (by decide +kernel)
  · exact met false (ready) (pay 24 [(8, 8, 5)]) (by decide +kernel) (by decide +kernel)

/-- Every clause of TimeCommandsAct is about something. -/
theorem test_met_TimeCommandsAct :
  (Met { code := 0x0611, len := some 32 } (fun s _ p => fld p 0 1 < 7 ∧ zeroRange p 1 7 = true ∧ fld p 16 8 < 2 ^ 48
      ∧ fld p 24 4 < 1000000000 ∧ zeroRange p 28 4 = true ∧ (fld p 8 8 = 0 ∨ ticksFrom (dcNow s) (fld p 8 8) ≤ secTicks 1)
      ∧ (viewSet s (fld p 0 1)).source ≠ 1))
  ∧ (Met { code := 0x0612, len := some 24 } (fun s _ p => fld p 0 1 < 7 ∧ zeroRange p 1 7 = true
      ∧ since s (fld p 16 8) ≤ secTicks 1 ∧ (viewSet s (fld p 0 1)).source = 2))
  ∧ (Met { code := 0x0613, len := some 8 } (fun s _ p => fld p 0 1 ≤ 7 ∧ fld p 1 1 ≤ 1 ∧ zeroRange p 2 6 = true
      ∧ (fld p 0 1 = 7 ∨ (view s (fld p 0 1)).locked = true) ∧ ¬(fld p 0 1 = s.time.sel.view ∧ bitOf (fld p 1 1) 0 = false)))
  ∧ (Met { code := 0x0614, len := some 8 } (fun _ _ p => fld p 0 1 < 7 ∧ zeroRange p 1 7 = true)) := by
  refine ⟨?_, ?_, ?_, ?_⟩
  · exact met false (ready) (zeros 32) (by decide +kernel) (by decide +kernel)
  · exact met false (withSet [(0x0600, 0, pay 32 [(1, 1, 2), (3, 1, 255)])] ready) (pay 24 [(16, 8, 2 ^ 44)]) (by decide +kernel) (by decide +kernel)
  · exact met false (ready) (pay 8 [(0, 1, 7), (1, 1, 1)]) (by decide +kernel) (by decide +kernel)
  · exact met false (ready) (zeros 8) (by decide +kernel) (by decide +kernel)

/-- Every clause of LaneCommandsAct is about something. -/
theorem test_met_LaneCommandsAct :
  (∃ (m : LaneTally), MetReply { code := 0x0210, len := some 8 } (fun _ _ p => laneArg p 1 = true)
    (fun s _ p => laneStatus (takeTally (fld p 0 1) m s) (fld p 0 1)))
  ∧ (∃ (now : Coeffs), MetReply { code := 0x0211, len := some 8 } (fun _ _ p => laneArg p 1 = true)
    (fun s _ p => laneEq (modLane (fld p 0 1) (fun x => x.adaptTo now) s) (fld p 0 1)))
  ∧ (Met { code := 0x0212, len := some 8 } (fun _ _ p => fld p 0 1 < 64 ∧ fld p 1 1 < 2 ∧ zeroRange p 2 6 = true))
  ∧ (∃ (errors : Nat), MetReply { code := 0x0213, len := some 8 } (fun s _ p => fld p 0 1 < 64
      ∧ zeroRange p 2 6 = true ∧ fld p 1 1 < slipSpan (laneOf s (fld p 0 1)) ∧ manualReady (laneOf s (fld p 0 1)) = true)
    (fun s _ p => leBytes 1 (((laneOf s (fld p 0 1)).slip + fld p 1 1) % slipSpan (laneOf s (fld p 0 1))) ++ zeros 3
      ++ leBytes 4 (min errors 4096)))
  ∧ (∃ (errors ps : Nat), Met { code := 0x0214, len := some 8 } (fun s _ p => laneArg p 1 = true
      ∧ manualReady (laneOf s (fld p 0 1)) = true ∧ errors < 16 ∧ (laneOf s (fld p 0 1)).energy = true))
  ∧ (∃ (bits errors : Nat), MetReply { code := 0x0216, len := some 8 } (fun _ _ p => laneArg p 1 = true)
    (fun s _ p =>
      let t := (laneOf (countPattern (fld p 0 1) bits errors s) (fld p 0 1)).test
      leBytes 8 t.bits ++ leBytes 8 t.errors ++ leBytes 4 t.resyncs ++ leBytes 1 (b2n t.locked) ++ zeros 11))
  ∧ (Met { code := 0x0217, len := some 8 } (fun _ _ p => fld p 0 1 < 64 ∧ zeroRange p 1 3 = true ∧ fld p 4 4 < 8192)) := by
  refine ⟨?_, ?_, ?_, ?_, ?_, ?_, ?_⟩
  · exact ⟨⟨0, false, 0, 0, 0, 0⟩, metReply false (ready) (zeros 8) (by decide +kernel) (by decide +kernel) (by decide +kernel)⟩
  · exact ⟨{}, metReply false (ready) (zeros 8) (by decide +kernel) (by decide +kernel) (by decide +kernel)⟩
  · exact met false (ready) (zeros 8) (by decide +kernel) (by decide +kernel)
  · exact ⟨0, metReply false (setLane 0 { st := lsAligning, energy := true, set := { mode := 1, manual := true } } ready) (zeros 8) (by decide +kernel) (by decide +kernel) (by decide +kernel)⟩
  · exact ⟨0, 0, met false (setLane 0 { st := lsAligning, energy := true, set := { mode := 1, manual := true } } ready) (zeros 8) (by decide +kernel) (by decide +kernel)⟩
  · exact ⟨0, 0, metReply false (ready) (zeros 8) (by decide +kernel) (by decide +kernel) (by decide +kernel)⟩
  · exact met false (ready) (zeros 8) (by decide +kernel) (by decide +kernel)

/-- Every clause of CameraCommandsAct is about something. -/
theorem test_met_CameraCommandsAct :
  (Met { code := 0x0311, needs := some 1 } (fun s _ p => p.length = 8 + fld p 4 2 ∧ fld p 0 1 < 48 ∧ fld p 1 1 < 2 ∧ fld p 4 2 ≤ 540
      ∧ fld p 4 2 % 4 = 0 ∧ zeroRange p 6 2 = true ∧ (headSet s (fld p 0 1)).protocol ≠ 2
      ∧ (bitOf (fld p 1 1) 0 = true → (headSet s (fld p 0 1)).alt.isSome = true) ∧ headReady s (fld p 0 1) = true
      ∧ fld p 2 2 ≠ gvcpPacketResend ∧ (writtenRegs (fld p 2 2) (p.drop 8)).any reservedReg = false))
  ∧ (Met { code := 0x0312, needs := some 2 } (fun s _ p => fld p 0 1 < 48 ∧ fld p 1 1 < 2 ∧ 4 ≤ fld p 2 2 ∧ fld p 2 2 ≤ 1024
      ∧ fld p 2 2 % 4 = 0 ∧ p.length = 8 + (if fld p 1 1 = 1 then fld p 2 2 else 0) ∧ (headSet s (fld p 0 1)).protocol ≠ 1
      ∧ headReady s (fld p 0 1) = true))
  ∧ (MetTicket { code := 0x0313, len := some 8 } (fun s _ p => zeroRange p 1 7 = true ∧ isPort (posImage s) modeEth (fld p 0 1) = true))
  ∧ (∃ (origin : Int) (step : Nat), MetReply { code := 0x0314, len := some 144 } (fun s _ p =>
      let t := latticeAtOrAfter origin step (sfld p 8 8)
      fld p 0 1 ≤ 47 ∧ 1 ≤ fld p 1 1 ∧ fld p 1 1 ≤ 16 ∧ 1 ≤ fld p 2 2 ∧ zeroRange p 5 3 = true
        ∧ zeroRange p (16 + 8 * fld p 1 1) (128 - 8 * fld p 1 1) = true ∧ (fld p 4 1 < 16 ∨ fld p 4 1 = 0xFF) ∧ headReady s (fld p 0 1) = true
        ∧ boundaryGrid s (fld p 0 1) = some (origin, step)
        ∧ s.trig.high < t - ((((headSet s (fld p 0 1)).delay + 1) * step : Nat) : Int)
        ∧ (headOf s (fld p 0 1)).schedules.any (fun d => d.target == t) = false ∧ (headOf s (fld p 0 1)).schedules.length < 8)
    (fun s _ p => leBytes 4 s.cam.nextSchedule ++ zeros 4 ++ leInt 8 (latticeAtOrAfter origin step (sfld p 8 8))))
  ∧ (∃ (h : Nat), Met { code := 0x0315, len := some 8 } (fun s _ p => fld p 0 4 ≠ 0 ∧ zeroRange p 4 4 = true
      ∧ (List.range 48).find? (fun h => (headOf s h).schedules.any (fun d => d.id == fld p 0 4 && !d.sent)) = some h))
  ∧ (Met { code := 0x0317 } (fun s _ p => p.length = 8 + fld p 4 1 ∧ moduleBad s p = none ∧ fld p 2 1 ≠ 0x10)) := by
  refine ⟨?_, ?_, ?_, ?_, ?_, ?_⟩
  · exact met false (setHead 0 { st := hsReady } ready) (zeros 8) (by decide +kernel) (by decide +kernel)
  · exact met false (setHead 0 { st := hsReady } ready) (pay 8 [(2, 2, 4)]) (by decide +kernel) (by decide +kernel)
  · exact metTicket false (withSet [(0x0200, 0, pay 16 [(1, 1, 1), (5, 1, 1)])] ready) (zeros 8) (by decide +kernel) (by decide +kernel) (by decide +kernel)
  · exact ⟨0, 1000, metReply false (withSet [(0x0500, 0, pay 64 [(4, 4, 1000)])] (setHead 0 { st := hsReady } ready)) (pay 144 [(1, 1, 1), (2, 2, 1), (8, 8, 10000)]) (by decide +kernel) (by decide +kernel) (by decide +kernel)⟩
  · exact ⟨0, met false (setHead 0 { schedules := [⟨1, 0, 0, 0, 0, 0, 0, [], false, false, 0, 0⟩] } ready) (pay 8 [(0, 4, 1)]) (by decide +kernel) (by decide +kernel)⟩
  · exact met false (setModule 0 { kind := 1 } ready) (pay 9 [(4, 1, 1)]) (by decide +kernel) (by decide +kernel)

/-- Every clause of PipelineCommandsAct is about something. -/
theorem test_met_PipelineCommandsAct :
  (MetReply { code := 0x0713, len := some 32 } (fun s q p => readLinesBad q p = false ∧ (readLinesWork s p).2.1 ≠ [])
    (fun s _ p => (readLinesWork s p).1))
  ∧ (MetTicket { code := 0x0713, len := some 32 } (fun _ q p => readLinesBad q p = false))
  ∧ (MetReply { code := 0x0813, len := some 24 } (fun s q p => respIndirect q.flags = true ∧ fld p 0 1 ≤ 127
      ∧ 1 ≤ fld p 4 4 ∧ fld p 4 4 ≤ 65536 ∧ zeroRange p 1 3 = true ∧ sfld p 8 8 < sfld p 16 8 ∧ (averageEnd s p).1 = stOk)
    (fun s _ p => (averageEnd s p).2.1))
  ∧ (MetTicket { code := 0x0813, len := some 24 } (fun _ q p => respIndirect q.flags = true ∧ fld p 0 1 ≤ 127
      ∧ 1 ≤ fld p 4 4 ∧ fld p 4 4 ≤ 65536 ∧ zeroRange p 1 3 = true ∧ sfld p 8 8 < sfld p 16 8))
  ∧ (Met { code := 0x0912, len := some 8 } (fun s _ p => fld p 0 4 ≤ 30000 ∧ zeroRange p 4 4 = true
      ∧ sprintMode s.cfg.active = 2 ∧ (fld p 0 4 ≠ 0 → s.fab.sprint.on = true ∨ sprintBar s = none)))
  ∧ (MetReply { code := 0x0A12, len := some 8 } (fun s _ p => rgnGraphCheck s p = none)
    (fun s _ p => leBytes 4 (openRegions (graphOf s (fld p 0 1))).length ++ zeros 4)) := by
  refine ⟨?_, ?_, ?_, ?_, ?_, ?_⟩
  · exact metReply true (setLb { lines := [⟨1, 0, some 5, 0, 0, 0, 0, 0, 0, 0, 0, 1, 1, 0, [some 0], false, 0, 0, 1, [0], none, false⟩] } ready) (pay 32 [(4, 4, 1), (16, 8, 10)]) (by decide +kernel) (by decide +kernel) (by decide +kernel)
  · exact metTicket true (ready) (pay 32 [(4, 4, 1), (16, 8, 10)]) (by decide +kernel) (by decide +kernel) (by decide +kernel)
  · exact metReply true (setLb { lines := [⟨1, 0, some 5, 0, 0, 0, 0, 0, 0, 0, 0, 1, 1, 0, [some 0], false, 0, 0, 1, [0], none, false⟩] } ready) (pay 24 [(4, 4, 1), (16, 8, 10)]) (by decide +kernel) (by decide +kernel) (by decide +kernel)
  · exact metTicket true (ready) (pay 24 [(4, 4, 1), (16, 8, 10)]) (by decide +kernel) (by decide +kernel) (by decide +kernel)
  · exact met false (withSet [(0x0902, 0, pay 8 [(0, 1, 2)])] ready) (zeros 8) (by decide +kernel) (by decide +kernel)
  · exact metReply false (withSet [(0x0901, 0, pay 32 [(1, 1, 1), (2, 1, 1), (0x11, 1, 255)])] (setGraph 0 { inq := [⟨0, 0, 0, []⟩] } ready)) (zeros 8) (by decide +kernel) (by decide +kernel) (by decide +kernel)

/-- Every clause of FurrowCommandsAct is about something. -/
theorem test_met_FurrowCommandsAct :
  (Met { code := 0x0B10, vf := true, len := some 32, furrow := some 0 } (fun s q p => fld p 0 2 < 32768 ∧ 1 ≤ fld p 2 1 ∧ fld p 2 1 ≤ 8
      ∧ fld p 0x0E 1 ≤ 1 ∧ (fld p 0x0E 1 = 1 → fld p 2 1 ≤ 6) ∧ zeroRange p 0x0F 1 = true
      ∧ (if fld p 0x0E 1 = 1 then 1 ≤ fld p 0x14 2 ∧ fld p 0x14 2 ≤ 10000 else fld p 0x14 2 = 0) ∧ fld p 0x16 2 ≤ 4096
      ∧ (if fnIsPf q.fn = true then fld p 0x18 2 = 0 else fld p 0x18 2 < 256 ∧ (ownFurrows q.fn s).length < 256
        ∧ (ownFurrows q.fn s).any (fun e => e.2.vfSlot == fld p 0x18 2) = false) ∧ zeroRange p 0x1A 6 = true
      ∧ (furrowOf s (fld p 0 2)).st = fsFree
      ∧ 4 ≤ fld p 3 1 ∧ fld p 3 1 ≤ 16 ∧ fld p 4 8 % 64 = 0 ∧ (fld p 0x0C 2 = 0xFFFF ∨ fld p 0x0C 2 < vectorCount q.fn)))
  ∧ (Met { code := 0x0B11, vf := true, len := some 8, furrow := some 0 } (fun s _ p => furrowCheck p [fsReady] s = none))
  ∧ (∃ (rest : Bytes), Met { code := 0x0B12, vf := true, len := some 8, furrow := some 0 } (fun s _ p => furrowCheck p [fsRunning, fsFault] s = none))
  ∧ (Met { code := 0x0B13, vf := true, len := some 8, furrow := some 0 } (fun s _ p => furrowCheck p [fsReady] s = none))
  ∧ (Met { code := 0x0B14, needs := some 9, len := some 8, furrow := some 0 } (fun s _ p => fld p 0 2 < 32768 ∧ fld p 2 2 < 32768
      ∧ zeroRange p 4 4 = true ∧ (furrowOf s (fld p 0 2)).st = fsRunning
      ∧ (furrowOf s (fld p 2 2)).st = fsReady ∧ (furrowOf s (fld p 0 2)).partner = 0xFFFF
      ∧ fnPort (furrowOf s (fld p 0 2)).owner ≠ fnPort (furrowOf s (fld p 2 2)).owner
      ∧ (furrowOf s (fld p 0 2)).type = (furrowOf s (fld p 2 2)).type))
  ∧ (Met { code := 0x0B14, needs := some 9, len := some 8, furrow := some 0 } (fun s _ p => fld p 0 2 < 32768 ∧ fld p 2 2 = 0xFFFF
      ∧ zeroRange p 4 4 = true ∧ (furrowOf s (fld p 0 2)).st = fsRunning
      ∧ (furrowOf s (fld p 0 2)).partner ≠ 0xFFFF))
  ∧ (Met { code := 0x0B15, needs := some 9, len := some 8, furrow := some 0 } (fun s _ p => furrowCheck p [fsRunning] s = none
      ∧ (furrowOf s (fld p 0 2)).partner ≠ 0xFFFF)) := by
  refine ⟨?_, ?_, ?_, ?_, ?_, ?_, ?_⟩
  · exact met false (ready) (pay 32 [(2, 1, 1), (3, 1, 4), (12, 2, 65535)]) (by decide +kernel) (by decide +kernel)
  · exact met false (setFurrow 0 { st := fsReady } ready) (zeros 8) (by decide +kernel) (by decide +kernel)
  · exact ⟨[], met false (setFurrow 0 { st := fsRunning } ready) (zeros 8) (by decide +kernel) (by decide +kernel)⟩
  · exact met false (setFurrow 0 { st := fsReady } ready) (zeros 8) (by decide +kernel) (by decide +kernel)
  · exact met false (setFurrow 1 { st := fsReady, owner := 64 } (setFurrow 0 { st := fsRunning } ready)) (pay 8 [(2, 2, 1)]) (by decide +kernel) (by decide +kernel)
  · exact met false (setFurrow 0 { st := fsRunning, partner := 1 } ready) (pay 8 [(2, 2, 65535)]) (by decide +kernel) (by decide +kernel)
  · exact met false (setFurrow 0 { st := fsRunning, partner := 1 } ready) (zeros 8) (by decide +kernel) (by decide +kernel)

/-- Every clause of TrellisCommandsAct is about something. -/
theorem test_met_TrellisCommandsAct :
  (Met { code := 0x0C10, needs := some 3, len := some 16 } (fun s _ p => identityOk s p = true ∧ formed s = false))
  ∧ (MetTicket { code := 0x0C13, needs := some 3, len := some 16 } (fun s _ p => (fld p 0 1 = 2 ∨ fld p 0 1 = 0 ∧ zeroRange p 8 8 = true)
      ∧ zeroRange p 2 6 = true ∧ (fld p 1 1 = 0 ∧ s.trel.st = tsMaster ∨ fld p 1 1 = 1 ∧ s.trel.st = tsManager) ∧ s.trel.coord = none))
  ∧ (∃ (t : TwoPhase), Met { code := 0x0C14, needs := some 3, len := some 0 } (fun s _ _ => needsRole coordinates s = none
      ∧ s.trel.coord = some t ∧ t.reached = false))
  ∧ (∃ (k : Nat) (estate : Bool), MetTicket { code := 0x0C15, needs := some 3, len := some 8 } (fun s _ p => zeroRange p 2 6 = true
      ∧ needsRole coordinates s = none ∧ namedMember s p = some k ∧ s.trel.coord = none
      ∧ (if s.trel.st = tsMaster ∧ k = ownId s then s.trel.diverged else (memberOf s k).diverged) = true
      ∧ estate = (s.trel.st == tsManager)))
  ∧ (Met { code := 0x0C16, needs := some 3, len := some 8 } (fun s _ p => zeroRange p 1 7 = true
      ∧ needsRole isMaster s = none ∧ fld p 0 1 ≠ ownId s ∧ bitOf s.trel.ring (fld p 0 1) = true ∧ (memberOf s (fld p 0 1)).lost = false
      ∧ ((memberOf s (fld p 0 1)).strap = 1 ∨ (memberOf s (fld p 0 1)).strap = 2)
      ∧ (reachable s 0 (fld p 0 1) = true ∨ reachable s 1 (fld p 0 1) = true)))
  ∧ (Met { code := 0x0C17, needs := some 3, len := some 0 } (fun s _ _ => needsRole isMaster s = none ∧ s.trel.detached = true))
  ∧ (Met { code := 0x0C18, needs := some 3, len := some 72 } (fun s _ p => fld p 0 2 ≠ 0xFFFF ∧ fld p 2 1 ≤ 2
      ∧ zeroRange p 3 5 = true ∧ zeroRange p (8 + 32 * fld p 2 1) (64 - 32 * fld p 2 1) = true ∧ needsRole coordinates s = none)) := by
  refine ⟨?_, ?_, ?_, ?_, ?_, ?_, ?_⟩
  · exact met false (ready) (pay 16 [(2, 1, 1)]) (by decide +kernel) (by decide +kernel)
  · exact metTicket false ({ ready with trel := { ready.trel with
      identity := some ⟨0, 0, 4, false, 0, 0, 0, 0, 0, 0, 0⟩
      st := tsMaster } }) (zeros 16) (by decide +kernel) (by decide +kernel) (by decide +kernel)
  · exact ⟨⟨1, none, false, 0, 0, none, 0, [], [], none, 0, [], [], [], false, none⟩, met false ({ ready with trel := { ready.trel with
      identity := some ⟨0, 0, 4, false, 0, 0, 0, 0, 0, 0, 0⟩
      st := tsMaster
      coord := some ⟨1, none, false, 0, 0, none, 0, [], [], none, 0, [], [], [], false, none⟩ } }) ([]) (by decide +kernel) (by decide +kernel)⟩
  · exact ⟨0, false, metTicket false ({ ready with trel := { ready.trel with
      identity := some ⟨0, 0, 4, false, 0, 0, 0, 0, 0, 0, 0⟩
      st := tsMaster
      diverged := true } }) (zeros 8) (by decide +kernel) (by decide +kernel) (by decide +kernel)⟩
  · exact met false (setMember 1 { strap := 1, heardEast := some (2 ^ 44) } (setGraft (sideFirst 0) { txMap := 1, rxMap := 1 }
    (setLane (sideFirst 0) { set := { mode := modeGraft } } ({ ready with trel := { ready.trel with
      identity := some ⟨0, 0, 4, false, 0, 0, 0, 0, 0, 0, 0⟩
      st := tsMaster
      ring := 3 } })))) (pay 8 [(0, 1, 1)]) (by decide +kernel) (by decide +kernel)
  · exact met false ({ ready with trel := { ready.trel with
      identity := some ⟨0, 0, 4, false, 0, 0, 0, 0, 0, 0, 0⟩
      st := tsMaster
      detached := true } }) ([]) (by decide +kernel) (by decide +kernel)
  · exact met false ({ ready with trel := { ready.trel with
      identity := some ⟨0, 0, 4, false, 0, 0, 0, 0, 0, 0, 0⟩
      st := tsMaster } }) (zeros 72) (by decide +kernel) (by decide +kernel)

/-- Every clause of StartCommandsAct is about something. -/
theorem test_met_StartCommandsAct :
  (Met { code := 0x0010, len := some 8, exempt := true, inSafe := true } (fun s _ p => fld p 0 1 ≤ 2 ∧ zeroRange p 1 7 = true
      ∧ (s.start.safe = true → fld p 0 1 = 2) ∧ (fld p 0 1 = 0 → s.mbx.locked = true ∧ feature s 13 = true)
      ∧ (fld p 0 1 ≠ 0 → stopCleared s = true)))
  ∧ (Met { code := 0x0013, len := some 8 } (fun s _ p => fld p 0 1 ≤ 1 ∧ fld p 1 1 ≤ 1 ∧ zeroRange p 2 6 = true
      ∧ s.start.trial = false ∧ slotValid s (fld p 1 1) = true ∧ (fwSlot s (fld p 1 1)).confirmed = false
      ∧ (fld p 0 1 = 0 → feature s 13 = true ∧ (fwSlot s (fld p 1 1)).dpLevel = s.start.dpLevel)))
  ∧ (∃ (n : Nat), Met { code := 0x0014, len := some 0 } (fun s _ _ => s.start.runningSlot = some n ∧ s.start.trial = true))
  ∧ (Met { code := 0x0015, len := some 8, inSafe := true } (fun s _ p => s.start.safe = true ∧ fld p 0 1 ≤ 1
      ∧ zeroRange p 1 7 = true)) := by
  refine ⟨?_, ?_, ?_, ?_⟩
  · exact met false (ready) (pay 8 [(0, 1, 2)]) (by decide +kernel) (by decide +kernel)
  · exact met false ({ ready with start := { ready.start with slotB := { header := zeros 512, reason := 0 } } }) (pay 8 [(0, 1, 1), (1, 1, 1)]) (by decide +kernel) (by decide +kernel)
  · exact ⟨0, met false ({ ready with start := { ready.start with 
      runningSlot := some 0
      trial := true } }) ([]) (by decide +kernel) (by decide +kernel)⟩
  · exact met false ({ ready with start := { ready.start with safe := true } }) (zeros 8) (by decide +kernel) (by decide +kernel)

/-- Every clause of CalibrationAndDiagnosticCommandsAct is about something. -/
theorem test_met_CalibrationAndDiagnosticCommandsAct :
  (∃ (k : Nat), MetTicket { code := 0x0D10, len := some 8 } (fun s _ p => namedTarget p = some k ∧ fld p 2 1 ≤ 3 ∧ zeroRange p 3 5 = true
      ∧ calBarred s k = false ∧ (calOpen s k = true ∨ bitOf (fld p 2 1) 0 = true ∧ calForced s k = true)))
  ∧ (∃ (k : Nat), MetTicket { code := 0x0D10, len := some 8 } (fun s _ p => namedTarget p = some k ∧ fld p 2 1 ≤ 3 ∧ zeroRange p 3 5 = true
      ∧ ¬(calBarred s k = false ∧ (calOpen s k = true ∨ bitOf (fld p 2 1) 0 = true ∧ calForced s k = true)) ∧ bitOf (fld p 2 1) 1 = true))
  ∧ (MetTicket { code := 0x0D13, len := some 0 } (fun s _ _ => s.cal.storeTicket = none))
  ∧ (∃ (k : Nat), Met { code := 0x0D14, len := some 8 } (fun _ _ p => zeroRange p 2 6 = true ∧ fld p 0 2 ≠ 255
      ∧ namedTarget p = some k))
  ∧ (Met { code := 0x0D14, len := some 8 } (fun _ _ p => zeroRange p 2 6 = true ∧ fld p 0 2 = 255))
  ∧ (MetTicket { code := 0x0E10, len := some 0, inSafe := true } (fun s q _ => respIndirect q.flags = true ∧ s.fault.snapshot = none
      ∧ snapshotBytes ≤ respRoom q))
  ∧ (∃ (corrected : List Nat) (sram : Nat), MetReply { code := 0x0E12, len := some 0 } (fun _ _ _ => True)
    (fun s _ _ => hbmState (bumpBy 14 2 sram (countCorrected corrected s))))
  ∧ (Met { code := 0x0E13, len := some 8 } (fun s _ p => zeroRange p 4 4 = true
      ∧ injectTarget s (fld p 0 1) (fld p 1 1) (fld p 2 2) = true ∧ (fld p 0 1 = 3 → parityOn s = true)
      ∧ uncovered s (fld p 0 1) (fld p 2 2) = false ∧ recovering s = false)) := by
  refine ⟨?_, ?_, ?_, ?_, ?_, ?_, ?_, ?_⟩
  · exact ⟨0, metTicket false (ready) (pay 8 [(2, 1, 1)]) (by decide +kernel) (by decide +kernel) (by decide +kernel)⟩
  · exact ⟨0, metTicket false ({ ready with start := { ready.start with blocksUp := false } }) (pay 8 [(2, 1, 2)]) (by decide +kernel) (by decide +kernel) (by decide +kernel)⟩
  · exact metTicket false (ready) ([]) (by decide +kernel) (by decide +kernel) (by decide +kernel)
  · exact ⟨_, met false (ready) (zeros 8) (by decide +kernel) (⟨by decide +kernel, by decide +kernel, rfl⟩)⟩
  · exact met false (ready) (pay 8 [(0, 1, 255)]) (by decide +kernel) (by decide +kernel)
  · exact metTicket true (ready) ([]) (by decide +kernel) (by decide +kernel) (by decide +kernel)
  · exact ⟨[], 0, metReply false (ready) ([]) (by decide +kernel) (by decide +kernel) (by decide +kernel)⟩
  · exact met false (ready) (pay 8 [(0, 1, 5)]) (by decide +kernel) (by decide +kernel)

/-- Every clause of MailboxAndCommitEventsAct is about something. -/
theorem test_met_MailboxAndCommitEventsAct :
  (∃ (fn slot : Nat) (s : State), s.start.windowUp = true ∧ fnExists s fn = true ∧ slot < slotCount fn
      ∧ (slotOffline s fn slot = true ∨ (slotOf s fn slot).st = 1))
  ∧ (∃ (fn slot : Nat) (s : State), s.start.windowUp = true ∧ fnExists s fn = true ∧ slot < slotCount fn)
  ∧ (∃ (n : Nat) (t : Ticket) (fin : WorkFin) (st : Nat) (a : Bytes) (u : State) (s : State), tfind s.mbx.tickets n = some t ∧ t.done = false ∧ s.mbx.answering = true ∧ fin.timeout = false
        ∧ ticketWork n t fin s = some (st, a, u) ∧ resultGoes t a fin.respOk = true)
  ∧ (∃ (n : Nat) (t : Ticket) (fin : WorkFin) (st : Nat) (a : Bytes) (u : State) (s : State), tfind s.mbx.tickets n = some t ∧ t.done = false ∧ s.mbx.answering = true ∧ fin.timeout = false
        ∧ ticketWork n t fin s = some (st, a, u) ∧ resultGoes t a fin.respOk = false ∧ t.command ≠ 0x0E10)
  ∧ (∃ (n : Nat) (t : Ticket) (s : State), tfind s.mbx.tickets n = some t ∧ t.done = true
      ∧ secTicks 60 ≤ since s t.doneAt)
  ∧ (∃ (c : CommitRec) (s : State), s.start.w1Running = false ∧ s.cfg.commit = some c ∧ c.applying = false)
  ∧ (∃ (x : Prep) (s : State), s.start.w1Running = false ∧ s.cfg.commit = none ∧ s.trel.prep = some x)
  ∧ (∃ (c d : CommitRec) (s : State), s.cfg.commit = some c ∧ c.boundary = 0 ∧ c.trellis = none ∧ c.applying = false
      ∧ c.prepared = true ∧ msTicks 10 ≤ since s s.pos.sp.movedAt ∧ rowInFlight s = false
      ∧ (applyCommit (c.pc.getD s.pos.sp.pos) s).cfg.commit = some d)
  ∧ (∃ (c : CommitRec) (s : State), s.cfg.commit = some c ∧ c.boundary = 0 ∧ c.trellis = none ∧ c.applying = false
      ∧ c.prepared = true ∧ msTicks 10 ≤ since s s.pos.sp.movedAt ∧ rowInFlight s = false
      ∧ (applyCommit (c.pc.getD s.pos.sp.pos) s).cfg.commit = none)
  ∧ (∃ (s : State), (periodCfg s).type = 2 ∧ s.stat.lattice < latticePassed s) := by
  refine ⟨?_, ?_, ?_, ?_, ?_, ?_, ?_, ?_, ?_, ?_⟩
  · exact ⟨0, 0, setSlot 0 0 { st := 1 } ready, by decide +kernel⟩
  · exact ⟨0, 0, ready, by decide +kernel⟩
  · exact ⟨1, { tk with command := 0x0313, done := false }, ⟨true, true, false, []⟩, _, _, _, { ready with mbx := { ready.mbx with
      tickets := [(1, { tk with command := 0x0313, done := false })] } }, rfl, rfl, rfl, rfl, rfl, rfl⟩
  · exact ⟨1, { tk with command := 0x0313, done := false }, ⟨true, true, false, [zeros 5000]⟩, _, _, _, { ready with mbx := { ready.mbx with
      tickets := [(1, { tk with command := 0x0313, done := false })] } }, rfl, rfl, rfl, rfl, rfl, by decide +kernel, by decide⟩
  · exact ⟨1, tk, { ready with mbx := { ready.mbx with
      tickets := [(1, tk)] } }, by decide +kernel⟩
  · exact ⟨⟨false, 3, none, false, 0, 1, 0, [], [], none⟩, { ready with cfg := { ready.cfg with
      commit := some ⟨false, 3, none, false, 0, 1, 0, [], [], none⟩ } }, by decide +kernel⟩
  · exact ⟨⟨1, 0, 0, 0, true, false⟩, { ready with trel := { ready.trel with
      prep := some ⟨1, 0, 0, 0, true, false⟩ } }, by decide +kernel⟩
  · exact (some_of (o := (applyCommit (immediate.pc.getD (idleDue rowsSet).pos.sp.pos) (idleDue rowsSet)).cfg.commit) (by decide +kernel)).elim fun d h =>
      ⟨immediate, d, idleDue rowsSet, rfl, rfl, rfl, rfl, rfl, by decide +kernel, by decide +kernel, h⟩
  · exact ⟨immediate, idleDue [], rfl, rfl, rfl, rfl, rfl, by decide +kernel, by decide +kernel, by decide +kernel⟩
  · exact ⟨ready, by decide +kernel⟩

/-- Every clause of ChannelEdgesCount is about something. -/
theorem test_met_ChannelEdgesCount :
  (∃ (ch levels t : Nat) (s : State), filterPassed s (chanSet s ch).filterN t = true
      ∧ (chanSet s ch).mode = 1 ∧ ¬((chan s ch).a = bitOf levels 0 ∧ (chan s ch).b = bitOf levels 1 ∧ (chan s ch).z = bitOf levels 2))
  ∧ (∃ (ch levels t : Nat) (s : State), filterPassed s (chanSet s ch).filterN t = true
      ∧ (chanSet s ch).mode = 2 ∧ ¬((chan s ch).a = bitOf levels 0 ∧ (chan s ch).b = bitOf levels 1 ∧ (chan s ch).z = bitOf levels 2))
  ∧ (∃ (ch levels t : Nat) (s : State), filterPassed s (chanSet s ch).filterN t = true
      ∧ (chanSet s ch).mode ≠ 1 ∧ (chanSet s ch).mode ≠ 2 ∧ ¬((chan s ch).a = bitOf levels 0 ∧ (chan s ch).b = bitOf levels 1 ∧ (chan s ch).z = bitOf levels 2))
  ∧ (∃ (ch : Nat) (s : State), (chanSet s ch).mode ≠ 0)
  ∧ (∃ (ch : Nat) (startHigh endLow : Bool) (bits : Nat) (s : State), frameDue s ch = true) := by
  refine ⟨?_, ?_, ?_, ?_, ?_⟩
  · exact ⟨0, 1, 0, withSet [(0x0400, 0, pay 48 [(1, 1, 1)])] ready, by decide +kernel⟩
  · exact ⟨0, 1, 0, withSet [(0x0400, 0, pay 48 [(1, 1, 2)])] ready, by decide +kernel⟩
  · exact ⟨0, 1, 0, ready, by decide +kernel⟩
  · exact ⟨0, withSet [(0x0400, 0, pay 48 [(1, 1, 1)])] ready, by decide +kernel⟩
  · exact ⟨0, true, true, 5, withSet [(0x0400, 0, pay 48 [(1, 1, 3)])] ready, by decide +kernel⟩

/-- Every clause of PositionEventsAct is about something. -/
theorem test_met_PositionEventsAct :
  (∃ (ch t : Nat) (s : State), (chan s ch).zSince = some t ∧ (chanSet s ch).mode = 1 ∧ (chan s ch).stuckZ = false
      ∧ usTicks (chanSet s ch).zHoldUs < since s t)
  ∧ (∃ (ch : Nat) (s : State), (chanSet s ch).mode ≠ 0 ∧ (chan s ch).stale = false
      ∧ usTicks (chanSet s ch).staleUs ≤ since s (chan s ch).staleFrom)
  ∧ (∃ (t : State) (s : State), t = (if s.trel.st = tsIsolated ∨ followsTrellis s = true then trelUpdate s
        else modSpin (fun q => { q with pos := spinNew s }) s) ∧ s.pos.sp.pos < t.pos.sp.pos)
  ∧ (∃ (t : State) (s : State), t = (if s.trel.st = tsIsolated ∨ followsTrellis s = true then trelUpdate s
        else modSpin (fun q => { q with pos := spinNew s }) s) ∧ t.pos.sp.pos ≤ s.pos.sp.pos)
  ∧ (∃ (s : State), 2 ^ 14 ≤ since s s.pos.speedAt)
  ∧ (∃ (s : State), since s s.pos.speedAt < 2 ^ 14)
  ∧ (∃ (ch : Nat), True)
  ∧ (∃ (e : Nat) (c : EmuCfg) (x : Emu) (s : State), c = emuCfg (posImage s) e ∧ c.enable = true
      ∧ s.fault.stop = false ∧ x = tget {} s.pos.emus e ∧ x.emitted < emuWanted s.pos.sp.pos c.perM
      ∧ emuWanted s.pos.sp.pos c.perM < x.emitted + 65536 ∧ 25 ≤ since s x.lastDc)
  ∧ (∃ (e : Nat) (c : EmuCfg) (x : Emu) (s : State), c = emuCfg (posImage s) e ∧ c.enable = true
      ∧ s.fault.stop = false ∧ x = tget {} s.pos.emus e ∧ emuWanted s.pos.sp.pos c.perM < x.emitted
      ∧ x.emitted < emuWanted s.pos.sp.pos c.perM + 65536 ∧ 25 ≤ since s x.lastDc)
  ∧ (∃ (e : Nat) (c : EmuCfg) (x : Emu) (s : State), c = emuCfg (posImage s) e ∧ c.enable = true
      ∧ s.fault.stop = false ∧ x = tget {} s.pos.emus e ∧ x.emitted + 65536 ≤ emuWanted s.pos.sp.pos c.perM)
  ∧ (∃ (e : Nat) (c : EmuCfg) (x : Emu) (s : State), c = emuCfg (posImage s) e ∧ c.enable = true
      ∧ s.fault.stop = false ∧ x = tget {} s.pos.emus e ∧ emuWanted s.pos.sp.pos c.perM + 65536 ≤ x.emitted)
  ∧ (∃ (gp : Nat) (level : Bool) (tick : Nat) (s : State), filterPassed s (gpCfg (posImage s) gp).filterN tick = true ∧ (periodCfg s).type ≠ 3)
  ∧ (∃ (gp : Nat) (level : Bool) (tick : Nat) (s : State), filterPassed s (gpCfg (posImage s) gp).filterN tick = true ∧ (periodCfg s).type = 3 ∧ gp < 24
      ∧ (tget {} s.pos.gps gp).level ≠ level ∧ (periodCfg s).source % 32 = gp ∧ (level = true ↔ (periodCfg s).source / 256 % 2 ≠ 1))
  ∧ (∃ (g t : Nat) (s : State), (tget {} s.pos.gps g).activeSince = some t ∧ (gpCfg (posImage s) g).stuckCheck = true
      ∧ (tget {} s.pos.gps g).stuck = false ∧ usTicks (gpCfg (posImage s) g).holdUs < since s t)
  ∧ (∃ (f : Nat) (s : State), fnIsPf f = true ∧ s.start.blocksUp = true) := by
  refine ⟨?_, ?_, ?_, ?_, ?_, ?_, ?_, ?_, ?_, ?_, ?_, ?_, ?_, ?_, ?_⟩
  · exact ⟨0, 0, setChan 0 { zSince := some 0 } (withSet [(0x0400, 0, pay 48 [(1, 1, 1)])] ready), by decide +kernel⟩
  · exact ⟨0, withSet [(0x0400, 0, pay 48 [(1, 1, 1)])] ready, by decide +kernel⟩
  · exact ⟨_, modSpin (fun x => { x with active := some 0, target := 5 }) ready, rfl, by decide +kernel⟩
  · exact ⟨_, ready, rfl, by decide +kernel⟩
  · exact ⟨ready, by decide +kernel⟩
  · exact ⟨{ ready with pos := { ready.pos with
      speedAt := 2 ^ 44 } }, by decide +kernel⟩
  · exact ⟨0, trivial⟩
  · exact ⟨0, _, _, modSpin (fun x => { x with pos := 10 }) (withSet [(0x0403, 0, pay 32 [(1, 1, 1), (4, 4, 1000000000)])] ready), rfl, by decide +kernel, by decide +kernel, rfl, by decide +kernel, by decide +kernel, by decide +kernel⟩
  · exact ⟨0, _, _, modSpin (fun x => { x with pos := -10 }) (withSet [(0x0403, 0, pay 32 [(1, 1, 1), (4, 4, 1000000000)])] ready), rfl, by decide +kernel, by decide +kernel, rfl, by decide +kernel, by decide +kernel, by decide +kernel⟩
  · exact ⟨0, _, _, modSpin (fun x => { x with pos := 100000 }) (withSet [(0x0403, 0, pay 32 [(1, 1, 1), (4, 4, 1000000000)])] ready), rfl, by decide +kernel, by decide +kernel, rfl, by decide +kernel⟩
  · exact ⟨0, _, _, modSpin (fun x => { x with pos := -100000 }) (withSet [(0x0403, 0, pay 32 [(1, 1, 1), (4, 4, 1000000000)])] ready), rfl, by decide +kernel, by decide +kernel, rfl, by decide +kernel⟩
  · exact ⟨0, true, 0, ready, by decide +kernel⟩
  · exact ⟨0, true, 0, { ready with stat := { ready.stat with
      conf := pay 16 [(0, 1, 3)] } }, by decide +kernel⟩
  · exact ⟨0, 0, withSet [(0x0404, 0, pay 16 [(1, 1, 2), (4, 4, 1)])] ({ ready with pos := { ready.pos with
      gps := [(0, { activeSince := some 0 })] } }), by decide +kernel⟩
  · exact ⟨0, ready, by decide +kernel⟩

/-- Every clause of TriggerEventsAct is about something. -/
theorem test_met_TriggerEventsAct :
  (∃ (u depPs : Nat) (s : State), (trigUnit s u).h < comparePos s)
  ∧ (∃ (u depPs : Nat) (s : State), (lateDue s u).isSome = true)
  ∧ (∃ (u depPs : Nat) (s : State), lateDue s u = none)
  ∧ (∃ (o a b : Nat) (rest : List (Nat × Nat)) (s : State), (trgOut s o).scheduled = (a, b) :: rest
      ∧ a ≤ psNow s + 1599 ∧ (trgOut s o).level = false)
  ∧ (∃ (o b : Nat) (s : State), (trgOut s o).level = true ∧ (trgOut s o).endPs = some b ∧ b ≤ psNow s + 1599)
  ∧ (∃ (u : Nat) (v : Int) (s : State), (unitSet s u).enable = true ∧ (unitSet s u).gevHeads ≠ 0
      ∧ 1000 ≤ spinSpeed s ∧ 0 < s.pos.sp.pos ∧ noMotion s = false ∧ gevNext s (unitSet s u) (trigUnit s u) = some v
      ∧ (v - s.pos.sp.pos) * 1000 ≤ spinSpeed s * ((gevCfg (posImage s) u).leadUs : Int))
  ∧ (∃ (m : Mark) (s : State), s.trig.marks.find? (fun m => m.asserted.isNone && decide (m.assertAt ≤ s.trig.high)) = some m)
  ∧ (∃ (m : Mark) (s : State), s.trig.marks.find? (markEnds s) = some m) := by
  refine ⟨?_, ?_, ?_, ?_, ?_, ?_, ?_, ?_⟩
  · exact ⟨0, 0, setTrigUnit 0 { h := -1 } ready, by decide +kernel⟩
  · exact ⟨0, 0, setTrigUnit 0 { late := some 5 } ready, by decide +kernel⟩
  · exact ⟨0, 0, ready, by decide +kernel⟩
  · exact ⟨0, 0, 5, [], setTrgOut 0 { scheduled := [(0, 5)] } ready, by decide +kernel⟩
  · exact ⟨0, 0, setTrgOut 0 { level := true, endPs := some 0 } ready, by decide +kernel⟩
  · exact ⟨0, 1000, setChan 0 { speed := 1000000 } (modSpin (fun x => { x with pos := 1, active := some 0 })
      (withSet [(0x0500, 0, pay 64 [(1, 1, 1), (4, 4, 1000), (32, 8, 1)]), (0x0505, 0, pay 32 [(16, 4, 50)])] ready)), by decide +kernel⟩
  · exact ⟨_, setMarks [⟨0, false, 0, 0, 0, false, none⟩] ready, rfl⟩
  · exact ⟨⟨0, false, 0, 0, 0, false, some (0, 0, false)⟩, setMarks [⟨0, false, 0, 0, 0, false, some (0, 0, false)⟩] ready, by decide +kernel⟩

/-- Every clause of ViewEventsAct is about something. -/
theorem test_met_ViewEventsAct :
  (∃ (v : Nat) (ps : Int) (s : State), v < 7 ∧ (viewSet s v).source ≠ 0)
  ∧ (∃ (v : Nat) (ps : Int) (path : Nat) (s : State), v < 7 ∧ (viewSet s v).source ≠ 0)
  ∧ (∃ (v : Nat) (s : State), v < 7 ∧ (view s v).lost = false ∧ sourceLost s v = true)
  ∧ (∃ (t : Nat) (s : State), s.time.sel.healthySince = some t ∧ (selSet s).revertive = true
      ∧ (selSet s).backup = some s.time.sel.view ∧ (view s (selSet s).primary).locked = true
      ∧ (view s (selSet s).primary).suspect = false ∧ secTicks (selSet s).holdS ≤ since s t)
  ∧ (∃ (v t : Nat) (s : State), (view s v).frozen = true ∧ (view s v).qualEnd = some t ∧ reached s t = true
      ∧ ((view s v).partnerHeld = false ∨ ∀ q, (viewSet s v).partner = some q → (view s q).locked = false))
  ∧ (∃ (v q t : Nat) (s : State), (view s v).frozen = true ∧ (view s v).qualEnd = some t ∧ reached s t = true
      ∧ (view s v).partnerHeld = true ∧ (viewSet s v).partner = some q ∧ (view s q).locked = true
      ∧ (qualE s v q).abs ≤ ((viewSet s v).asymNs : Rat))
  ∧ (∃ (v q t : Nat) (s : State), (view s v).frozen = true ∧ (view s v).qualEnd = some t ∧ reached s t = true
      ∧ (view s v).partnerHeld = true ∧ (viewSet s v).partner = some q ∧ (view s q).locked = true
      ∧ ¬(qualE s v q).abs ≤ ((viewSet s v).asymNs : Rat))
  ∧ (∃ (v t ns : Nat) (s : State), (view s v).step = some (t, ns) ∧ reached s t = true)
  ∧ (∃ (s : State), s.time.sel.slewing = true ∧ biasAt s.time.sel (dcNow s) = 0)
  ∧ (∃ (f v : Nat) (s : State), s.start.blocksUp = true ∧ v < 9 ∧ (fnIsPf f = true ∨ v = 8)) := by
  refine ⟨?_, ?_, ?_, ?_, ?_, ?_, ?_, ?_, ?_, ?_⟩
  · exact ⟨0, 0, withSet [(0x0600, 0, pay 32 [(1, 1, 2)])] ready, by decide +kernel⟩
  · exact ⟨0, 0, 0, withSet [(0x0600, 0, pay 32 [(1, 1, 2)])] ready, by decide +kernel⟩
  · exact ⟨0, setView 0 { fedAt := some 0 } (withSet [(0x0600, 0, pay 32 [(1, 1, 2)])] ready), by decide +kernel⟩
  · exact ⟨0, withSet [(0x0602, 0, pay 16 [(0, 1, 1), (1, 1, 7), (2, 1, 2)])] (setView 1 { locked := true } ({ ready with time := { ready.time with
      sel := { healthySince := some 0 } } })), by decide +kernel⟩
  · exact ⟨0, 0, setView 0 { frozen := true, qualEnd := some 0 } ready, by decide +kernel⟩
  · exact ⟨0, 1, 0, setView 0 { frozen := true, qualEnd := some 0, partnerHeld := true, recorded := [(0, 0)], drefs := [(0, 0)] } (setView 1 { locked := true } (withSet [(0x0600, 0, pay 32 [(1, 1, 1), (3, 1, 1)])] ready)), by decide +kernel⟩
  · exact ⟨0, 1, 0, setView 0 { frozen := true, qualEnd := some 0, partnerHeld := true, recorded := [(0, 5)], drefs := [(0, 0)] } (setView 1 { locked := true } (withSet [(0x0600, 0, pay 32 [(1, 1, 1), (3, 1, 1)])] ready)), by decide +kernel⟩
  · exact ⟨0, 0, 0, setView 0 { step := some (0, 0) } ready, by decide +kernel⟩
  · exact ⟨{ ready with time := { ready.time with
      sel := { slewing := true } } }, by decide +kernel⟩
  · exact ⟨0, 8, ready, by decide +kernel⟩

/-- Every clause of PtpAndPpsEventsAct is about something. -/
theorem test_met_PtpAndPpsEventsAct :
  (∃ (port : Nat) (m : PtpMsg) (s : State), (ptpCfg (posImage s) port).role = 0
      ∨ ((ptpCfg (posImage s) port).role = 1 ∨ (ptpCfg (posImage s) port).role = 2) ∧ ptpSupported (ptpCfg (posImage s) port) m = false)
  ∧ (∃ (port : Nat) (m : PtpMsg) (s : State), (ptpCfg (posImage s) port).role = 3)
  ∧ (∃ (port : Nat) (m : PtpMsg) (c : PtpCfg) (s : State), c = ptpCfg (posImage s) port ∧ c.role = 1
      ∧ ptpSupported c m = true)
  ∧ (∃ (port : Nat) (m : PtpMsg) (c : PtpCfg) (s : State), c = ptpCfg (posImage s) port ∧ c.role = 2
      ∧ ptpSupported c m = true)
  ∧ (∃ (port : Nat) (s : State), (ptpCfg (posImage s) port).role = 2)
  ∧ (∃ (port sub : Nat) (s : State), (ptpCfg (posImage s) port).role = 2
      ∧ (ptpCfg (posImage s) port).oneStep = true)
  ∧ (∃ (port sub : Nat) (s : State), (ptpCfg (posImage s) port).role = 2
      ∧ (ptpCfg (posImage s) port).oneStep = false)
  ∧ (∃ (port sub : Nat) (s : State), (ptpCfg (posImage s) port).role = 1)
  ∧ (∃ (port : Nat) (e : TxqEntry) (rest : List TxqEntry) (s : State), txqLive s port = true
      ∧ (txq s port).entries = e :: rest)
  ∧ (∃ (port : Nat) (s : State), txqLive s port = true)
  ∧ (∃ (port : Nat) (s : State), txqLive s port = true)
  ∧ (∃ (falling : Bool) (sub : Nat) (s : State), (ppsCfg (posImage s)).inOn = true
      ∧ (ppsCfg (posImage s)).inFalling = falling ∧ (∀ t, s.time.ppsLast = some t → msTicks 500 ≤ since s t))
  ∧ (∃ (falling : Bool) (sub t : Nat) (s : State), (ppsCfg (posImage s)).inOn = true
      ∧ (ppsCfg (posImage s)).inFalling = falling ∧ s.time.ppsLast = some t ∧ since s t < msTicks 500)
  ∧ (∃ (g : Clk10Edges) (s : State), (ppsCfg (posImage s)).clk10In = true ∧ 2 ≤ ticksFrom g.firstDc (dcNow s))
  ∧ (∃ (sec up : Nat) (s : State), (ppsCfg (posImage s)).outMode = 1 ∧ s.fault.stop = false
      ∧ sec = (ppsOutValue s / (1000000000 * 2 ^ 32)).toNat ∧ ppsOutValue s % (1000000000 * 2 ^ 32) < 6878818796
      ∧ (∀ n, s.time.ppsOutSecond = some n → n < sec) ∧ (∀ t, s.time.ppsOutAt = some t → msTicks 500 ≤ since s t)
      ∧ up = ppsOutPs s (-(ppsOutValue s % (1000000000 * 2 ^ 32)))) := by
  refine ⟨?_, ?_, ?_, ?_, ?_, ?_, ?_, ?_, ?_, ?_, ?_, ?_, ?_, ?_, ?_⟩
  · exact ⟨0, ptpMsg, ready, by decide +kernel⟩
  · exact ⟨0, ptpMsg, withSet [(0x0601, 0, pay 32 [(1, 1, 3)])] ready, by decide +kernel⟩
  · exact ⟨0, ptpMsg, _, withSet [(0x0601, 0, pay 32 [(1, 1, 1)])] ready, rfl, by decide +kernel, by decide +kernel⟩
  · exact ⟨0, ptpMsg, _, withSet [(0x0601, 0, pay 32 [(1, 1, 2)])] ready, rfl, by decide +kernel, by decide +kernel⟩
  · exact ⟨0, withSet [(0x0601, 0, pay 32 [(1, 1, 2)])] ready, by decide +kernel⟩
  · exact ⟨0, 0, withSet [(0x0601, 0, pay 32 [(1, 1, 2), (9, 1, 1)])] ready, by decide +kernel⟩
  · exact ⟨0, 0, withSet [(0x0601, 0, pay 32 [(1, 1, 2)])] ready, by decide +kernel⟩
  · exact ⟨0, 0, withSet [(0x0601, 0, pay 32 [(1, 1, 1)])] ready, by decide +kernel⟩
  · exact ⟨0, ⟨0, 0, 0, 0, 0, 0, 0, 0⟩, [], setTxq 0 { entries := [⟨0, 0, 0, 0, 0, 0, 0, 0⟩] } (withSet [(0x0601, 0, pay 32 [(1, 1, 3)])] ready), by decide +kernel⟩
  · exact ⟨0, withSet [(0x0601, 0, pay 32 [(1, 1, 3)])] ready, by decide +kernel⟩
  · exact ⟨0, withSet [(0x0601, 0, pay 32 [(1, 1, 3)])] ready, by decide +kernel⟩
  · exact ⟨false, 0, withSet [(0x0603, 0, pay 16 [(0, 1, 1)])] ready, by decide +kernel, by decide +kernel, fun _ h => by cases h⟩
  · exact ⟨false, 0, 2 ^ 44, withSet [(0x0603, 0, pay 16 [(0, 1, 1)])] ({ ready with time := { ready.time with
      ppsLast := some (2 ^ 44) } }), by decide +kernel⟩
  · exact ⟨⟨10000000, 0, 0, 0⟩, withSet [(0x0603, 0, pay 16 [(3, 1, 1)])] ready, by decide +kernel⟩
  · exact ⟨0, _, withSet [(0x0603, 0, pay 16 [(1, 1, 1)])] ({ ready with time := { ready.time with
      dc := 0 } }), by decide +kernel, by decide +kernel, by decide +kernel, by decide +kernel, (fun _ h => by cases h), (fun _ h => by cases h), rfl⟩

/-- Every clause of LaneEventsAct is about something. -/
theorem test_met_LaneEventsAct :
  (∃ (k : Nat), k < 4)
  ∧ (∃ (l transitions idle : Nat) (s : State), (laneOf s l).adapts = true
      ∧ (lowDensity transitions = true ∨ 4096 ≤ idle))
  ∧ (∃ (l transitions : Nat) (s : State), (laneOf s l).has flFrozen = true
      ∧ lowDensity transitions = false)
  ∧ (∃ (l tap : Nat) (upper : Bool) (y : Lane) (s : State), (laneOf s l).adapts = true
      ∧ (laneOf s l).hasAnchor = true ∧ tap < 26 ∧ y = { (laneOf s l).flag flWander true with
        coeffs := coefPut (laneOf s l).coeffs tap (coefGet (laneOf s l).anchor tap + if upper then wander else -wander)
        atBound := (laneOf s l).atBound ||| 2 ^ tap, hits := min 255 ((laneOf s l).hits + 1) })
  ∧ (∃ (l n : Nat) (s : State), (laneOf s l).eq.interval = some n ∧ s.start.w1Running = false
      ∧ (((calTarget s l).due = false ∧ calFallsDue s l = false) ∨ calBarred s l = true ∨ calOpen s l = false) ∧ secTicks n ≤ since s (laneOf s l).anchorDc)
  ∧ (∃ (l : Nat) (now : Coeffs) (s : State), (laneOf s l).reanchor = true ∧ (laneOf s l).st = lsUp)
  ∧ (∃ (l : Nat) (partner : List (Nat × Nat)), True)
  ∧ (∃ (l : Nat) (present : Bool) (s : State), (laneOf s l).st ≠ lsOff)
  ∧ (∃ (l : Nat) (present : Bool) (s : State), (laneOf s l).st = lsOff) := by
  refine ⟨?_, ?_, ?_, ?_, ?_, ?_, ?_, ?_, ?_⟩
  · exact ⟨3, by decide⟩
  · exact ⟨0, 0, 0, setLane 0 { st := lsUp } ready, by decide +kernel⟩
  · exact ⟨0, 65536, setLane 0 { live := 2 ^ flFrozen } ready, by decide +kernel⟩
  · exact ⟨0, 25, true, _, setLane 0 { st := lsUp, hasAnchor := true } ready, by decide +kernel, by decide +kernel, by decide, rfl⟩
  · exact ⟨0, 3600, setLane 0 { st := lsTest } ready, by decide +kernel⟩
  · exact ⟨0, {}, setLane 0 { st := lsUp, reanchor := true } ready, by decide +kernel⟩
  · exact ⟨0, [(1, 0)], trivial⟩
  · exact ⟨0, true, setLane 0 { st := lsUp } ready, by decide +kernel⟩
  · exact ⟨0, true, ready, by decide +kernel⟩

/-- Every clause of TrainingAndLockEventsAct is about something. -/
theorem test_met_TrainingAndLockEventsAct :
  (∃ (l control status identity wish : Nat) (good : Bool) (s : State), (laneOf s l).framing = true ∧ bitsOf identity 8 8 = lanePosition (laneOf s l) l)
  ∧ (∃ (l control status identity wish : Nat) (good : Bool) (s : State), (laneOf s l).framing = true ∧ bitsOf identity 8 8 ≠ lanePosition (laneOf s l) l)
  ∧ (∃ (l : Nat) (now : Trained) (y : Lane) (s : State), (laneOf s l).set.mode ≠ modeGraft ∧ (laneOf s l).st = lsTraining
      ∧ y = ({ laneOf s l with
        coeffs := now.coeffs, pre := min 16 now.pre, post := min 24 now.post
        trainingMs := since s (laneOf s l).trainStart / msTicks 1, tries := 0, readyRun := 0 }).anchored (dcNow s))
  ∧ (∃ (l : Nat) (now : Trained) (y : Lane) (s : State), (laneOf s l).set.mode = modeGraft ∧ (laneOf s l).framing = true
      ∧ (laneOf s l).readyRun = 32
      ∧ y = ({ laneOf s l with
        coeffs := now.coeffs, trainingMs := since s (laneOf s l).trainStart / msTicks 1, tries := 0, readyRun := 0 }).anchored (dcNow s))
  ∧ (∃ (l : Nat) (s : State), (laneOf s l).set.mode ≠ modeGraft ∧ (laneOf s l).st = lsTraining ∧ (laneOf s l).tries < 2)
  ∧ (∃ (l : Nat) (s : State), (laneOf s l).set.mode = modeGraft ∧ (laneOf s l).framing = true
      ∧ msTicks 100 ≤ since s (laneOf s l).trainStart ∧ (laneOf s l).tries < 2)
  ∧ (∃ (l : Nat) (s : State), 2 ≤ (laneOf s l).tries
      ∧ ((laneOf s l).set.mode ≠ modeGraft ∧ (laneOf s l).st = lsTraining
        ∨ (laneOf s l).set.mode = modeGraft ∧ (laneOf s l).framing = true ∧ msTicks 100 ≤ since s (laneOf s l).trainStart))
  ∧ (∃ (l ps : Nat) (s : State), (laneOf s l).energy = true ∧ ((laneOf s l).set.manual && (laneOf s l).set.fec == 0) = false
      ∧ (laneOf s l).locked = false ∧ (laneOf s l).st = lsAligning)
  ∧ (∃ (l ps : Nat) (s : State), (laneOf s l).energy = true ∧ ((laneOf s l).set.manual && (laneOf s l).set.fec == 0) = false
      ∧ (laneOf s l).locked = false ∧ (laneOf s l).st = lsRetraining ∧ ((laneOf s l).trained = true ∨ (laneOf s l).eq.fixed = true))
  ∧ (∃ (l bad : Nat) (s : State), (laneOf s l).st = lsUp)
  ∧ (∃ (l bad : Nat) (s : State), (laneOf s l).locked = true
      ∧ ((laneOf s l).st = lsAligning ∨ (laneOf s l).st = lsRetraining))
  ∧ (∃ (l : Nat) (s : State), (laneOf s l).testing = true ∧ (laneOf s l).test.chk ≠ 0)
  ∧ (∃ (l errors : Nat) (s : State), (laneOf s l).testing = true ∧ (laneOf s l).test.locked = true ∧ 1024 < errors
      ∧ errors ≤ 4096) := by
  refine ⟨?_, ?_, ?_, ?_, ?_, ?_, ?_, ?_, ?_, ?_, ?_, ?_, ?_⟩
  · exact ⟨0, 0, 0, 0, 0, true, setLane 0 { set := { mode := modeGraft }, st := lsTraining } ready, by decide +kernel⟩
  · exact ⟨0, 0, 0, 256, 0, true, setLane 0 { set := { mode := modeGraft }, st := lsTraining } ready, by decide +kernel⟩
  · exact ⟨0, ⟨{}, 16, 24⟩, _, setLane 0 { st := lsTraining } ready, by decide +kernel, by decide +kernel, rfl⟩
  · exact ⟨0, ⟨{}, 0, 0⟩, _, setLane 0 { set := { mode := modeGraft }, st := lsTraining, readyRun := 32 } ready, by decide +kernel, by decide +kernel, by decide +kernel, rfl⟩
  · exact ⟨0, setLane 0 { st := lsTraining } ready, by decide +kernel⟩
  · exact ⟨0, setLane 0 { set := { mode := modeGraft }, st := lsTraining } ready, by decide +kernel⟩
  · exact ⟨0, setLane 0 { st := lsTraining, tries := 2 } ready, by decide +kernel, .inl ⟨by decide +kernel, by decide +kernel⟩⟩
  · exact ⟨0, 0, setLane 0 { st := lsAligning, energy := true } ready, by decide +kernel⟩
  · exact ⟨0, 0, setLane 0 { st := lsRetraining, energy := true, trained := true } ready, by decide +kernel⟩
  · exact ⟨0, 0, setLane 0 { st := lsUp } ready, by decide +kernel⟩
  · exact ⟨0, 0, setLane 0 { st := lsAligning, locked := true } ready, by decide +kernel, .inl (by decide +kernel)⟩
  · exact ⟨0, setLane 0 { st := lsTest, test := { chk := 1 } } ready, by decide +kernel⟩
  · exact ⟨0, 4096, setLane 0 { st := lsTest, test := { locked := true } } ready, by decide +kernel⟩

set_option maxRecDepth 10000 in
/-- Every clause of GraftEventsAct is about something. -/
theorem test_met_GraftEventsAct :
  (∃ (first : Nat) (data : Bytes) (s : State), (laneOf s first).set.mode = modeGraft ∧ (graftOf s first).rxMap ≠ 0
      ∧ fld (fitTo 256 data) 252 4 ≠ crc32 ((fitTo 256 data).take 252))
  ∧ (∃ (first : Nat) (data b : Bytes) (s : State), (laneOf s first).set.mode = modeGraft ∧ (graftOf s first).rxMap ≠ 0
      ∧ b = fitTo 256 data ∧ fld b 252 4 = crc32 (b.take 252) ∧ fld b 4 1 ≠ 0 ∧ bitOf (fld b 1 1) 1 = false)
  ∧ (∃ (first : Nat) (s : State), (graftOf s first).held ≠ [] ∧ (graftOf s first).failed = false
      ∧ replayTimeout (graftOf s first) ≤ since s (graftOf s first).progressAt)
  ∧ (∃ (first : Nat) (s : State), (laneOf s first).set.mode = modeGraft)
  ∧ (∃ (lane first : Nat) (s : State), first = (laneOf s lane).set.first ∧ (laneOf s lane).set.mode = modeGraft
      ∧ (laneOf s lane).locked = true ∧ (laneOf s lane).st = lsAligning ∧ (graftOf s first).rxMap ≠ 0 ∧ (graftOf s first).failed = false)
  ∧ (∃ (first : Nat) (s : State), (laneOf s first).set.mode = modeGraft ∧ (graftOf s first).failed = false
      ∧ graftOf s first ≠ {} ∧ graftLost s (graftOf s first) = true) := by
  refine ⟨?_, ?_, ?_, ?_, ?_, ?_⟩
  · exact ⟨48, [], setGraft 48 { txMap := 1, rxMap := 1 } (setLane 48 { set := { mode := modeGraft, first := 48 } } ready), by decide +kernel⟩
  · exact ⟨48, sealed (pay 252 [(4, 1, 1)]), _, setGraft 48 { txMap := 1, rxMap := 1 } (setLane 48 { set := { mode := modeGraft, first := 48 } } ready), by decide +kernel, by decide +kernel, rfl, by decide +kernel, by decide +kernel, by decide +kernel⟩
  · exact ⟨48, setGraft 48 { txMap := 1, rxMap := 1, held := [(0, ⟨1, []⟩)] } (setLane 48 { set := { mode := modeGraft, first := 48 } } ready), by decide +kernel⟩
  · exact ⟨48, setGraft 48 { txMap := 1, rxMap := 1 } (setLane 48 { set := { mode := modeGraft, first := 48 } } ready), by decide +kernel⟩
  · exact ⟨49, 48, setGraft 48 { txMap := 1, rxMap := 1 } (setLane 49 { set := { mode := modeGraft, first := 48 }, locked := true, st := lsAligning } ready), by decide +kernel⟩
  · exact ⟨48, setGraft 48 { txMap := 1 } (setLane 48 { set := { mode := modeGraft, first := 48 } } ready), by decide +kernel⟩

/-- Every clause of CameraEventsAct is about something. -/
theorem test_met_CameraEventsAct :
  (∃ (port k : Nat) (data : Bytes) (s : State), isPort (posImage s) modeEth port = true ∧ portUp s port = true
      ∧ frameUse s port data = .discard k)
  ∧ (∃ (port : Nat) (data r : Bytes) (s : State), isPort (posImage s) modeEth port = true ∧ portUp s port = true
      ∧ frameUse s port data = .answer r)
  ∧ (∃ (port : Nat) (data : Bytes) (s : State), isPort (posImage s) modeEth port = true ∧ portUp s port = true
      ∧ (frameUse s port data = .ptp ∨ frameUse s port data = .ack ∨ frameUse s port data = .stream))
  ∧ (∃ (port h : Nat) (data body : Bytes) (s : State), isPort (posImage s) modeEth port = true ∧ portUp s port = true
      ∧ frameUse s port data = .event h body)
  ∧ (∃ (bus : Nat) (seen : ModuleSeen) (s : State), bus < 16 ∧ s.start.w1Running = false
      ∧ msTicks 100 ≤ since s (moduleOf s bus).lastPoll ∧ seen.present = false)
  ∧ (∃ (bus : Nat) (seen : ModuleSeen) (lanes : State → List Nat) (s : State), bus < 16 ∧ s.start.w1Running = false
      ∧ msTicks 100 ≤ since s (moduleOf s bus).lastPoll ∧ seen.present = true ∧ seen.cmis = true ∧ 0x40 ≤ seen.revision
      ∧ lanes s = (busLanes bus).filter (fun l => (laneOf s l).set.mode != 0))
  ∧ (∃ (h reqId status ack iface : Nat) (payload : Bytes) (respOk : Bool) (o : CtlOut) (s : State), (headOf s h).out = some o ∧ o.reqId = reqId ∧ (headSet s h).protocol = 1 ∧ o.job.tag = 3)
  ∧ (∃ (h reqId ack iface : Nat) (payload : Bytes) (respOk : Bool) (o : CtlOut) (s : State), (headOf s h).out = some o ∧ o.reqId = reqId ∧ (headSet s h).protocol = 1 ∧ o.job.tag = 1 ∧ o.job.ref = 0)
  ∧ (∃ (h : Nat) (respOk : Bool) (o : CtlOut) (s : State), (headOf s h).out = some o ∧ msTicks 50 ≤ since s o.sentAt
      ∧ o.sends < 3 ∧ probe o.job = false)
  ∧ (∃ (h : Nat) (respOk : Bool) (o : CtlOut) (s : State), (headOf s h).out = some o ∧ msTicks 50 ≤ since s o.sentAt
      ∧ 3 ≤ o.sends ∧ o.job.tag = 3)
  ∧ (∃ (h : Nat) (s : State), headReady s h = true ∧ (headSet s h).protocol = 1
      ∧ msTicks (headSet s h).heartbeatMs ≤ 3 * since s (headOf s h).lastRead ∧ (headOf s h).onAlt = false ∧ (headOf s h).silent = []
      ∧ (headJobs (headOf s h)).any (fun j => j.tag == 1) = false)
  ∧ (∃ (h : Nat) (s : State), (headOf s h).st = hsLost ∧ headOn (posImage s) h = true ∧ secTicks 1 ≤ since s (headOf s h).since)
  ∧ (∃ (h : Nat) (s : State), (headOf s h).st = hsStreaming
      ∧ usTicks (headSet s h).blockTimeoutUs ≤ since s (headOf s h).lastPacket)
  ∧ (∃ (h : Nat) (s : State), (headSet s h).protocol = 2 ∧ (headOf s h).st ≠ hsOff ∧ portUp s (headSet s h).port = true
      ∧ msTicks 100 ≤ since s (headOf s h).beatSent)
  ∧ (∃ (h : Nat) (s : State), (headSet s h).protocol = 2
      ∧ (headReady s h = true ∨ (headOf s h).st = hsConnecting) ∧ msTicks (headSet s h).heartbeatMs ≤ since s (headOf s h).heard)
  ∧ (∃ (h reqId status : Nat) (payload : Bytes) (respOk : Bool) (s : State), (headSet s h).protocol = 2 ∧ (headOf s h).st = hsConnecting)
  ∧ (∃ (h reqId status : Nat) (payload : Bytes) (respOk : Bool) (o : CtlOut) (s : State), (headSet s h).protocol = 2 ∧ (headOf s h).st ≠ hsOff ∧ (headOf s h).out = some o ∧ o.reqId = reqId ∧ o.job.tag ≠ 2)
  ∧ (∃ (h reqId status : Nat) (payload : Bytes) (respOk : Bool) (s : State), (headSet s h).protocol = 2 ∧ (headOf s h).st ≠ hsOff)
  ∧ (∃ (h : Nat) (due : List Sched) (s : State), due = (headOf s h).schedules.filter (fun d =>
      !d.sent && decide (d.sendAt ≤ (trigUnit s (headSet s h).unit).h)) ∧ due ≠ [])
  ∧ (∃ (respOk : Bool) (k : Held) (start : Nat → State → State) (s : State), s.mbx.hold = some k ∧ k.head < 48
      ∧ usTicks 1500 ≤ since s k.since ∧ s.mbx.answering = true ∧ ticketsOf s k.req.fn < ticketLimit k.req.fn ∧ start = fun n t => modHead k.head (fun x => { x with
        jobs := x.jobs.map (retag n), out := x.out.map (fun o => { o with job := retag n o.job }) }) t) := by
  refine ⟨?_, ?_, ?_, ?_, ?_, ?_, ?_, ?_, ?_, ?_, ?_, ?_, ?_, ?_, ?_, ?_, ?_, ?_, ?_, ?_⟩
  · exact ⟨0, 1, [], ethUp, by decide +kernel⟩
  · exact (some_of (o := answerOf (frameUse ethUp 0 arpFrame)) (by decide +kernel)).elim fun r h =>
      ⟨0, arpFrame, r, ethUp, by decide +kernel, by decide +kernel, answerOf_some h⟩
  · exact ⟨0, sealed (pay 60 [(12, 1, 0x88), (13, 1, 0xF7)]), ethUp, by decide +kernel, by decide +kernel, .inl (by decide +kernel)⟩
  · exact (some_of (o := eventOf (frameUse ethUp 0 eventFrame)) (by decide +kernel)).elim fun r h =>
      ⟨0, r.1, eventFrame, r.2, ethUp, by decide +kernel, by decide +kernel, eventOf_some h⟩
  · exact ⟨0, ⟨false, 0, false, 0, 0⟩, ready, by decide +kernel⟩
  · exact ⟨0, ⟨true, 0x18, true, 0x40, 0⟩, (fun s => (busLanes 0).filter (fun l => (laneOf s l).set.mode != 0)), ready, by decide +kernel, by decide +kernel, by decide +kernel, rfl, rfl, by decide, rfl⟩
  · exact ⟨0, 7, 0, 0, 0, [], true, ⟨⟨3, 5, 0, [], none⟩, 7, 1, 0⟩, setHead 0 { out := some ⟨⟨3, 5, 0, [], none⟩, 7, 1, 0⟩ } (withSet [(0x0301, 0, pay 64 [(1, 1, 1)])] ready), by decide +kernel⟩
  · exact ⟨0, 7, 0, 0, [], true, ⟨⟨1, 0, gvcpReadReg, [], none⟩, 7, 1, 0⟩, setHead 0 { out := some ⟨⟨1, 0, gvcpReadReg, [], none⟩, 7, 1, 0⟩ } (withSet [(0x0301, 0, pay 64 [(1, 1, 1)])] ready), by decide +kernel⟩
  · exact ⟨0, true, ⟨⟨3, 5, 0, [], none⟩, 7, 1, 0⟩, setHead 0 { out := some ⟨⟨3, 5, 0, [], none⟩, 7, 1, 0⟩ } ready, by decide +kernel⟩
  · exact ⟨0, true, ⟨⟨3, 5, 0, [], none⟩, 7, 3, 0⟩, setHead 0 { out := some ⟨⟨3, 5, 0, [], none⟩, 7, 3, 0⟩ } ready, by decide +kernel⟩
  · exact ⟨0, setHead 0 { st := hsReady } (withSet [(0x0301, 0, pay 64 [(1, 1, 1)])] ready), by decide +kernel⟩
  · exact ⟨0, setHead 0 { st := hsLost } (withSet [(0x0301, 0, pay 64 [(1, 1, 1)])] ready), by decide +kernel⟩
  · exact ⟨0, setHead 0 { st := hsStreaming } ready, by decide +kernel⟩
  · exact ⟨0, setHead 0 { st := hsReady } (withSet [(0x0301, 0, pay 64 [(1, 1, 2)])] (setLane 0 { st := lsUp, set := { mode := 8 } } ready)), by decide +kernel⟩
  · exact ⟨0, setHead 0 { st := hsConnecting } (withSet [(0x0301, 0, pay 64 [(1, 1, 2)])] ready), by decide +kernel, .inr (by decide +kernel), by decide +kernel⟩
  · exact ⟨0, 0, 0, [], true, setHead 0 { st := hsConnecting } (withSet [(0x0301, 0, pay 64 [(1, 1, 2)])] ready), by decide +kernel⟩
  · exact ⟨0, 7, 0, [], true, ⟨⟨3, 5, 0, [], none⟩, 7, 1, 0⟩, setHead 0 { st := hsReady, out := some ⟨⟨3, 5, 0, [], none⟩, 7, 1, 0⟩ } (withSet [(0x0301, 0, pay 64 [(1, 1, 2)])] ready), by decide +kernel⟩
  · exact ⟨0, 0, 0, [], true, setHead 0 { st := hsConnecting } (withSet [(0x0301, 0, pay 64 [(1, 1, 2)])] ready), by decide +kernel⟩
  · exact ⟨0, _, setHead 0 { schedules := [⟨1, 0, 0, -5, 0, 0, 0, [], false, false, 0, 0⟩] } ready, rfl, by decide +kernel⟩
  · exact ⟨true, ⟨rq false 0x0311 [], 0, 0, true⟩, _, { ready with mbx := { ready.mbx with
      hold := some ⟨rq false 0x0311 [], 0, 0, true⟩ } }, rfl, by decide, by decide +kernel, by decide +kernel, by decide +kernel, rfl⟩

/-- Every clause of StreamEventsAct is about something. -/
theorem test_met_StreamEventsAct :
  (∃ (p : StreamPacket) (s : State), headReady s p.head = false ∧ headOn (posImage s) p.head = true)
  ∧ (∃ (p : StreamPacket) (n : Nat) (c : StreamCfg) (s : State), headReady s p.head = true
      ∧ packetStream s p = some n ∧ streamSet s n = some c ∧ (headSet s p.head).protocol = 1 ∧ (p.extended = false ∨ p.allIn = true))
  ∧ (∃ (p : StreamPacket) (s : State), headReady s p.head = true ∧ packetStream s p = none
      ∧ (headSet s p.head).protocol ≠ 1)
  ∧ (∃ (p : StreamPacket) (n : Nat) (c : StreamCfg) (s : State), headReady s p.head = true
      ∧ packetStream s p = some n ∧ streamSet s n = some c ∧ (headSet s p.head).protocol = 1
      ∧ p.extended = true ∧ p.allIn = false ∧ p.kind ≠ 3 ∧ leaderBad c p = none ∧ (chan7 s n).dropping ≠ some p.block)
  ∧ (∃ (p : StreamPacket) (n : Nat) (c : StreamCfg) (s : State), headReady s p.head = true
      ∧ packetStream s p = some n ∧ streamSet s n = some c ∧ (headSet s p.head).protocol ≠ 1
      ∧ (p.crcOk = true ∨ p.kind = 1) ∧ p.kind ≠ 3 ∧ leaderBad c p = none ∧ (chan7 s n).dropping ≠ some p.block)
  ∧ (∃ (p : StreamPacket) (n k : Nat) (c : StreamCfg) (s : State), headReady s p.head = true
      ∧ packetStream s p = some n ∧ streamSet s n = some c
      ∧ ((headSet s p.head).protocol = 1 → p.extended = true ∧ p.allIn = false) ∧ ((headSet s p.head).protocol ≠ 1 → p.crcOk = true)
      ∧ leaderBad c p = some k ∧ (chan7 s n).dropping ≠ some p.block)
  ∧ (∃ (p : StreamPacket) (n : Nat) (c : StreamCfg) (b : Block) (s : State), headReady s p.head = true
      ∧ packetStream s p = some n ∧ streamSet s n = some c ∧ (headSet s p.head).protocol = 1
      ∧ p.extended = true ∧ p.allIn = false ∧ p.kind = 3 ∧ (chan7 s n).blocks.find? (fun b => b.id == p.block) = some b)
  ∧ (∃ (n : Nat) (c : StreamCfg) (b : Block) (s : State), streamSet s n = some c
      ∧ (chan7 s n).blocks.find? (fun b => !b.closed) = some b ∧ usTicks (headSet s c.head).blockTimeoutUs ≤ since s (chan7 s n).lastPacket
      ∧ c.channel < 1024)
  ∧ (∃ (n : Nat) (c : StreamCfg) (b : Block) (s : State), streamSet s n = some c
      ∧ (chan7 s n).blocks.find? (fun b => !b.closed) = some b ∧ usTicks (headSet s c.head).blockTimeoutUs ≤ since s (chan7 s n).lastPacket
      ∧ 1024 ≤ c.channel)
  ∧ (∃ (n : Nat) (c : StreamCfg) (s : State), streamSet s n = some c)
  ∧ (∃ (n : Nat) (c : StreamCfg) (b : Block) (g : Gap) (s : State), streamSet s n = some c
      ∧ (chan7 s n).blocks.findSome? (fun b => (b.gaps.find? (fun g => g.requests != 0
        && decide (usTicks (headSet s c.head).resendWaitUs ≤ since s g.askedAt))).map (fun g => (b, g))) = some (b, g)
      ∧ g.requests < (headSet s c.head).resendAttempts)
  ∧ (∃ (n : Nat) (c : StreamCfg) (b : Block) (g : Gap) (s : State), streamSet s n = some c
      ∧ (chan7 s n).blocks.findSome? (fun b => (b.gaps.find? (fun g => g.requests != 0
        && decide (usTicks (headSet s c.head).resendWaitUs ≤ since s g.askedAt))).map (fun g => (b, g))) = some (b, g)
      ∧ (headSet s c.head).resendAttempts ≤ g.requests) := by
  refine ⟨?_, ?_, ?_, ?_, ?_, ?_, ?_, ?_, ?_, ?_, ?_, ?_⟩
  · exact ⟨dataPacket, setHead 0 {} (withSet [(0x0301, 0, pay 64 [(1, 1, 1)])] ready), by decide +kernel⟩
  · exact ⟨{ dataPacket with allIn := true }, 0, streamCfgOf (pay 32 [(3, 1, 1), (4, 2, 1), (6, 1, 255), (8, 4, 512), (12, 4, 1), (16, 4, 1)]), gigeStream, by decide +kernel, by decide +kernel, by decide +kernel, by decide +kernel, .inr rfl⟩
  · exact ⟨{ dataPacket with channel := 7 }, setHead 0 { st := hsStreaming } (withSet [(0x0301, 0, pay 64 [(1, 1, 2), (3, 1, 255)]),
      (0x0302, 0, pay 32 [(3, 1, 1), (4, 2, 1), (6, 1, 255), (8, 4, 512), (12, 4, 1), (16, 4, 1)])] ready), by decide +kernel⟩
  · exact ⟨dataPacket, 0, streamCfgOf (pay 32 [(3, 1, 1), (4, 2, 1), (6, 1, 255), (8, 4, 512), (12, 4, 1), (16, 4, 1)]), gigeStream, by decide +kernel⟩
  · exact ⟨dataPacket, 0, streamCfgOf (pay 32 [(3, 1, 1), (4, 2, 1), (6, 1, 255), (8, 4, 512), (12, 4, 1), (16, 4, 1)]), setHead 0 { st := hsStreaming } (withSet [(0x0301, 0, pay 64 [(1, 1, 2), (3, 1, 255)]),
      (0x0302, 0, pay 32 [(3, 1, 1), (4, 2, 1), (6, 1, 255), (8, 4, 512), (12, 4, 1), (16, 4, 1)])] ready), by decide +kernel, by decide +kernel, by decide +kernel, by decide +kernel, .inl rfl, by decide +kernel, by decide +kernel, by decide +kernel⟩
  · exact ⟨{ dataPacket with kind := 0, payloadType := 3 }, 0, 8, streamCfgOf (pay 32 [(3, 1, 1), (4, 2, 1), (6, 1, 255), (8, 4, 512), (12, 4, 1), (16, 4, 1)]), gigeStream, by decide +kernel⟩
  · exact ⟨{ dataPacket with kind := 3 }, 0, streamCfgOf (pay 32 [(3, 1, 1), (4, 2, 1), (6, 1, 255), (8, 4, 512), (12, 4, 1), (16, 4, 1)]), ⟨1, 0, 512, [], [], [], [], 1, 0, 0, false, false, none, []⟩, setChan7 0 { blocks := [⟨1, 0, 512, [], [], [], [], 1, 0, 0, false, false, none, []⟩] } gigeStream, by decide +kernel⟩
  · exact ⟨0, streamCfgOf (pay 32 [(3, 1, 1), (4, 2, 1), (6, 1, 255), (8, 4, 512), (12, 4, 1), (16, 4, 1)]), ⟨1, 0, 512, [], [], [], [], 1, 0, 0, false, false, none, []⟩, setChan7 0 { blocks := [⟨1, 0, 512, [], [], [], [], 1, 0, 0, false, false, none, []⟩] } gigeStream, by decide +kernel⟩
  · exact ⟨0, streamCfgOf (pay 32 [(3, 1, 1), (4, 2, 1024), (6, 1, 255), (8, 4, 512), (12, 4, 1), (16, 4, 1)]), ⟨1, 0, 512, [], [], [], [], 1, 0, 0, false, false, none, []⟩, setChan7 0 { blocks := [⟨1, 0, 512, [], [], [], [], 1, 0, 0, false, false, none, []⟩] } (withSet [(0x0302, 0, pay 32 [(3, 1, 1), (4, 2, 1024), (6, 1, 255), (8, 4, 512), (12, 4, 1), (16, 4, 1)])] ready), by decide +kernel⟩
  · exact ⟨0, streamCfgOf (pay 32 [(3, 1, 1), (4, 2, 1), (6, 1, 255), (8, 4, 512), (12, 4, 1), (16, 4, 1)]), gigeStream, by decide +kernel⟩
  · exact ⟨0, streamCfgOf (pay 32 [(3, 1, 1), (4, 2, 1), (6, 1, 255), (8, 4, 512), (12, 4, 1), (16, 4, 1)]), ⟨1, 0, 512, [], [], [], [⟨1, 1, 1, 0⟩], 2, 0, 0, false, false, none, []⟩, ⟨1, 1, 1, 0⟩, setChan7 0 { blocks := [⟨1, 0, 512, [], [], [], [⟨1, 1, 1, 0⟩], 2, 0, 0, false, false, none, []⟩] } gigeStream, by decide +kernel⟩
  · exact ⟨0, streamCfgOf (pay 32 [(3, 1, 1), (4, 2, 1), (6, 1, 255), (8, 4, 512), (12, 4, 1), (16, 4, 1)]), ⟨1, 0, 512, [], [], [], [⟨1, 1, 255, 0⟩], 2, 0, 0, false, false, none, []⟩, ⟨1, 1, 255, 0⟩, setChan7 0 { blocks := [⟨1, 0, 512, [], [], [], [⟨1, 1, 255, 0⟩], 2, 0, 0, false, false, none, []⟩] } gigeStream, by decide +kernel⟩

/-- Every clause of LineEventsAct is about something. -/
theorem test_met_LineEventsAct :
  (∃ (n : Nat) (c : StreamCfg) (b : Block) (s : State), s.fault.stop = false ∧ streamSet s n = some c
      ∧ nextReady s n c = some b ∧ b.lines < c.frameLines)
  ∧ (∃ (n : Nat) (c : StreamCfg) (b : Block) (s : State), s.fault.stop = false ∧ streamSet s n = some c
      ∧ nextReady s n c = some b ∧ c.frameLines ≤ b.lines)
  ∧ (∃ (n : Nat) (s : State), s.fault.stop = true)
  ∧ (∃ (n : Nat) (l : LbLine) (s : State), (s.ing.lb.lines.reverse).find? (fun l => l.stream == n && l.waiting) = some l
      ∧ usTicks (lineWaitUs s n) ≤ since s l.arrDc ∧ bitOf l.flags 1 = false)
  ∧ (∃ (n : Nat) (l : LbLine) (s : State), (s.ing.lb.lines.reverse).find? (fun l => l.stream == n && l.waiting) = some l
      ∧ usTicks (lineWaitUs s n) ≤ since s l.arrDc ∧ bitOf l.flags 1 = true)
  ∧ (∃ (s : State), s.ing.lb.stripeFill ≠ 0 ∧ usTicks 1 ≤ since s s.ing.lb.stripeAt) := by
  refine ⟨?_, ?_, ?_, ?_, ?_, ?_⟩
  · exact ⟨0, streamCfgOf (pay 32 [(3, 1, 1), (4, 2, 1), (6, 1, 255), (8, 4, 512), (12, 4, 1), (16, 4, 1)]), ⟨1, 0, 512, [], [], [], [], 2, 512, 0, false, false, none, []⟩, setChan7 0 { blocks := [⟨1, 0, 512, [], [], [], [], 2, 512, 0, false, false, none, []⟩] } gigeStream, by decide +kernel⟩
  · exact ⟨0, streamCfgOf (pay 32 [(3, 1, 1), (4, 2, 1), (6, 1, 255), (8, 4, 512), (12, 4, 1), (16, 4, 1)]), ⟨1, 0, 512, [], [], [], [], 2, 1024, 1, false, false, none, []⟩, setChan7 0 { blocks := [⟨1, 0, 512, [], [], [], [], 2, 1024, 1, false, false, none, []⟩] } gigeStream, by decide +kernel⟩
  · exact ⟨0, setFault { stop := true } ready, by decide +kernel⟩
  · exact ⟨0, ⟨1, 0, some 5, 0, 0, 0, 0, 0, 0, 0, 0, 1, 1, 0, [some 0], true, 0, 0, 1, [0], none, false⟩, setLb { lines := [⟨1, 0, some 5, 0, 0, 0, 0, 0, 0, 0, 0, 1, 1, 0, [some 0], true, 0, 0, 1, [0], none, false⟩] } ready, by decide +kernel⟩
  · exact ⟨0, ⟨1, 0, some 5, 0, 0, 0, 0, 0, 2, 0, 0, 1, 1, 0, [some 0], true, 0, 0, 1, [0], none, false⟩, setLb { lines := [⟨1, 0, some 5, 0, 0, 0, 0, 0, 2, 0, 0, 1, 1, 0, [some 0], true, 0, 0, 1, [0], none, false⟩] } ready, by decide +kernel⟩
  · exact ⟨setLb { stripeFill := 1 } ready, by decide +kernel⟩

/-- Every clause of BedEventsAct is about something. -/
theorem test_met_BedEventsAct :
  (∃ (bed n : Nat) (credits : Tab Rat) (l : LbLine) (img : Image) (s : State), img = bedImage s bed
      ∧ drrPick img bed (bedSt s bed) ((bedStreams img bed).filter (fun n => ownerBed s n == bed && (readyLine s img n).isSome))
        = some (n, credits)
      ∧ readyLine s img n = some l)
  ∧ (∃ (grid t : Nat) (g : Gate) (late : List Nat) (s : State), grid < 64 ∧ gateOf s grid = some g
      ∧ g.clock = some t ∧ g.expired = none ∧ usTicks (memberWaitUs (posImage s) grid) ≤ since s t
      ∧ late = (membersOf s grid).filter (fun n => !memberPresent s n g.g) ∧ late ≠ [])
  ∧ (∃ (bed grid refetch : Nat) (gate : Gate) (t u : State) (s : State), s.fault.stop = false
      ∧ u = bumpBy 8 (1088 + bed * 4 + 2) refetch s ∧ gateOf u grid = some gate ∧ t = beforeRow bed gate.g gate.beds.isEmpty u
      ∧ rowsReady t bed grid = true ∧ graphsAccept t (bedImage t bed) (bedMembers t bed grid) = true) := by
  refine ⟨?_, ?_, ?_⟩
  · exact (some_of (o := drrPick (bedImage bedLoaded 0) 0 (bedSt bedLoaded 0) ((bedStreams (bedImage bedLoaded 0) 0).filter (fun n =>
      ownerBed bedLoaded n == 0 && (readyLine bedLoaded (bedImage bedLoaded 0) n).isSome))) (by decide +kernel)).elim fun r h =>
      (some_of (o := readyLine bedLoaded (bedImage bedLoaded 0) r.1) (by
        have : r.1 = 0 := bedLoaded_pick r h
        rw [this]; decide +kernel)).elim fun l hl => ⟨0, r.1, r.2, l, _, bedLoaded, rfl, h, hl⟩
  · exact ⟨3, 0, ⟨0, some 0, [], none, [], false⟩, _, setGate 3 (some ⟨0, some 0, [], none, [], false⟩) (withSet ((0x0701, 0, pay 16 [(1, 1, 255), (2, 1, 3)]) :: rowsSet) ready), by decide, by decide +kernel, rfl, rfl, by decide +kernel, rfl, by decide +kernel⟩
  · exact ⟨0, 64, 0, ⟨0, none, [0], some 0, [], false⟩, _, _, setGate 64 (some ⟨0, none, [0], some 0, [], false⟩) (withSet rowsSet ready), by decide +kernel, rfl, by decide +kernel, rfl, by decide +kernel, by decide +kernel⟩

/-- Every clause of GraphEventsAct is about something. -/
theorem test_met_GraphEventsAct :
  (∃ (g : Nat) (ups : List Upset) (s : State), (graphOf s g).fwd = [])
  ∧ (∃ (g : Nat) (ups : List Upset) (s : State), (graphOf s g).fwd ≠ [])
  ∧ (∃ (tile slot g : Nat) (row : Int) (run : Run) (s : State), tile < 32 ∧ slot < 16
      ∧ graphOnSlot s (tile * 16 + slot) = some g ∧ (graphOf s g).run = some run ∧ (∀ q, run.lastG = some q → row ≤ q) ∧ run.lastG.isSome = true
      ∧ hasSpare s tile = true ∧ tfind s.fab.fab.tests tile = none ∧ (graphOf s g).rerun = none ∧ (graphOf s g).stopped = false
      ∧ s.fault.inject = none)
  ∧ (∃ (tile slot g : Nat) (row : Int) (run : Run) (s : State), tile < 32 ∧ slot < 16
      ∧ graphOnSlot s (tile * 16 + slot) = some g ∧ (graphOf s g).run = some run ∧ (∀ q, run.lastG = some q → row ≤ q) ∧ run.lastG.isSome = true
      ∧ hasSpare s tile = true ∧ tfind s.fab.fab.tests tile = none ∧ (graphOf s g).rerun = none ∧ (graphOf s g).stopped = false
      ∧ s.fault.inject = none)
  ∧ (∃ (e : Nat) (s : State), e < 544 ∧ retiredEngine s e = false)
  ∧ (∃ (e k : Nat) (s : State), e < 544 ∧ retiredEngine s e = false
      ∧ slotOfEngine s e = some k ∧ tfind s.fab.fab.tests (e / 17) = none)
  ∧ (∃ (e : Nat) (s : State), e < 544 ∧ retiredEngine s e = false ∧ (tfind s.fab.fab.tests (e / 17)).isSome = true)
  ∧ (∃ (tile : Nat) (slotOk spareOk : Bool) (k : Kat) (s : State), tfind s.fab.fab.tests tile = some k ∧ usTicks 3 ≤ since s k.since ∧ k.injected = none)
  ∧ (∃ (g : Nat) (r : Rerun) (t : State) (s : State), (graphOf s g).rerun = some r
      ∧ t = (if r.reroute then reforward g r (setGraph g { graphOf s g with rerun := none } s)
        else rerunGraph g r (setGraph g { graphOf s g with rerun := none } s)) ∧ (graphOf t g).reruns = [])
  ∧ (∃ (g : Nat) (r q : Rerun) (rest : List Rerun) (t : State) (s : State), (graphOf s g).rerun = some r
      ∧ t = (if r.reroute then reforward g r (setGraph g { graphOf s g with rerun := none } s)
        else rerunGraph g r (setGraph g { graphOf s g with rerun := none } s)) ∧ (graphOf t g).reruns = q :: rest ∧ (graphOf t g).rerun = none)
  ∧ (∃ (s : State), atRowBoundary s = true ∧ s.fab.sprint.on = false ∧ sprintWanted s = true ∧ sprintBar s = none)
  ∧ (∃ (s : State), atRowBoundary s = false ∧ s.fab.sprint.on = false ∧ sprintWanted s = true ∧ sprintBar s = none)
  ∧ (∃ (s : State), atRowBoundary s = false ∧ s.fab.sprint.on = true ∧ (sprintCause s).isSome = true)
  ∧ (∃ (c : Nat) (s : State), atRowBoundary s = true ∧ s.fab.sprint.on = true ∧ sprintCause s = some c) := by
  refine ⟨?_, ?_, ?_, ?_, ?_, ?_, ?_, ?_, ?_, ?_, ?_, ?_, ?_, ?_⟩
  · exact ⟨0, [], ready, by decide +kernel⟩
  · exact ⟨0, [], setGraph 0 { fwd := [⟨0, ⟨0, 0, 0, 0, 0, 0, 0, [], 0, 0⟩, 0, 0, []⟩] } ready, by decide +kernel⟩
  · exact ⟨0, 0, 0, 5, run0, setFab { placed := [(0, [0])] } (setGraph 0 { run := some run0 } ready), by decide, by decide, by decide +kernel, rfl, (fun q h => by cases h; decide), rfl, by decide +kernel, rfl, rfl, rfl, rfl⟩
  · exact ⟨0, 0, 0, 5, run0, setFab { placed := [(0, [0])] } (setGraph 0 { run := some run0 } ready), by decide, by decide, by decide +kernel, rfl, (fun q h => by cases h; decide), rfl, by decide +kernel, rfl, rfl, rfl, rfl⟩
  · exact ⟨0, ready, by decide +kernel⟩
  · exact ⟨0, 0, ready, by decide +kernel⟩
  · exact ⟨0, setFab { tests := [(0, ⟨0, none, 0, none⟩)] } ready, by decide +kernel⟩
  · exact ⟨0, true, true, ⟨0, none, 0, none⟩, setFab { tests := [(0, ⟨0, none, 0, none⟩)] } ready, by decide +kernel⟩
  · exact ⟨0, ⟨0, 0, 0, 0, 0, 0, 0, 0, false, false, false⟩, _, setGraph 0 { rerun := some ⟨0, 0, 0, 0, 0, 0, 0, 0, false, false, false⟩ } ready, rfl, rfl, by decide +kernel⟩
  · exact ⟨0, ⟨0, 0, 0, 0, 0, 0, 0, 0, false, false, false⟩, ⟨0, 0, 0, 0, 0, 0, 0, 0, false, false, false⟩, [], _, setGraph 0 { rerun := some ⟨0, 0, 0, 0, 0, 0, 0, 0, false, false, false⟩, reruns := [⟨0, 0, 0, 0, 0, 0, 0, 0, false, false, false⟩] } ready, rfl, rfl, by decide +kernel, by decide +kernel⟩
  · exact ⟨setSprint { manual := some 5 } (withSet [(0x0902, 0, pay 8 [(0, 1, 2)])] ready), by decide +kernel⟩
  · exact ⟨setGate 0 (some ⟨0, none, [], none, [0], false⟩) (setSprint { manual := some 5 } (withSet [(0x0902, 0, pay 8 [(0, 1, 2)])] ready)), by decide +kernel⟩
  · exact ⟨setGate 0 (some ⟨0, none, [], none, [0], false⟩) (setSprint { on := true, mode := 1 } ready), by decide +kernel⟩
  · exact ⟨2, setSprint { on := true, mode := 1 } ready, by decide +kernel⟩

/-- Every clause of RegionAndTileEventsAct is about something. -/
theorem test_met_RegionAndTileEventsAct :
  (∃ (g : Nat) (s : State), (graphOf s g).held = true ∧ (graphOf s g).run = none)
  ∧ (∃ (g k : Nat) (run : Run) (r : InRow) (rest : List InRow) (rows : List Row) (m : RowMeta) (s : State), (graphOf s g).held = true ∧ (graphOf s g).run = some run ∧ (graphOf s g).inq = r :: rest ∧ (graphOf s g).fwd = []
        ∧ sourceRows run.plan r = some rows ∧ labels run.plan = some k
        ∧ m = metaOf (graphGrid (genImage s r.generation) run.plan) r.generation r.digest rows)
  ∧ (∃ (c : Closed) (rest : List Closed) (s : State), s.fab.rgn.closing = c :: rest ∧ tooSmall c = true)
  ∧ (∃ (c : Closed) (rest : List Closed) (s : State), s.fab.rgn.closing = c :: rest ∧ tooSmall c = false ∧ noCore c = true)
  ∧ (∃ (c : Closed) (rest : List Closed) (s : State), s.fab.rgn.closing = c :: rest ∧ tooSmall c = false ∧ noCore c = false
      ∧ c.target = false)
  ∧ (∃ (t : TileCut) (rest : List TileCut) (s : State), s.fab.rgn.tiles = t :: rest ∧ tileReady s t = true
      ∧ tileHasRoom s t = true)
  ∧ (∃ (t : TileCut) (rest : List TileCut) (s : State), s.fab.rgn.tiles = t :: rest ∧ tileReady s t = false
      ∧ tileHasRoom s t = true ∧ msTicks (tileWaitMs (posImage s)) ≤ since s s.pos.sp.movedAt) := by
  refine ⟨?_, ?_, ?_, ?_, ?_, ?_, ?_⟩
  · exact ⟨0, setGraph 0 { held := true } ready, by decide +kernel⟩
  · exact ⟨0, 0, labelRun, ⟨0, 0, 0, [row0]⟩, [], [row0], _, setGraph 0 { held := true, run := some labelRun, inq := [⟨0, 0, 0, [row0]⟩] } ready, by decide +kernel, rfl, rfl, rfl, rfl, rfl, rfl⟩
  · exact ⟨⟨0, ⟨1, 0, 0, {}, 0, false, 0⟩, 0, [], none, 1, false, 0, 0, 0, 0, 0, 0, 0, false⟩, [], setRgn { closing := [⟨0, ⟨1, 0, 0, {}, 0, false, 0⟩, 0, [], none, 1, false, 0, 0, 0, 0, 0, 0, 0, false⟩] } ready, by decide +kernel⟩
  · exact ⟨⟨0, ⟨1, 0, 0, {}, 0, false, 0⟩, 0, [], none, 0, true, 0, 0, 0, 0, 0, 0, 0, false⟩, [], setRgn { closing := [⟨0, ⟨1, 0, 0, {}, 0, false, 0⟩, 0, [], none, 0, true, 0, 0, 0, 0, 0, 0, 0, false⟩] } ready, by decide +kernel⟩
  · exact ⟨⟨0, ⟨1, 0, 0, {}, 0, false, 0⟩, 0, [], none, 0, false, 0, 0, 0, 0, 0, 0, 0, false⟩, [], setRgn { closing := [⟨0, ⟨1, 0, 0, {}, 0, false, 0⟩, 0, [], none, 0, false, 0, 0, 0, 0, 0, 0, 0, false⟩] } ready, by decide +kernel⟩
  · exact ⟨⟨0, 1, 0, 0, 0, 0, 0, false, 0, 0, 0, 0, [], 0⟩, [], setRgn { tiles := [⟨0, 1, 0, 0, 0, 0, 0, false, 0, 0, 0, 0, [], 0⟩] } ready, by decide +kernel⟩
  · exact ⟨⟨0, 1, 0, 0, 0, 0, 0, false, 0, 0, 0, 0, [0], 0⟩, [], setRgn { tiles := [⟨0, 1, 0, 0, 0, 0, 0, false, 0, 0, 0, 0, [0], 0⟩] } ready, by decide +kernel⟩

/-- Every clause of FurrowEventsAct is about something. -/
theorem test_met_FurrowEventsAct :
  (∃ (fn index tail n : Nat) (s : State), s.start.blocksUp = true ∧ doorbellFurrow s fn index = some n
      ∧ (furrowOf s n).st = fsRunning ∧ (tail % 2 ^ 32 + 2 ^ 32 - (furrowOf s n).completed) % 2 ^ 32 ≤ ringLen (furrowOf s n))
  ∧ (∃ (fn index tail n : Nat) (s : State), s.start.blocksUp = true ∧ doorbellFurrow s fn index = some n
      ∧ (furrowOf s n).st = fsRunning ∧ ringLen (furrowOf s n) < (tail % 2 ^ 32 + 2 ^ 32 - (furrowOf s n).completed) % 2 ^ 32)
  ∧ (∃ (fn index tail n : Nat) (s : State), s.start.blocksUp = true ∧ doorbellFurrow s fn index = some n
      ∧ (furrowOf s n).st = fsStandby)
  ∧ (∃ (n : Nat) (b : Bytes) (timeout : Bool) (own : Nat) (s : State), (furrowOf s n).st = fsRunning ∧ (furrowOf s n).fetching = true ∧ own = (furrowOf s n).asked
        ∧ (∀ i < own, descOwn (fitTo 32 (b.drop (32 * i))) = true))
  ∧ (∃ (n : Nat) (timeout : Bool) (s : State), (furrowOf s n).st = fsRunning
      ∧ (furrowOf s n).fetching = true ∧ (furrowOf s n).retried = true)
  ∧ (∃ (n : Nat) (timeout : Bool) (s : State), (furrowOf s n).st = fsRunning
      ∧ (furrowOf s n).fetching = true ∧ (furrowOf s n).retried = false)
  ∧ (∃ (u : DUnit) (rest : List DUnit) (s : State), s.handoff = u :: rest)
  ∧ (∃ (n sub : Nat) (src : Bytes) (b : Buf) (rest : List Buf) (s : State), ((furrowOf s n).st = fsRunning ∨ (furrowOf s n).st = fsFault) ∧ (furrowOf s n).full = b :: rest)
  ∧ (∃ (n sub : Nat) (src : Bytes) (s : State), (furrowOf s n).st = fsRunning
      ∧ (furrowOf s n).full = [] ∧ ((furrowOf s n).type = 7 ∨ (furrowOf s n).type = 8))
  ∧ (∃ (n : Nat) (b : Buf) (s : State), (furrowOf s n).cur = some b ∧ usTicks (furrowOf s n).flushUs ≤ since s b.firstAt)
  ∧ (∃ (n : Nat) (s : State), (furrowOf s n).irqTime ≠ 0 ∧ (furrowOf s n).unsig ≠ 0
      ∧ usTicks (furrowOf s n).irqTime ≤ since s (furrowOf s n).unsigAt)
  ∧ (∃ (r : Nat) (b : RowBlock) (c : RouteCfg) (s : State), msTicks 10 ≤ since s s.pos.sp.movedAt
      ∧ tfind s.deliv.blocks r = some b ∧ routeCfg (genImage s b.unit.generation) r = some c)
  ∧ (∃ (n good : Nat) (tail : Bool) (f : BurstFault) (d : Bytes) (ds : List Bytes) (s : State), (furrowOf s n).st = fsRunning ∧ carriesUnits (furrowOf s n) = false ∧ (furrowOf s n).descs = d :: ds
        ∧ descOk (furrowOf s n).type d = true ∧ f.kind = 0)
  ∧ (∃ (n good : Nat) (tail : Bool) (f : BurstFault) (b : Buf) (rest : List Buf) (s : State), (furrowOf s n).st = fsRunning ∧ carriesUnits (furrowOf s n) = true ∧ (furrowOf s n).full = b :: rest ∧ b.status = 0
        ∧ (furrowOf s n).cur = none ∧ f.kind = 2) := by
  refine ⟨?_, ?_, ?_, ?_, ?_, ?_, ?_, ?_, ?_, ?_, ?_, ?_, ?_, ?_⟩
  · exact ⟨0, 0, 0, 0, setFurrow 0 { st := fsRunning, sizeLog := 4,  } ready, by decide +kernel⟩
  · exact ⟨0, 0, 1000, 0, setFurrow 0 { st := fsRunning, sizeLog := 4,  } ready, by decide +kernel⟩
  · exact ⟨0, 0, 0, 0, setFurrow 0 { st := fsStandby } ready, by decide +kernel⟩
  · exact ⟨0, [], false, 0, setFurrow 0 { st := fsRunning, sizeLog := 4, fetching := true } ready, by decide +kernel, by decide +kernel, rfl, fun i h => absurd h (Nat.not_lt_zero i)⟩
  · exact ⟨0, false, setFurrow 0 { st := fsRunning, sizeLog := 4, fetching := true, retried := true } ready, by decide +kernel⟩
  · exact ⟨0, false, setFurrow 0 { st := fsRunning, sizeLog := 4, fetching := true } ready, by decide +kernel⟩
  · exact ⟨unit0, [], { ready with handoff := [unit0] }, rfl⟩
  · exact ⟨0, 0, [], { desc := [] }, [], setFurrow 0 { st := fsRunning, sizeLog := 4, full := [{ desc := [] }] } ready, .inl (by decide +kernel), by decide +kernel⟩
  · exact ⟨0, 0, [], setFurrow 0 { st := fsRunning, sizeLog := 4, type := 7 } ready, by decide +kernel⟩
  · exact ⟨0, { desc := [] }, setFurrow 0 { st := fsRunning, sizeLog := 4, cur := some { desc := [] } } ready, by decide +kernel⟩
  · exact ⟨0, setFurrow 0 { st := fsRunning, sizeLog := 4, irqTime := 1, unsig := 1 } ready, by decide +kernel⟩
  · exact ⟨0, ⟨unit0, 1⟩, _, { withSet [(0x0B00, 0, pay 32 [(2, 1, 1), (6, 1, 1)])] ready with deliv := { blocks := [(0, ⟨unit0, 1⟩)] } }, by decide +kernel, rfl, rfl⟩
  · exact ⟨0, 0, true, ⟨0, []⟩, pay 32 [(8, 4, 1), (0x0C, 1, 8), (0x0E, 1, 1)], [], setFurrow 0 { st := fsRunning, sizeLog := 4, type := 8, descs := [pay 32 [(8, 4, 1), (0x0C, 1, 8), (0x0E, 1, 1)]] } ready, by decide +kernel⟩
  · exact ⟨0, 0, true, ⟨2, []⟩, { desc := [] }, [], setFurrow 0 { st := fsRunning, sizeLog := 4, type := 1, full := [{ desc := [] }] } ready, by decide +kernel⟩

/-- Every clause of FunctionEventsAct is about something. -/
theorem test_met_FunctionEventsAct :
  (∃ (p : Nat) (unacked : List (Nat × Nat)) (s : State), p < 2 ∧ 2 ≤ (hostPort s p).link)
  ∧ (∃ (fn : Nat) (unacked : List (Nat × Nat)), fn < 128)
  ∧ (∃ (fn v : Nat) (e : MsixEntry) (s : State), e = tget {} s.win.msix (fn * 1024 + v) ∧ v < vectorCount fn ∧ s.start.windowUp = true ∧ tget false s.win.pba (fn * 1024 + v) = true)
  ∧ (∃ (fn v : Nat) (e : MsixEntry) (s : State), e = tget {} s.win.msix (fn * 1024 + v) ∧ v < vectorCount fn ∧ s.start.windowUp = true ∧ tget false s.win.pba (fn * 1024 + v) = false)
  ∧ (∃ (p rate width : Nat) (s : State), p < 2 ∧ 1 ≤ rate ∧ rate ≤ 6 ∧ 1 ≤ width ∧ width ≤ 16
      ∧ bitOf s.start.perst p = false ∧ s.start.windowUp = true)
  ∧ (∃ (p : Nat) (c : PortControl) (enable : Bool), p < 2 ∧ c.d3hot < 2 ^ 64) := by
  refine ⟨?_, ?_, ?_, ?_, ?_, ?_⟩
  · exact ⟨0, [], setHostPort 0 { link := 2 } ready, by decide +kernel⟩
  · exact ⟨127, [], by decide⟩
  · exact ⟨0, 5, _, { ready with win := { ready.win with
      pba := [(5, true)] } }, rfl, by decide +kernel, by decide +kernel, by decide +kernel⟩
  · exact ⟨0, 1023, _, ready, rfl, by decide +kernel, by decide +kernel, by decide +kernel⟩
  · exact ⟨1, 6, 16, ready, by decide +kernel⟩
  · exact ⟨1, ⟨63, 256, 512, 0, 1⟩, true, by decide⟩

/-- Every clause of TrellisLinkEventsAct is about something. -/
theorem test_met_TrellisLinkEventsAct :
  (∃ (s : State), s.trel.st ≠ tsAlone ∧ (∀ t, s.trel.helloAt = some t → usTicks 100 ≤ since s t))
  ∧ (∃ (first : Nat) (c : Ctl) (t : State) (s : State), takeControl first 1 s = (some c, t) ∧ c.side = 2)
  ∧ (∃ (first : Nat) (c : Ctl) (t : State) (s : State), takeControl first 1 s = (some c, t) ∧ c.side ≠ 2
      ∧ t.trel.st ≠ tsAlone ∧ t.trel.st ≠ tsManager)
  ∧ (∃ (t : Nat) (s : State), s.trel.st = tsJoining ∧ s.trel.conflict = false ∧ s.trel.sampleAt = none
      ∧ s.start.trellisRole = 2 ∧ s.trel.firstHello = some t ∧ secTicks 1 ≤ since s t)
  ∧ (∃ (s : State), s.trel.st = tsJoining ∧ s.trel.conflict = false ∧ s.trel.sampleAt = none ∧ s.start.trellisRole = 1
      ∧ secTicks 2 ≤ since s s.trel.joinedAt ∧ (∀ e ∈ s.trel.members, e.1 ≠ ownId s → ¬(e.2.strap = 2 ∧ heardWithin s e.1 (secTicks 2) = true))
      ∧ (∀ d ∈ presentMembers s, ¬(d < ownId s ∧ (memberOf s d).strap = 1)))
  ∧ (∃ (first : Nat) (c : Ctl) (t : State) (s : State), takeControl first 2 s = (some c, t) ∧ c.side ≠ 2
      ∧ bitOf (fld c.body 1 2) (ownId t) = true ∧ t.trel.conflict = false ∧ t.trel.st = tsJoining)
  ∧ (∃ (first sub : Nat) (s : State), isAux s first = true)
  ∧ (∃ (first sub : Nat) (s : State), graftUp s first = true ∧ isAux s first = false
      ∧ (∀ e, (linkOf s first).sent.head? = some e → 1024 ≤ since s e.2.1))
  ∧ (∃ (first rxDc rxSub : Nat) (b : Bytes) (t : State) (s : State), popFlit first 2 s = some (b, t)
      ∧ fld b 4 2 = 0xFFFF)
  ∧ (∃ (s : State), s.trel.st = tsMaster ∧ s.trel.attached = false ∧ (∀ t, s.trel.sampleAt = some t → 16 ≤ since s t))
  ∧ (∃ (first : Nat) (b : Bytes) (t : State) (s : State), popFlit first 1 s = some (b, t) ∧ fld b 0 1 ≠ 1
      ∧ sideOf first ≠ 2)
  ∧ (∃ (first : Nat) (b : Bytes) (t : State) (s : State), popFlit first 1 s = some (b, t) ∧ fld b 0 1 = 1
      ∧ sideOf first = 2) := by
  refine ⟨?_, ?_, ?_, ?_, ?_, ?_, ?_, ?_, ?_, ?_, ?_, ?_⟩
  · exact ⟨trelAs tsMember 1, by decide +kernel, fun _ h => by cases h⟩
  · exact (took (s := heard 0 5 (pay 48 [(0, 1, 1), (1, 1, 0), (2, 1, 255)]) (trelAs tsMember 1)) (first := 0) (fun c t => c.side = 2) (by decide +kernel)).elim fun c h => h.elim fun t h =>
      ⟨0, c, t, _, h⟩
  · exact (took (s := heard 48 5 (pay 48 [(0, 1, 1), (1, 1, 0), (2, 1, 255)]) (trelAs tsMember 1)) (first := 48) (fun c t => c.side ≠ 2 ∧ t.trel.st ≠ tsAlone ∧ t.trel.st ≠ tsManager) (by decide +kernel)).elim fun c h => h.elim fun t h =>
      ⟨48, c, t, _, h⟩
  · exact ⟨0, { { trelAs tsJoining 1 with trel := { (trelAs tsJoining 1).trel with
      firstHello := some 0 } } with start := { ready.start with trellisRole := 2 } }, by decide +kernel⟩
  · exact ⟨{ { trelAs tsJoining 1 with trel := { (trelAs tsJoining 1).trel with
      joinedAt := 0 } } with start := { ready.start with trellisRole := 1 } }, by decide +kernel, by decide +kernel, rfl, rfl, by decide +kernel, by decide +kernel⟩
  · exact (took (s := heard 48 5 (pay 48 [(0, 1, 2), (1, 1, 0), (2, 1, 255), (17, 2, 3)]) (trelAs tsJoining 1)) (first := 48) (fun c t => c.side ≠ 2 ∧ bitOf (fld c.body 1 2) (ownId t) = true ∧ t.trel.conflict = false ∧ t.trel.st = tsJoining) (by decide +kernel)).elim fun c h => h.elim fun t h =>
      ⟨48, c, t, _, h⟩
  · exact ⟨0, 0, setLane 0 { set := { mode := modeGraft, lanes := 4 } } (trelAs tsMember 1), by decide +kernel⟩
  · exact ⟨48, 0, setGraft 48 { txMap := 1, rxMap := 1 } (setLane 48 { set := { mode := modeGraft, first := 48 } } ready), by decide +kernel, by decide +kernel, fun _ h => by cases h⟩
  · exact (popped (s := heard 48 2 (pay 16 [(4, 2, 65535)]) (trelAs tsMember 1)) (first := 48) (fun b t => fld b 4 2 = 0xFFFF) (by decide +kernel)).elim fun b h => h.elim fun t h =>
      ⟨48, 0, 0, b, t, _, h⟩
  · exact ⟨trelAs tsMaster 0, by decide +kernel, by decide +kernel, fun _ h => by cases h⟩
  · exact (popped (s := heard 48 1 (zeros 32) (trelAs tsMember 1)) (first := 48) (fun b t => fld b 0 1 ≠ 1 ∧ sideOf 48 ≠ 2) (by decide +kernel)).elim fun b h => h.elim fun t h =>
      ⟨48, b, t, _, h⟩
  · exact (popped (s := heard 0 1 (pay 32 [(0, 1, 1)]) (trelAs tsMaster 0)) (first := 0) (fun b t => fld b 0 1 = 1 ∧ sideOf 0 = 2) (by decide +kernel)).elim fun b h => h.elim fun t h =>
      ⟨0, b, t, _, h⟩

/-- Every clause of TrellisRoleEventsAct is about something. -/
theorem test_met_TrellisRoleEventsAct :
  (∃ (t : Nat) (s : State), dependsOn s = some t ∧ s.trel.posStale = false ∧ usTicks 2 ≤ since s t)
  ∧ (∃ (t : Nat) (s : State), s.trel.sampleAt = some t ∧ s.trel.st = tsMember ∧ usTicks (holdoverUs s) ≤ since s t)
  ∧ (∃ (t : Nat) (lower : State → Nat) (s : State), s.trel.masterHeardAt = some t ∧ s.trel.st = tsMember ∧ mayLead s = true
      ∧ channelHealthy s = true ∧ lower s = ((presentMembers s).filter (fun d => decide (d < ownId s) && d != s.trel.master
        && ((memberOf s d).strap == 1 || (memberOf s d).strap == 2))).length ∧ usTicks (10 * (lower s + 1)) ≤ since s t)
  ∧ (∃ (first : Nat) (c : Ctl) (t : State) (s : State), takeControl first 3 s = (some c, t) ∧ c.side ≠ 2)
  ∧ (∃ (first : Nat) (c : Ctl) (t : State) (s : State), takeControl first 4 s = (some c, t) ∧ c.side ≠ 2
      ∧ c.src = t.trel.master ∧ fld c.body 0 1 = ownId t ∧ t.trel.st = tsMember ∧ mayLead t = true ∧ channelHealthy t = true)
  ∧ (∃ (d : Nat) (i : Identity) (s : State), formed s = true ∧ d ≠ ownId s ∧ bitOf s.trel.ring d = true
      ∧ (memberOf s d).lost = false ∧ (∀ t, (memberOf s d).heardEast = some t → usTicks 10 ≤ since s t)
      ∧ (∀ t, (memberOf s d).heardWest = some t → usTicks 10 ≤ since s t) ∧ s.trel.identity = some i)
  ∧ (∃ (t : Nat) (i : Identity) (s : State), s.trel.estateAt = some t ∧ s.trel.st = tsMaster ∧ s.trel.attached = true
      ∧ usTicks (holdoverUs s) ≤ since s t ∧ s.trel.identity = some i) := by
  refine ⟨?_, ?_, ?_, ?_, ?_, ?_, ?_⟩
  · exact ⟨0, { trelAs tsMember 1 with trel := { (trelAs tsMember 1).trel with
      sampleAt := some 0 } }, by decide +kernel⟩
  · exact ⟨0, { trelAs tsMember 1 with trel := { (trelAs tsMember 1).trel with
      sampleAt := some 0 } }, by decide +kernel⟩
  · exact ⟨0, fun _ => 0, withSet [(0x0401, 0, pay 48 [(1, 1, 255)])] { { trelAs tsMember 1 with trel := { (trelAs tsMember 1).trel with
      masterHeardAt := some 0 } } with
      start := { ready.start with trellisRole := 1 } }, by decide +kernel⟩
  · exact (took (s := heard 48 5 (pay 48 [(0, 1, 3), (1, 1, 0), (2, 1, 255)]) (trelAs tsMember 1)) (first := 48) (fun c t => c.side ≠ 2) (by decide +kernel)).elim fun c h => h.elim fun t h =>
      ⟨48, c, t, _, h⟩
  · exact (took (s := heard 48 5 (pay 48 [(0, 1, 4), (1, 1, 0), (2, 1, 255), (16, 1, 1)]) (withSet [(0x0401, 0, pay 48 [(1, 1, 255)])] { trelAs tsMember 1 with
      start := { ready.start with trellisRole := 1 } })) (first := 48) (fun c t => c.side ≠ 2 ∧ c.src = t.trel.master ∧ fld c.body 0 1 = ownId t ∧ t.trel.st = tsMember ∧ mayLead t = true ∧ channelHealthy t = true) (by decide +kernel)).elim fun c h => h.elim fun t h =>
      ⟨48, c, t, _, h⟩
  · exact ⟨2, trelId 1, { trelAs tsMember 1 with trel := { (trelAs tsMember 1).trel with
      ring := 7 } }, by decide +kernel, by decide +kernel, by decide +kernel, by decide +kernel, (fun _ h => by cases h), (fun _ h => by cases h), rfl⟩
  · exact ⟨0, trelId 0, { trelAs tsMaster 0 with trel := { (trelAs tsMaster 0).trel with
      attached := true
      estateAt := some 0 } }, by decide +kernel⟩

/-- Every clause of TrellisCommitEventsAct is about something. -/
theorem test_met_TrellisCommitEventsAct :
  (∃ (first : Nat) (c : Ctl) (t : State) (s : State), takeControl first 5 s = (some c, t) ∧ formed t = true ∧ c.side ≠ 2
      ∧ c.src = t.trel.master ∧ t.start.w1Running = false ∧ preparedFor c.id c.src t = false)
  ∧ (∃ (first : Nat) (c : Ctl) (t : State) (s : State), takeControl first 5 s = (some c, t) ∧ formed t = true ∧ c.side ≠ 2
      ∧ c.src = t.trel.master ∧ preparedFor c.id c.src t = true)
  ∧ (∃ (first : Nat) (c : Ctl) (t : State) (s : State), takeControl first 6 s = (some c, t) ∧ t.trel.st = tsMaster
      ∧ c.side ≠ 2 ∧ c.scope ≠ 1)
  ∧ (∃ (t : TwoPhase) (k : Nat) (s : State), s.trel.coord = some t
      ∧ t.members.find? (fun k => (tfind t.answers k).isNone) = some k ∧ t.pc = none ∧ msTicks 20 ≤ since s t.startedAt)
  ∧ (∃ (first : Nat) (c : Ctl) (t : State) (s : State), takeControl first 7 s = (some c, t) ∧ formed t = true ∧ c.side ≠ 2
      ∧ c.src = t.trel.master)
  ∧ (∃ (t : TwoPhase) (pc : Int) (s : State), s.trel.coord = some t ∧ t.pc = some pc ∧ msTicks 1 ≤ since s t.repeatAt)
  ∧ (∃ (first : Nat) (c : Ctl) (t : State) (s : State), takeControl first 8 s = (some c, t) ∧ t.trel.st = tsMaster
      ∧ c.side ≠ 2 ∧ c.scope ≠ 1)
  ∧ (∃ (first : Nat) (c : Ctl) (t : State) (s : State), takeControl first 9 s = (some c, t) ∧ formed t = true ∧ c.side ≠ 2
      ∧ c.src = t.trel.master)
  ∧ (∃ (x : Prep) (s : State), s.trel.prep = some x ∧ msTicks 100 ≤ since s x.since)
  ∧ (∃ (first : Nat) (c : Ctl) (t : State) (s : State), takeControl first 10 s = (some c, t) ∧ t.trel.st = tsMaster
      ∧ c.side ≠ 2 ∧ c.scope ≠ 1)
  ∧ (∃ (first : Nat) (c : Ctl) (t : State) (s : State), takeControl first 10 s = (some c, t) ∧ t.trel.st = tsMember
      ∧ c.side ≠ 2)
  ∧ (∃ (t : TwoPhase) (u : Nat) (s : State), s.trel.coord = some t ∧ t.passedAt = some u ∧ msTicks 100 ≤ since s u)
  ∧ (∃ (s : State), coordinates s = true ∧ s.trel.attached = false ∧ (∀ t, s.trel.sweepAt = some t → msTicks 100 ≤ since s t))
  ∧ (∃ (first : Nat) (c : Ctl) (t : State) (s : State), takeControl first 11 s = (some c, t) ∧ formed t = true ∧ c.side ≠ 2
      ∧ c.src = t.trel.master)
  ∧ (∃ (first : Nat) (c : Ctl) (t : State) (s : State), takeControl first 12 s = (some c, t) ∧ t.trel.st = tsMaster
      ∧ c.side ≠ 2 ∧ c.scope ≠ 1) := by
  refine ⟨?_, ?_, ?_, ?_, ?_, ?_, ?_, ?_, ?_, ?_, ?_, ?_, ?_, ?_, ?_⟩
  · exact (took (s := heard 48 5 (pay 48 [(0, 1, 5), (1, 1, 0), (2, 1, 255)]) (trelAs tsMember 1)) (first := 48) (fun c t => formed t = true ∧ c.side ≠ 2 ∧ c.src = t.trel.master ∧ t.start.w1Running = false ∧ preparedFor c.id c.src t = false) (by decide +kernel)).elim fun c h => h.elim fun t h =>
      ⟨48, c, t, _, h⟩
  · exact (took (s := heard 48 5 (pay 48 [(0, 1, 5), (1, 1, 0), (2, 1, 255)]) ({ trelAs tsMember 1 with trel := { (trelAs tsMember 1).trel with
      prep := some ⟨0, 0, 0, 0, true, false⟩ } })) (first := 48) (fun c t => formed t = true ∧ c.side ≠ 2 ∧ c.src = t.trel.master ∧ preparedFor c.id c.src t = true) (by decide +kernel)).elim fun c h => h.elim fun t h =>
      ⟨48, c, t, _, h⟩
  · exact (took (s := heard 48 5 (pay 48 [(0, 1, 6), (1, 1, 1), (2, 1, 0)]) (trelAs tsMaster 0)) (first := 48) (fun c t => t.trel.st = tsMaster ∧ c.side ≠ 2 ∧ c.scope ≠ 1) (by decide +kernel)).elim fun c h => h.elim fun t h =>
      ⟨48, c, t, _, h⟩
  · exact ⟨⟨1, none, false, 0, 0, none, 0, [1], [], none, 0, [], [], [], false, none⟩, 1, { trelAs tsMaster 0 with trel := { (trelAs tsMaster 0).trel with
      coord := some ⟨1, none, false, 0, 0, none, 0, [1], [], none, 0, [], [], [], false, none⟩ } }, by decide +kernel⟩
  · exact (took (s := heard 48 5 (pay 48 [(0, 1, 7), (1, 1, 0), (2, 1, 255)]) (trelAs tsMember 1)) (first := 48) (fun c t => formed t = true ∧ c.side ≠ 2 ∧ c.src = t.trel.master) (by decide +kernel)).elim fun c h => h.elim fun t h =>
      ⟨48, c, t, _, h⟩
  · exact ⟨⟨1, none, false, 0, 0, none, 0, [], [], some 0, 0, [], [], [], false, none⟩, 0, { trelAs tsMaster 0 with trel := { (trelAs tsMaster 0).trel with
      coord := some ⟨1, none, false, 0, 0, none, 0, [], [], some 0, 0, [], [], [], false, none⟩ } }, by decide +kernel⟩
  · exact (took (s := heard 48 5 (pay 48 [(0, 1, 8), (1, 1, 1), (2, 1, 0)]) (trelAs tsMaster 0)) (first := 48) (fun c t => t.trel.st = tsMaster ∧ c.side ≠ 2 ∧ c.scope ≠ 1) (by decide +kernel)).elim fun c h => h.elim fun t h =>
      ⟨48, c, t, _, h⟩
  · exact (took (s := heard 48 5 (pay 48 [(0, 1, 9), (1, 1, 0), (2, 1, 255)]) (trelAs tsMember 1)) (first := 48) (fun c t => formed t = true ∧ c.side ≠ 2 ∧ c.src = t.trel.master) (by decide +kernel)).elim fun c h => h.elim fun t h =>
      ⟨48, c, t, _, h⟩
  · exact ⟨⟨1, 0, 0, 0, true, false⟩, { trelAs tsMember 1 with trel := { (trelAs tsMember 1).trel with
      prep := some ⟨1, 0, 0, 0, true, false⟩ } }, by decide +kernel⟩
  · exact (took (s := heard 48 5 (pay 48 [(0, 1, 10), (1, 1, 1), (2, 1, 0)]) (trelAs tsMaster 0)) (first := 48) (fun c t => t.trel.st = tsMaster ∧ c.side ≠ 2 ∧ c.scope ≠ 1) (by decide +kernel)).elim fun c h => h.elim fun t h =>
      ⟨48, c, t, _, h⟩
  · exact (took (s := heard 48 5 (pay 48 [(0, 1, 10), (1, 1, 2), (2, 1, 1)]) (trelAs tsMember 1)) (first := 48) (fun c t => t.trel.st = tsMember ∧ c.side ≠ 2) (by decide +kernel)).elim fun c h => h.elim fun t h =>
      ⟨48, c, t, _, h⟩
  · exact ⟨⟨1, none, false, 0, 0, none, 0, [], [], none, 0, [], [], [], false, some 0⟩, 0, { trelAs tsMaster 0 with trel := { (trelAs tsMaster 0).trel with
      coord := some ⟨1, none, false, 0, 0, none, 0, [], [], none, 0, [], [], [], false, some 0⟩ } }, by decide +kernel⟩
  · exact ⟨trelAs tsMaster 0, by decide +kernel, by decide +kernel, fun _ h => by cases h⟩
  · exact (took (s := heard 48 5 (pay 48 [(0, 1, 11), (1, 1, 0), (2, 1, 255)]) (trelAs tsMember 1)) (first := 48) (fun c t => formed t = true ∧ c.side ≠ 2 ∧ c.src = t.trel.master) (by decide +kernel)).elim fun c h => h.elim fun t h =>
      ⟨48, c, t, _, h⟩
  · exact (took (s := heard 48 5 (pay 48 [(0, 1, 12), (1, 1, 1), (2, 1, 0)]) (trelAs tsMaster 0)) (first := 48) (fun c t => t.trel.st = tsMaster ∧ c.side ≠ 2 ∧ c.scope ≠ 1) (by decide +kernel)).elim fun c h => h.elim fun t h =>
      ⟨48, c, t, _, h⟩

/-- Every clause of StartCausesAct is about something. -/
theorem test_met_StartCausesAct :
  (True)
  ∧ (∃ (role : Nat) (boot test : Bool) (s : State), s.start.rstLow = true ∧ s.start.held = false)
  ∧ (∃ (p : Nat) (unacked : List (Nat × Nat)) (s : State), p < 2 ∧ bitOf s.start.perst p = false
      ∧ 2 ≤ (hostPort s p).link)
  ∧ (∃ (p : Nat) (unacked : List (Nat × Nat)) (s : State), p < 2 ∧ bitOf s.start.perst p = false
      ∧ (hostPort s p).link < 2)
  ∧ (∃ (p : Nat) (unacked : List (Nat × Nat)) (s : State), p < 2 ∧ bitOf s.start.perst p = true)
  ∧ (∃ (s : State), s.start.rstLow = false)
  ∧ (∃ (s : State), s.start.rstLow = false)
  ∧ (∃ (s : State), s.mbx.answering = true ∧ s.start.safe = false ∧ s.start.due = none ∧ msTicks 100 ≤ since s s.start.watchdogAt)
  ∧ (∃ (t : Nat) (s : State), s.start.idleSince = some t ∧ s.start.succeeded = false ∧ secTicks 10 ≤ since s t)
  ∧ (∃ (s : State), s.mbx.answering = true ∧ msTicks 1 ≤ since s s.start.lastHeartbeat)
  ∧ (∃ (t : Nat) (s : State), s.start.keptAt = some t ∧ secTicks 60 ≤ since s t) := by
  refine ⟨?_, ?_, ?_, ?_, ?_, ?_, ?_, ?_, ?_, ?_, ?_⟩
  · exact trivial
  · exact ⟨0, false, false, { ready with start := { ready.start with
      rstLow := true } }, by decide +kernel⟩
  · exact ⟨0, [], setHostPort 0 { link := 2 } ready, by decide +kernel⟩
  · exact ⟨0, [], ready, by decide +kernel⟩
  · exact ⟨0, [], { ready with start := { ready.start with
      perst := 1 } }, by decide +kernel⟩
  · exact ⟨ready, by decide +kernel⟩
  · exact ⟨ready, by decide +kernel⟩
  · exact ⟨ready, by decide +kernel⟩
  · exact ⟨0, { ready with start := { ready.start with
      idleSince := some 0 } }, by decide +kernel⟩
  · exact ⟨ready, by decide +kernel⟩
  · exact ⟨0, { ready with start := { ready.start with
      keptAt := some 0 } }, by decide +kernel⟩

/-- Every clause of StartsAct is about something. -/
theorem test_met_StartsAct :
  (∃ (f : ColdFacts) (d : DueStart) (t : State) (s : State), s.start.due = some d ∧ d.kind = 0 ∧ s.start.rstLow = false
      ∧ s.start.held = false ∧ s.start.latched = true ∧ (freshState s).start.bootSel = true ∧ t = { freshState s with
        start := { (freshState s).start with
          kind := 0, cause := d.cause, startDc := 0, durationMs := f.ms, windowUp := true, coldCount := (freshState s).start.coldCount + 1 }
        time := { dc := f.dc } })
  ∧ (∃ (f : ColdFacts) (d : DueStart) (n : Nat) (rest : List Nat) (t u : State) (s : State), s.start.due = some d
      ∧ d.kind = 0 ∧ s.start.rstLow = false ∧ s.start.held = false ∧ s.start.latched = true ∧ (freshState s).start.bootSel = false
      ∧ (freshState s).start.testEn = false ∧ t = { freshState s with
        start := { (freshState s).start with
          kind := 0, cause := d.cause, startDc := 0, durationMs := f.ms, windowUp := true, coldCount := (freshState s).start.coldCount + 1 }
        time := { dc := f.dc } } ∧ u = f.flash.foldl (fun u e => flashByte e.1 e.2.1 e.2.2 u) t ∧ bootOrder u d.slot = n :: rest)
  ∧ (∃ (f : WarmFacts) (d : DueStart) (n : Nat) (t : State) (s : State), s.start.due = some d ∧ d.kind = 1
      ∧ s.start.rstLow = false ∧ s.start.held = false ∧ t = setStart { (warmBegin s).start with kind := 1, cause := d.cause } (warmBegin s)
      ∧ dueSlot d t = some n ∧ slotValid t n = true ∧ (setBits 4 (stacksMarked t)).length < 2)
  ∧ (∃ (ms : Nat) (d : DueStart) (s : State), s.start.due = some d ∧ d.kind = 2 ∧ s.start.rstLow = false
      ∧ s.start.held = false ∧ s.start.w1Running = false)
  ∧ (∃ (ms : Nat) (d : DueStart) (s : State), s.start.due = some d ∧ d.kind = 2 ∧ s.start.rstLow = false
      ∧ s.start.held = false ∧ s.start.w1Running = true)
  ∧ (∃ (stage : Nat) (d : DueStart) (s : State), s.start.due = some d ∧ s.start.rstLow = false ∧ s.start.held = false) := by
  refine ⟨?_, ?_, ?_, ?_, ?_, ?_⟩
  · exact ⟨⟨0, false, false, [], [], [], [], 0, 0⟩, ⟨0, 0, none, 0⟩, _, { State.reset with start := { State.reset.start with
      latched := true
      bootSel := true } }, rfl, rfl, rfl, rfl, rfl, rfl, rfl⟩
  · exact ⟨⟨0, false, false, [], [], [], [], 0, 0⟩, ⟨0, 0, none, 0⟩, 0, [], _, _, { State.reset with start := { State.reset.start with
      latched := true
      bootSel := false
      slotA := { header := zeros 512, reason := 0 } } }, rfl, rfl, rfl, rfl, rfl, rfl, rfl, rfl, rfl, by decide +kernel⟩
  · exact ⟨⟨0, [], []⟩, ⟨1, 0, none, 0⟩, 0, _, { ready with start := { ready.start with
      due := some ⟨1, 0, none, 0⟩
      runningSlot := some 0 } }, rfl, rfl, rfl, rfl, rfl, by decide +kernel, by decide +kernel, by decide +kernel⟩
  · exact ⟨0, ⟨2, 0, none, 0⟩, { ready with start := { ready.start with
      due := some ⟨2, 0, none, 0⟩ } }, by decide +kernel⟩
  · exact ⟨0, ⟨2, 0, none, 0⟩, { ready with start := { ready.start with
      due := some ⟨2, 0, none, 0⟩
      w1Running := true } }, by decide +kernel⟩
  · exact ⟨0, ⟨0, 0, none, 0⟩, { ready with start := { ready.start with
      due := some ⟨0, 0, none, 0⟩ } }, by decide +kernel⟩

/-- Every clause of CalibrationEventsAct is about something. -/
theorem test_met_CalibrationEventsAct :
  (∃ (readings : List (Nat × Int)) (s : State), msTicks 100 ≤ since s s.cal.recomputeAt)
  ∧ (∃ (k : Nat) (s : State), (calTarget s k).waiting.isSome = true ∧ s.start.w1Running = false
      ∧ (k / 256 = calLane ∨ k / 256 = calTdc))
  ∧ (∃ (k : Nat) (t : State) (s : State), calTargets.contains k = true ∧ (calTarget s k).running = none
      ∧ t = (if (calTarget s k).due = false ∧ calFallsDue s k = true then setCal k { calTarget s k with due := true } s else s)
      ∧ (k / 256 = calLane →
        ((List.range 64).filter (fun j => (calTarget t j).running.isSome)).length + ((List.range k).filter (calMayStart t)).length < 8
        ∧ ∀ j < k, (quadTarget j = quadTarget k
          ∨ (laneOf s j).set.mode = modeGraft ∧ (laneOf s j).set.first = (laneOf s k).set.first) → calMayStart t j = false)
      ∧ calMayStart t k = true)
  ∧ (∃ (k t : Nat) (runs : CalRuns) (s : State), (calTarget s k).running = some t
      ∧ usTicks (calTime k (calResult k runs).2) ≤ since s t)
  ∧ (∃ (k : Nat) (s : State), (calTarget s k).waiting.isSome = true ∧ (calTarget s k).deferred = false
      ∧ msTicks 100 ≤ since s (calTarget s k).waitSince)
  ∧ (∃ (k : Nat) (s : State), (calTarget s k).waiting.isSome = true ∧ (calTarget s k).running = none
      ∧ s.start.w1Running = false ∧ (k / 256 = calTrg ∨ k / 256 = calPps) ∧ twinGap k s = true)
  ∧ (∃ (m : Nat) (s : State), s.start.windowUp = true ∧ s.cal.storeTicket = none ∧ s.cal.storeDue = true
      ∧ (∀ t, s.cal.storedAt = some t → secTicks 60 ≤ since s t) ∧ calNewer s = some m)
  ∧ (∃ (n : Nat) (x : Bytes × Bytes) (s : State), s.start.windowUp = true ∧ s.cal.storeTicket = none ∧ s.cal.storeDue = true
      ∧ (∀ t, s.cal.storedAt = some t → secTicks 60 ≤ since s t) ∧ n = (if calNewer s = some 0 then 1 else 0)
      ∧ x = slotParts ((match calNewer s with | some m => calSequence (calSlot s m) + 1 | none => 1) % 2 ^ 32) (heldFields s)) := by
  refine ⟨?_, ?_, ?_, ?_, ?_, ?_, ?_, ?_⟩
  · exact ⟨[], ready, by decide +kernel⟩
  · exact ⟨0, setCal 0 { waiting := some ⟨0, []⟩ } ready, by decide +kernel⟩
  · exact ⟨768, _, setCal 768 { due := true } ready, by decide +kernel, by decide +kernel, rfl, (fun h => absurd h (by decide)), by decide +kernel⟩
  · exact ⟨0, 0, ⟨[], [], [], 0⟩, setCal 0 { running := some 0 } ready, by decide +kernel⟩
  · exact ⟨0, setCal 0 { waiting := some ⟨0, []⟩ } ready, by decide +kernel⟩
  · exact ⟨768, setCal 768 { waiting := some ⟨0, []⟩ } ready, by decide +kernel⟩
  · exact ⟨0, { ready with cal := { ready.cal with
      storeDue := true
      slots := [(0, slotBytes 1 [])] } }, by decide +kernel, by decide +kernel, by decide +kernel, (fun _ h => by cases h), newer_of_stored _ rfl⟩
  · exact ⟨_, _, { ready with cal := { ready.cal with
      storeDue := true } }, by decide +kernel, by decide +kernel, by decide +kernel, (fun _ h => by cases h), rfl, rfl⟩

/-- Every clause of FaultEventsAct is about something. -/
theorem test_met_FaultEventsAct :
  (∃ (memory i g : Nat), memory ≤ 4)
  ∧ (∃ (stack ch : Nat), stack < 4 ∧ ch < 16)
  ∧ (∃ (stack ch : Nat) (recent : List Nat) (s : State), stack < 4 ∧ ch < 16
      ∧ recent = (tget [] s.fault.uncorrectable (stack * 16 + ch)).filter (fun t => decide (since s t < secTicks 1)))
  ∧ (∃ (stack ch : Nat), stack < 4 ∧ ch < 16)
  ∧ (∃ (corrected : List Nat) (s : State), secTicks 86400 ≤ since s s.fault.scrubAt)
  ∧ (∃ (now : List Int) (power : Nat) (tick : State → Bool) (s : State), s.start.held = false ∧ s.start.rstLow = false
      ∧ now.length = 7 ∧ (∀ t, s.fault.sampledAt = some t → msTicks 1 ≤ since s t)
      ∧ tick s = (s.fault.history.isEmpty || decide (secTicks 1 ≤ since s s.fault.historyAt)))
  ∧ (∃ (now : List Int) (power : Nat) (s : State), s.start.held = true ∧ dieMax now < 1520)
  ∧ (∃ (temp : Int) (s : State), 1840 ≤ temp ∧ s.start.held = false)
  ∧ (∃ (s : State), secTicks 1 ≤ since s s.ev.secondStart)
  ∧ (∃ (fn mask : Nat) (s : State), fnIsPf fn = true ∧ s.start.windowUp = true)
  ∧ (∃ (fn : Nat) (s : State), fnIsPf fn = true ∧ s.start.windowUp = true) := by
  refine ⟨?_, ?_, ?_, ?_, ?_, ?_, ?_, ?_, ?_, ?_, ?_⟩
  · exact ⟨4, 0, 0, by decide⟩
  · exact ⟨3, 15, by decide⟩
  · exact ⟨3, 15, [], ready, by decide +kernel⟩
  · exact ⟨3, 15, by decide⟩
  · exact ⟨[], { ready with time := { ready.time with
      dc := 2 ^ 48 } }, by decide +kernel⟩
  · exact ⟨[0, 0, 0, 0, 0, 0, 0], 0, (fun s => s.fault.history.isEmpty || decide (secTicks 1 ≤ since s s.fault.historyAt)), ready, rfl, rfl, rfl, (fun _ h => by cases h), rfl⟩
  · exact ⟨[0, 0, 0, 0, 0, 0, 0], 0, { ready with start := { ready.start with
      held := true } }, by decide +kernel⟩
  · exact ⟨1840, ready, by decide +kernel⟩
  · exact ⟨ready, by decide +kernel⟩
  · exact ⟨64, 65535, ready, by decide +kernel⟩
  · exact ⟨64, ready, by decide +kernel⟩

/-- Every clause of SideBandAnswers is about something. -/
theorem test_met_SideBandAnswers :
  (∃ (k : Nat) (pec : Bool) (s : State), k ≤ 6 ∧ s.start.windowUp = true)
  ∧ (∃ (pec : Bool) (s : State), s.start.windowUp = true)
  ∧ (∃ (pec : Bool) (s : State), s.start.windowUp = true)
  ∧ (∃ (pec : Bool) (s : State), s.start.windowUp = true)
  ∧ (∃ (pec : Bool) (s : State), s.start.windowUp = true)
  ∧ (∃ (pec : Bool) (s : State), s.start.windowUp = true)
  ∧ (∃ (s : State), s.start.windowUp = true)
  ∧ (∃ (code : Nat) (s : State), smbKnown code = false ∧ s.start.windowUp = true)
  ∧ (∃ (tdi : List Bool), True)
  ∧ (∃ (tdi : List Bool), True)
  ∧ (∃ (tdi : List Bool), True)
  ∧ (∃ (tdi : List Bool) (s : State), s.start.tapId = true)
  ∧ (∃ (tdi : List Bool) (s : State), s.start.tapId = false) := by
  refine ⟨?_, ?_, ?_, ?_, ?_, ?_, ?_, ?_, ?_, ?_, ?_, ?_, ?_⟩
  · exact ⟨6, true, ready, by decide +kernel⟩
  · exact ⟨true, ready, by decide +kernel⟩
  · exact ⟨true, ready, by decide +kernel⟩
  · exact ⟨true, ready, by decide +kernel⟩
  · exact ⟨true, ready, by decide +kernel⟩
  · exact ⟨true, ready, by decide +kernel⟩
  · exact ⟨ready, by decide +kernel⟩
  · exact ⟨7, ready, by decide +kernel⟩
  · exact ⟨[], trivial⟩
  · exact ⟨[], trivial⟩
  · exact ⟨[], trivial⟩
  · exact ⟨[true], ready, by decide +kernel⟩
  · exact ⟨[true], { ready with start := { ready.start with
      tapId := false } }, by decide +kernel⟩

/-- Every clause of WindowAccessesAct is about something. -/
theorem test_met_WindowAccessesAct :
  (∃ (fn : Nat) (s : State), s.start.windowUp = true ∧ fnExists s fn = true ∧ fnIsPf fn = true)
  ∧ (∃ (fn mask : Nat) (s : State), s.start.windowUp = true ∧ fnExists s fn = true)
  ∧ (∃ (fn mask : Nat) (high : Bool) (s : State), s.start.windowUp = true ∧ fnExists s fn = true)
  ∧ (∃ (fn bar off data : Nat) (s : State), s.start.windowUp = true ∧ fnExists s fn = true ∧ off % 4 = 0)
  ∧ (∃ (fn bar off data : Nat) (s : State), s.start.windowUp = true ∧ fnExists s fn = true ∧ off % 8 = 0) := by
  refine ⟨?_, ?_, ?_, ?_, ?_⟩
  · exact ⟨64, ready, by decide +kernel⟩
  · exact ⟨64, 31, ready, by decide +kernel⟩
  · exact ⟨64, 1, true, ready, by decide +kernel⟩
  · exact ⟨0, 0, 4, 0, ready, by decide +kernel⟩
  · exact ⟨0, 0, 8, 0, ready, by decide +kernel⟩

/-- EmptyQueuePassesATick, FaultStatusFollowsEveryStep and FaultChangeRaisesBothPfs are about states there are. -/
theorem test_met_steps : ready.pending = [] ∧ (FaultStatusKept (syncFault ready) ∧ ∃ t, step (syncFault ready) = .next t)
    ∧ faultStatus (syncFault ready) = (syncFault ready).ev.status ∧ faultStatus ready ≠ ready.ev.status :=
  ⟨rfl, ⟨by unfold FaultStatusKept; decide +kernel, (step_done _).elim fun _ h => ⟨_, h⟩⟩, by decide +kernel, by decide +kernel⟩

/-- Each check of R35 fails somewhere: function field, access right, another function's furrow, features not locked, safe state, feature, VF
feature, header. -/
theorem test_met_ChecksComeInOrder :
    firstBad { code := 0x0100, len := some 0 } { rq false 0x0100 [] with functionField := 1 } (some []) ready = some stDenied
    ∧ firstBad { code := 0x0100, len := some 0 } { rq false 0x0100 [] with fn := 1, functionField := 1 } (some []) ready = some stDenied
    ∧ firstBad { code := 0x0B11, vf := true, len := some 8, furrow := some 0 } (rq false 0x0B11 (zeros 8)) (some (zeros 8))
        (setFurrow 0 { st := fsReady, owner := 64 } ready) = some stDenied
    ∧ firstBad { code := 0x0100, len := some 0 } (rq false 0x0100 []) (some []) { ready with mbx := { ready.mbx with locked := false } } = some stBadState
    ∧ firstBad { code := 0x0100, len := some 0 } (rq false 0x0100 []) (some []) { ready with start := { ready.start with safe := true } } = some stBadState
    ∧ firstBad { code := 0x0C11, needs := some 3, len := some 0 } (rq false 0x0C11 []) (some []) { ready with mbx := { ready.mbx with accepted := 1 } }
        = some stNotNegotiated
    ∧ firstBad { code := 0x0B16, vf := true, len := some 8 } { rq false 0x0B16 (zeros 8) with fn := 1, functionField := 1 } (some (zeros 8))
        { ready with mbx := { ready.mbx with accepted := 1 } } = some stNotNegotiated
    ∧ firstBad { code := 0x0100, len := some 0 } (rq false 0x0100 (zeros 8)) (some []) ready = some stBadArg := by decide +kernel

/-- Such a request is the oldest of a row of the mailbox; and a request of no defined code is. -/
theorem test_met_ChecksComeInOrder_request :
    (mailboxRow (.cfgStatus ⟨none, true, false⟩) = some ({ code := 0x0100, len := some 0 }, ⟨none, true, false⟩)
      ∧ Oldest { code := 0x0100, len := some 0 } (rq false 0x0100 (zeros 8)) [] (asked false 0x0100 (zeros 8) ready)
      ∧ firstBad { code := 0x0100, len := some 0 } (rq false 0x0100 (zeros 8)) (payloadOf (rq false 0x0100 (zeros 8)) none) (taken [] (asked false 0x0100 (zeros 8) ready)) = some stBadArg)
    ∧ (ready.mbx.answering = true ∧ ready.mbx.hold = none ∧ (asked false 0x0105 [] ready).mbx.inbox = [rq false 0x0105 []]
      ∧ codeDefined 0x0105 = false) :=
  ⟨⟨rfl, ⟨rfl, rfl, rfl, rfl⟩, by decide +kernel⟩, rfl, rfl, rfl, by decide +kernel⟩

/-- OtherRequestsAreLeftAlone: another command's request, a mailbox that does not answer, a held request, no request. -/
theorem test_met_OtherRequestsAreLeftAlone :
    ((asked false 0x0100 [] ready).mbx.inbox = [rq false 0x0100 []] ∧ codeDefined 0x0100 = true ∧ 0x0100 ≠ 0x0000)
    ∧ State.reset.mbx.answering = false
    ∧ ({ ready with mbx := { ready.mbx with hold := some ⟨rq false 0x0311 [], 0, 0, true⟩ } } : State).mbx.hold.isSome = true
    ∧ ready.mbx.inbox = [] := by decide +kernel

/-- ResponseStaysInItsArea, TooLargeAResponseHasNoEffect and FailedHostAccessHasNoEffect at the bounds of the payload. -/
theorem test_met_responses :
    (Memory.wf ready.win.mem = true ∧ (zeros 4080).length ≤ 4080)
    ∧ (if respIndirect (rq false 0 []).flags then fld (rq false 0 []).inline 16 4 else 4080) < (⟨stOk, zeros 4081, 0, ready⟩ : Reply).payload.length
    ∧ (mailboxRow (.graphLoad ⟨none, true, false⟩) = some ({ code := 0x0900 }, ⟨none, true, false⟩)
      ∧ Oldest { code := 0x0900 } (rq true 0x0900 (zeros 8)) [] (asked true 0x0900 (zeros 8) ready)
      ∧ firstBad { code := 0x0900 } (rq true 0x0900 (zeros 8)) none (taken [] (asked true 0x0900 (zeros 8) ready)) = none
      ∧ reqIndirect (rq true 0x0900 (zeros 8)).flags = true)
    ∧ ((⟨stOk, [0], 0, ready⟩ : Reply).payload.length ≤ respRoom (rq true 0x0914 (zeros 8)) ∧ respIndirect (rq true 0x0914 (zeros 8)).flags = true
      ∧ (⟨stOk, [0], 0, ready⟩ : Reply).payload ≠ []) :=
  ⟨by decide +kernel, by decide +kernel, ⟨rfl, ⟨rfl, rfl, rfl, rfl⟩, by decide +kernel, by decide +kernel⟩, by decide +kernel⟩

/-- OneStagedImage: a staged command that comes, with a commit armed and without. -/
theorem test_met_OneStagedImage :
    stagedRow (.posSetDiv ⟨none, true, false⟩) = true ∧ mailboxRow (.posSetDiv ⟨none, true, false⟩) = some ({ code := 0x0402, len := some 16 }, ⟨none, true, false⟩)
    ∧ Comes { code := 0x0402, len := some 16 } ⟨none, true, false⟩ (rq false 0x0402 (zeros 16)) [] (zeros 16) (asked false 0x0402 (zeros 16) (idleDue []))
    ∧ (asked false 0x0402 (zeros 16) (idleDue [])).cfg.commit.isSome = true :=
  ⟨rfl, rfl, comes_of (c := { code := 0x0402, len := some 16 }) (ind := false) (s := idleDue []) (by decide +kernel), rfl⟩

/-- A device with some settings staged. -/
def staging (img : Image) : State := { ready with cfg := { ready.cfg with staged := img } }

/-- CommitChecksComeInOrder: each check fails in some state, and the requests come; the last is a POSITION at H, where p_min is not asked. -/
theorem test_met_CommitChecksComeInOrder :
    commitArgs ready (pay 24 [(0, 1, 4)]) = false ∧ (idleDue []).cfg.commit.isSome = true
    ∧ (feature (trelAs tsMaster 0) 3 = true ∧ formed (trelAs tsMaster 0) = true) ∧ fld (pay 24 [(16, 4, 1)]) 16 4 ≠ ready.cfg.generation
    ∧ ready.cfg.staged = [] ∧ (validate false (staging [(settingKey 0x0301 0, pay 64 [(1, 1, 1)])])).isSome = true
    ∧ (validate false (staging [(settingKey 0x0402 0, zeros 16)]) = none ∧ fld (pay 24 [(0, 1, 2)]) 0 1 = 2
      ∧ sfld (pay 24 [(0, 1, 2)]) 8 8 ≤ (staging [(settingKey 0x0402 0, zeros 16)]).trig.high)
    ∧ [pay 24 [(0, 1, 4)], pay 24 [(16, 4, 1)], pay 24 [(0, 1, 2)], zeros 24].all (fun p => comesB { code := 0x0101, len := some 24 } false p ready)
      = true := by decide +kernel

/-- GoTakesTheRequest: a slot that is IDLE and one that is DONE. -/
theorem test_met_GoTakesTheRequest : ready.start.windowUp = true ∧ fnExists ready 64 = true ∧ 63 < slotCount 64
    ∧ slotState ready 64 63 = 0 ∧ slotState (setSlot 64 63 { st := 2 } ready) 64 63 = 2 := by decide +kernel

/-- AchievedPositionIsSampled: an ACTION whose held tick has come. -/
theorem test_met_AchievedPositionIsSampled :
    (trigUnit (setTrigUnit 0 { gev := [⟨5, 0, false, none, none⟩] } ready) 0).gev.find? (fun e => e.achieved.isNone
      && reached (setTrigUnit 0 { gev := [⟨5, 0, false, none, none⟩] } ready) e.tick) = some ⟨5, 0, false, none, none⟩ := by decide +kernel

/-- An image of one byte, signed with the private key 1. -/
def fwImage : Bytes :=
  let key := (leBytes 48 curveG.1).reverse ++ (leBytes 48 curveG.2).reverse
  let r := 0x8d999057ba3d2d969260045c55b97f089025959a6f434d651d207d19fb96e9e4fe0e86ebe0e64f85b96a9c75295df61
  let s := 0x23e48a589ffb3077fbfb8c2ab2f31f9a80aeb989c36bebd3f867e2bf59e8fc16dfb86c19687b174006bd13c0b4568ae2
  let digest := 0xbec021b4f368e3069134e012c2b4307083d3a9bdd206e24e5f0d86e13d6636655933ec2b413465966817a9c208a11717
  [0x4B, 0x50, 0x5A, 0x46, 1] ++ zeros 15 ++ [1] ++ zeros 11 ++ (leBytes 48 digest).reverse ++ key ++ (leBytes 48 r).reverse ++ (leBytes 48 s).reverse
    ++ zeros 240 ++ [0]

/-- SYS.FW_WRITE of that image: the fused key hashes are free, so that the image is sound on this device is the premise. -/
theorem test_met_StartCommandsAct_write (h : imageReason (([0xFF] ++ zeros 7 ++ fwImage).drop 8) = 0) :
    ∃ k : Nat, MetTicket { code := 0x0012, inSafe := true } (fun s q p => writeSlot s (fld p 0 1) = some k
      ∧ reqIndirect q.flags = true ∧ 520 ≤ p.length ∧ (fld p 0 1 ≤ 1 ∨ fld p 0 1 = 0xFF) ∧ zeroRange p 1 7 = true ∧ s.start.trial = false
      ∧ ticketsRunning s 0x0012 = [] ∧ imageReason (p.drop 8) = 0 ∧ (p.drop 8).length = 512 + fld (p.drop 8) 0x14 4) :=
  ⟨1, metTicket true ready ([0xFF] ++ zeros 7 ++ fwImage) (by decide +kernel) ⟨by decide +kernel, by decide +kernel, by decide +kernel,
    by decide +kernel, by decide +kernel, by decide +kernel, by decide +kernel, h, by decide +kernel⟩ (by decide +kernel)⟩

/-- A trigger unit enabled with FIRE_LATE. -/
def lateUnit : State := withSet [(0x0500, 0, pay 64 [(1, 1, 1), (2, 1, 1)])] ready

/-- PositionAndTriggerCommandsAct: a TRIG.QUEUE_ADD of a value not above H, at H itself. -/
theorem test_met_PositionAndTriggerCommandsAct_late :
    comesB { code := 0x0510, len := some 16 } false (zeros 16) lateUnit = true ∧ unitArgOk (zeros 16) = true
    ∧ (unitSet lateUnit (fld (zeros 16) 0 1)).enable = true ∧ sfld (zeros 16) 8 8 ≤ lateUnit.trig.high
    ∧ (unitSet lateUnit (fld (zeros 16) 0 1)).fireLate = true := by decide +kernel

/-- Field lane 0 in mode 1, not up. -/
def fieldLane : State := setLane 0 { st := lsAligning, set := { mode := 1 } } ready

/-- LaneCommandsAct: a test begins on a lane that is not in TEST, one in TEST is changed, and one is ended. -/
theorem test_met_LaneCommandsAct_test :
    [(8, 1, 2), (8, 1, 0)].all (fun f => comesB { code := 0x0215, len := some 8 } false (pay 8 [(2, 1, f.2.2)]) fieldLane) = true
    ∧ ((laneOf fieldLane 0).testing = false ∧ (laneOf fieldLane 0).has flRefclkLost = false ∧ applying fieldLane = false
      ∧ patternAllowed (laneOf fieldLane 0) 2 = true ∧ portCarriesHead fieldLane (laneOf fieldLane 0).set.first = false
      ∧ (laneOf fieldLane 0).set.mode ≠ modeGraft)
    ∧ (laneOf (setLane 0 { st := lsTest } ready) 0).testing = true := by decide +kernel

/-- An SSI channel of 16 bits with a step of at most 10, its last value 5. -/
def ssiOn : State := setChan 0 { ssiPrev := some 5 } (withSet [(0x0400, 0, pay 48 [(1, 1, 3), (23, 1, 16), (32, 4, 10)])] ready)

/-- ChannelEdgesCount: a first SSI frame, one beyond the step and one at the step. -/
theorem test_met_ChannelEdgesCount_ssi :
    (chan ready 0).ssiPrev = none ∧ (chan ssiOn 0).ssiPrev = some 5
    ∧ (chanSet ssiOn 0).ssiMaxStep < (ssiDelta (chanSet ssiOn 0).ssiBits (ssiValue (chanSet ssiOn 0) 16) 5).natAbs
    ∧ (ssiDelta (chanSet ssiOn 0).ssiBits (ssiValue (chanSet ssiOn 0) 15) 5).natAbs ≤ (chanSet ssiOn 0).ssiMaxStep := by decide +kernel

/-! Commands that are ill formed, one for each check -/

/-- What was read at req_addr exceeds 64 MiB. -/
theorem test_wf_request (b : Bytes) (h : 67108864 < b.length) : (Instr.sysNop ⟨some b, true, false⟩).wellFormed = false := by
  show decide (b.length ≤ 67108864) = false
  simpa using h

theorem test_wf_front : [Instr.slotGo 128 0, .slotGo 0 64, .slotOverrunClear 128 0, .encoderEdgeAccepted 16 0 0, .overspeed 16, .stale 16,
    .emuOutputCount 2, .gpInputEdge 24 true 0, .gpStuck 24, .spinPosLoRead 128, .compareMatch 64 0, .gevActionSend 64, .trgPulseStart 64,
    .servoMeasurement 7 0 none, .viewStepApply 7, .ptpDelayReqSend 49 0, .txqDropsRead 49, .viewBlockRead 128 0, .viewBlockRead 0 9].all
    (fun i => !i.wellFormed) = true := by decide

theorem test_wf_links : [Instr.refclkLost 4, .retrainInterval 64, .checkerLock 64, .flitRx 64 [], .hello 64, .digest 64, .ethFrameRx 64 [],
    .modulePoll 16 ⟨false, 0, false, 0, 0⟩, .headRetry 48, .paramWriteSend 48, .blockTimeout 128, .lineComplete 128, .bedServeLine 8,
    .memberWaitExpiry 192, .bedRowEmit 8 0 0, .bedRowEmit 0 192 0, .graphRow 64 [], .shadowCheck 32 0 0 true, .shadowCheck 0 16 0 true,
    .engineEccError 544 true, .knownAnswerTestDone 32 true true].all (fun i => !i.wellFormed) = true := by decide

theorem test_wf_back : [Instr.doorbellWrite 128 0 false 0, .functionReset 128 [], .registerWrite 128 0 0 4 0, .dcLoRead 128, .packFlush 32768,
    .rowBlockIdleClose 1024, .portLoss 2 [], .portL0Entry 2 1 1, .sriovConfigWrite 2 ⟨0, 128, 128, 0, 0⟩ true, .msixUnmask 128 0, .msixUnmask 0 1024,
    .memberLost 64, .sramUncorrectable 5 0 0, .hbmChannelFailed 4 0 0, .hbmChannelFailed 0 16 0, .smbReadTemperature 7 true].all
    (fun i => !i.wellFormed) = true := by decide

/-! Values the spec works out, and single steps -/

/-- The offset sets of R410's example: code 20 at 25.0 °C and 26 at 60.0 °C give 23 at 44.0 °C. -/
theorem test_trim_between : codesAt 1 [⟨400, [20]⟩, ⟨960, [26]⟩] 704 = [23] := by decide

/-- Table 11.10. -/
def table11_10 : Bytes := leBytes 8 9 ++ [0x02000000, 0x04400000, 0x64A00004, 0x44A00011, 0xB6810000, 0x08800000, 0x1A2004B0, 0xBD440000,
  0xE0C60000].flatMap (leBytes 4) ++ zeros 4

/-- The program of Table 11.10 on its pixel, 40,000, 37,000 and 1,500, gives 1; with 1,200 in the darkfield it gives 0. -/
theorem test_expr : exprOf table11_10 1 [40000, 37000, 1500] = 1 ∧ exprOf table11_10 1 [40000, 37000, 1200] = 0 := by decide +kernel

/-- Table 20.6: LB_OVERWRITTEN of line stream 20 and SLOT_STATE of slot 63. -/
theorem test_addresses :
    readReg 0 0 0x00339A78 { ready with stat := { ready.stat with snap := [(7 * 4096 + 335, 5)] } } = 5
    ∧ readReg 0 0 0x000083F4 (setSlot 0 63 { st := 2 } ready) % 4 = 2 := by decide +kernel

/-- The CRC-32 of IEEE 802.3 and the CRC-32C of the standard check string 123456789. -/
theorem test_crc : crc32 [0x31, 0x32, 0x33, 0x34, 0x35, 0x36, 0x37, 0x38, 0x39] = 0xCBF43926
    ∧ crc32c [0x31, 0x32, 0x33, 0x34, 0x35, 0x36, 0x37, 0x38, 0x39] = 0xE3069283 := by decide +kernel

/-- R24: a GO on an IDLE slot takes the request and makes the slot BUSY; R23: a GO on a BUSY slot sets OVERRUN. -/
theorem test_go : slotState (after { ready with pending := [.slotGo 0 0] }) 0 0 = 1
    ∧ (after { ready with pending := [.slotGo 0 0] }).mbx.inbox.length = 1
    ∧ (slotOf (after { setSlot 0 0 { st := 1 } ready with pending := [.slotGo 0 0] }) 0 0).overrun = true := by decide +kernel

/-- R34, R25: SYS.NOP returns its payload, the slot is DONE and the mailbox cause is set. -/
theorem test_nop :
    let t := after { asked false 0 [1, 2, 3, 4] ready with pending := [.sysNop ⟨none, true, false⟩] }
    slotRead t 0 0 0x1010 4 = [1, 2, 3, 4] ∧ slotState t 0 0 = 2 ∧ bitOf (fnRegs t 0).cause 0 = true := by decide +kernel

/-- R35: a command before the features are locked is BAD_STATE, status 2 in the header; SYS.GET_FEATURES is answered. -/
theorem test_not_locked :
    slotRead (after { asked false 0x0100 [] { ready with mbx := { ready.mbx with locked := false } } with
      pending := [.cfgStatus ⟨none, true, false⟩] }) 0 0 0x1002 2 = leBytes 2 stBadState
    ∧ slotRead (after { asked false 0x0001 [] { ready with mbx := { ready.mbx with locked := false } } with
      pending := [.sysGetFeatures ⟨none, true, false⟩] }) 0 0 0x1002 2 = leBytes 2 stOk := by decide +kernel

/-- R64: on a quadrature channel an edge of A with B low counts up, and one of B then counts on. -/
theorem test_quadrature :
    let t := after { withSet [(0x0400, 0, pay 48 [(1, 1, 1)])] ready with pending := [.encoderEdgeAccepted 0 1 0] }
    (chan t 0).count = 1 ∧ (chan (after { t with pending := [.encoderEdgeAccepted 0 3 0] }) 0).count = 2 := by decide +kernel

/-- R423: at 115 °C the device is held in reset. -/
theorem test_trip : (after { ready with pending := [.thermalTrip 1840] }).start.held = true
    ∧ (after { ready with pending := [.thermalTrip 1839] }).start.held = false := by decide +kernel

/-- An empty queue passes one tick of 1.6 ns. -/
theorem test_tick : (after ready).time.dc = 2 ^ 44 + 1 := by decide +kernel

end Sys2Proof.Tests
end

/-! Proofs about the mailbox (chapter 2): the checks before a command, the checks of CFG.COMMIT, and GO. -/

namespace Sys2Proof.Machine

/-! The Headstock's checks (R35) -/

/-- Undefined codes are answered only as far as the next defined one: with none left there is nothing to do. -/
theorem answerUndefined_defined {l : List Req} (h : ∀ r ∈ l, codeDefined r.command = true) (s : State) : answerUndefined l s = s := by
  cases l with
  | nil => rfl
  | cons r l => simp [answerUndefined, h r List.mem_cons_self]

/-- The Headstock answers one request of an undefined code that stands before defined ones (R36). -/
theorem headstockTurn_undefined {s : State} {q : Req} {rest : List Req} (ha : s.mbx.answering = true) (hh : s.mbx.hold = none)
    (hi : s.mbx.inbox = q :: rest) (hq : codeDefined q.command = false) (hr : ∀ r ∈ rest, codeDefined r.command = true) :
    headstockTurn s = putResponse q (undefinedStatus q) [] 0 0 (taken rest s) := by
  rw [headstockTurn, hi, answerUndefined, answerUndefined_defined hr]
  simp [ha, hh, hq, taken]

/-- A row of the mailbox answers a request that fails a check of R35 with that check's status, and the command has no effect. -/
theorem exec_mailboxRow_bad {i : Instr} {c : CmdSpec} {io : HostIo} {q : Req} {rest : List Req} {st : Nat} {s : State}
    (hi : mailboxRow i = some (c, io)) (h : Oldest c q rest s) (hb : firstBad c q (payloadOf q io.req) (taken rest s) = some st) :
    exec i s = done (respond q st [] 0 0 (taken rest s)) := by
  obtain ⟨hd, ⟨own, he⟩ | ⟨own, he⟩⟩ := exec_mailboxRow hi
  · rw [he, serve_bad hd h hb, complete_empty _ _ _ _ rfl]
    rfl
  · rw [he, serveOrHold_bad hd h hb, complete_empty _ _ _ _ rfl]
    rfl

/-- A feature that is asked for, if one is, was not accepted. -/
def lacks (asked : Option Nat) (s : State) : Bool := match asked with
  | some k => !feature s k
  | none => false

/-- A request lacks a feature (check 4 of R35): SR_IOV for a VF, the command's own, or the one that the fields of its payload name. -/
def lacksFeature (c : CmdSpec) (q : Req) (p : Option Bytes) (s : State) : Bool :=
  (!fnIsPf q.fn && !feature s 8) || lacks c.needs s || lacks (p.bind (namedFeature c.code)) s

/-- Outside the safe state a command that is not exempt, with FEATURES locked or not needed, is asked for its features alone. -/
theorem stateBad_features {c : CmdSpec} {q : Req} {p : Option Bytes} {s : State} (hs : s.start.safe = false) (he : isExempt c p = false)
    (hl : (!s.mbx.locked && decide (2 < c.code)) = false) :
    stateBad c q p s = if lacksFeature c q p s then some stNotNegotiated else none := by
  unfold stateBad lacksFeature
  simp only [hs, he, hl, Bool.false_eq_true, ↓reduceIte]
  cases hv : !fnIsPf q.fn && !feature s 8 with
  | true => rfl
  | false =>
    cases c.needs with
    | none =>
      cases p.bind (namedFeature c.code) with
      | none => rfl
      | some k => cases hk : feature s k <;> simp [lacks, hk]
    | some b =>
      cases p.bind (namedFeature c.code) with
      | none => cases hb : feature s b <;> simp [lacks, hb]
      | some k => cases hb : feature s b <;> cases hk : feature s k <;> simp [lacks, hb, hk]

/-- Checks 3 and 4 of R35, with the exemptions of R403 and R404: FEATURES locked, the safe state, the features. -/
theorem stateBad_inOrder (c : CmdSpec) (q : Req) (p : Option Bytes) (s : State) : stateBad c q p s =
    if !s.start.safe && !isExempt c p && !s.mbx.locked && decide (2 < c.code) then some stBadState
    else if s.start.safe && !takenInSafe c p then some stBadState
    else if !s.start.safe && !isExempt c p && lacksFeature c q p s then some stNotNegotiated
    else none := by
  cases hs : s.start.safe with
  | true => cases ht : takenInSafe c p <;> simp [stateBad, hs, ht]
  | false =>
    cases he : isExempt c p with
    | true => simp [stateBad, hs, he]
    | false =>
      cases hl : !s.mbx.locked && decide (2 < c.code) with
      | true => simp [stateBad, hs, he, hl]
      | false => simp [stateBad_features hs he hl, hl]

/-- The checks of R35 before the command's own, in one order: DENIED, BAD_STATE, NOT_NEGOTIATED, BAD_ARG. -/
theorem firstBad_inOrder (c : CmdSpec) (q : Req) (p : Option Bytes) (s : State) : firstBad c q p s =
    if denied c q p s then some stDenied
    else if !s.start.safe && !isExempt c p && !s.mbx.locked && decide (2 < c.code) then some stBadState
    else if s.start.safe && !takenInSafe c p then some stBadState
    else if !s.start.safe && !isExempt c p && lacksFeature c q p s then some stNotNegotiated
    else if headerBad q c.len then some stBadArg else none := by
  rw [firstBad, stateBad_inOrder]
  cases denied c q p s with
  | true => rfl
  | false =>
    cases !s.start.safe && !isExempt c p && !s.mbx.locked && decide (2 < c.code) with
    | true => rfl
    | false =>
      cases s.start.safe && !takenInSafe c p with
      | true => rfl
      | false =>
        cases !s.start.safe && !isExempt c p && lacksFeature c q p s with
        | true => rfl
        | false => rfl

/-- Settles O8, by `firstBad_inOrder` and by what a row and the Headstock do with a request that fails a check. -/
theorem checksComeInOrder : Obligations.ChecksComeInOrder := by
  unfold Obligations.ChecksComeInOrder
  refine ⟨fun i c io q rest st s hi h hb => exec_mailboxRow_bad hi h hb, fun c q p s => ?_,
    fun q rest s ha hh hi hq hr => headstockTurn_undefined ha hh hi hq hr⟩
  rw [firstBad_inOrder]
  cases p <;> rfl

/-! CFG.COMMIT's own checks (R471) -/

/-- The first of CFG.COMMIT's own checks that fails, with the response payload that goes with its status. -/
def commitRefusal (s : State) (p : Bytes) : Option (Nat × Bytes) :=
  if commitArgs s p = false then some (stBadArg, [])
  else if s.cfg.commit.isSome then some (stBusy, [])
  else if feature s 3 = true ∧ formed s = true then some (0x42, [])
  else if fld p 16 4 ≠ s.cfg.generation then some (0x41, [])
  else if s.cfg.staged = [] then some (0x44, [])
  else match validate false s with
    | some (k, r) => some (0x40, offender k r)
    | none =>
      if fld p 0 1 = 2 ∧ (sfld p 8 8 < leastPosition s.pos.sp.pos (spinSpeed s) (stageTime s + 100) ∨ sfld p 8 8 ≤ s.trig.high) then
        some (stBehind, [])
      else none

/-- One check of a chain: where it fails the reply carries its status and leaves the state alone, and else the rest of the chain decides. -/
theorem check_answers {c : Prop} [Decidable c] {st st' : Nat} {a a' : Bytes} {r : Option (Nat × Bytes)} {own : Reply} {s : State}
    (next : r = some (st, a) → own = ⟨st, a, 0, s⟩) :
    (if c then some (st', a') else r) = some (st, a) → (if c then ⟨st', a', 0, s⟩ else own) = (⟨st, a, 0, s⟩ : Reply) := by
  by_cases hc : c
  · rw [if_pos hc, if_pos hc]
    intro h
    cases h
    rfl
  · rw [if_neg hc, if_neg hc]
    exact next

/-- A commit that a check refuses answers that check's status and leaves the state alone. -/
theorem cfgCommit_refused {s : State} {p : Bytes} {st : Nat} {a : Bytes} (q : Req) (h : commitRefusal s p = some (st, a)) :
    cfgCommit s q p = ⟨st, a, 0, s⟩ := by
  revert h
  unfold commitRefusal cfgCommit
  simp only [Bool.not_eq_true', Bool.and_eq_true, Bool.or_eq_true, decide_eq_true_eq, List.isEmpty_iff]
  refine check_answers (check_answers (check_answers (check_answers (check_answers ?_))))
  cases validate false s with
  | some kr =>
    intro h
    cases h
    rfl
  | none => exact check_answers (fun h => nomatch h)

/-- CFG.COMMIT is a row of the mailbox with `cfgCommit` as its own work. -/
theorem exec_cfgCommit (io : HostIo) (s : State) :
    exec (.cfgCommit io) s = done (serve { code := 0x0101, len := some 24 } io cfgCommit s) := rfl

/-- Settles O23: `commitRefusal` is R471's list of checks, and a commit that it refuses changes nothing but its response. -/
theorem commitChecksComeInOrder : Obligations.CommitChecksComeInOrder := by
  unfold Obligations.CommitChecksComeInOrder
  intro io q rest p s st a hc hr h
  have hrefused : commitRefusal (taken rest s) p = some (st, a) := h
  rw [exec_cfgCommit, serve_own rfl hc, cfgCommit_refused q hrefused, complete_answered hr]
  rfl

/-! GO (R23, R24) -/

/-- A slot reads what was set, whatever stood there. -/
theorem slotOf_setSlot {f : Fn} {n : Nat} {x : Slot} {s : State} (h : x ≠ {}) : slotOf (setSlot f n x s) f n = x := by
  simp [slotOf, setSlot, tset, h, tget]

/-- A slot that is not OFFLINE reads what its register holds. -/
theorem slotState_online {s : State} {f : Fn} {n : Nat} (h : slotOffline s f n = false) : slotState s f n = (slotOf s f n).st := by
  simp [slotState, h]

/-- A slot that reads another state is not OFFLINE. -/
theorem slotOffline_of_slotState {s : State} {f : Fn} {n : Nat} (h : slotState s f n ≠ 3) : slotOffline s f n = false := by
  cases ho : slotOffline s f n with
  | false => rfl
  | true => exact absurd (by simp [slotState, ho]) h

@[simp] theorem slotOffline_syncFault (s : State) (f : Fn) (n : Nat) : slotOffline (syncFault s) f n = slotOffline s f n := by
  obtain ⟨_, _, _, _, _, h, _⟩ := syncFault_eq s
  rw [h]
  rfl

@[simp] theorem slotState_syncFault (s : State) (f : Fn) (n : Nat) : slotState (syncFault s) f n = slotState s f n := by
  simp [slotState, slotOf]

@[simp] theorem syncFault_mbx (s : State) : (syncFault s).mbx = s.mbx := by
  obtain ⟨_, _, _, _, _, h, _⟩ := syncFault_eq s
  rw [h]

/-- The state once a GO was taken: the slot is BUSY, and the request that stood in its area is the newest one. -/
def goTaken (f : Fn) (n : Nat) (s : State) : State :=
  { setSlot f n { slotOf s f n with st := 1 } s with mbx := { s.mbx with inbox := s.mbx.inbox ++ [standingRequest s f n] } }

/-- A GO on a slot that is not OFFLINE and not BUSY is taken. -/
theorem slotGo_taken {s : State} {f : Fn} {n : Nat} (ho : slotOffline s f n = false) (hb : (slotOf s f n).st ≠ 1) :
    slotGo f n s = goTaken f n s := by
  simp [slotGo, ho, hb, goTaken]

theorem slotState_goTaken {s : State} {f : Fn} {n : Nat} (ho : slotOffline s f n = false) : slotState (goTaken f n s) f n = 1 := by
  have hbusy : { slotOf s f n with st := 1 } ≠ ({} : Slot) := by
    intro h
    simpa using congrArg Slot.st h
  have hslot : slotOf (goTaken f n s) f n = { slotOf s f n with st := 1 } := slotOf_setSlot hbusy
  rw [slotState_online (show slotOffline (goTaken f n s) f n = false from ho), hslot]

/-- A GO on a slot of a function that exists is the mailbox's (R24). -/
theorem exec_slotGo {fn slot : Nat} {s : State} (hw : s.start.windowUp = true) (hf : fnExists s fn = true) (hs : slot < slotCount fn) :
    exec (.slotGo fn slot) s = .next (syncFault (slotGo fn slot s)) := by
  change done (if s.start.windowUp && fnExists s fn && decide (slot < slotCount fn) then slotGo fn slot s else s) = _
  simp [hw, hf, hs, done]

/-- Settles O33: the slot is not OFFLINE and not BUSY, and a write to its area leaves the requests taken alone. -/
theorem goTakesTheRequest : Obligations.GoTakesTheRequest := by
  unfold Obligations.GoTakesTheRequest
  intro fn slot s hw hf hn hst
  have ho : slotOffline s fn slot = false := slotOffline_of_slotState (by omega)
  have hb : (slotOf s fn slot).st ≠ 1 := by
    rw [← slotState_online ho]
    omega
  refine ⟨syncFault (goTaken fn slot s), ?_, ?_, ?_, fun _ _ => rfl⟩
  · rw [exec_slotGo hw hf hn, slotGo_taken ho hb]
  · rw [slotState_syncFault, slotState_goTaken ho]
  · rw [syncFault_mbx]
    rfl

end Sys2Proof.Machine

/-! Proofs about triggers and compare (chapter 4): the achieved position (R103). -/

namespace Sys2Proof.Machine

/-- A command is degraded at its held tick: it was before, or the position sampled misses its value by more than tol_nm. -/
def sampleDegraded (u : Nat) (e : GevOut) (s : State) : Bool := e.degraded || gevOff s (gevCfg (posImage s) u) e.value

/-- A record once a command was sampled at position `p`: the one that carries the command's value takes `p`, and is degraded with it. -/
def sampledRecord (e : GevOut) (p : Int) (degraded : Bool) (r : TrigRec) : TrigRec :=
  if e.record = some r.sequence then { r with position := p, flags := if degraded then r.flags ||| 2 else r.flags } else r

/-- A command sent once the command `e` was sampled at position `p`: it takes `p` where it stands for the same value. -/
def sampledCommand (e : GevOut) (p : Int) (degraded : Bool) (o : GevOut) : GevOut :=
  if o.value = e.value then { o with achieved := some p, degraded := degraded } else o

/-- A unit once its command `e` was sampled at the position of now. -/
def sampledUnit (u : Nat) (e : GevOut) (s : State) : TrigUnit :=
  { trigUnit s u with
    records := (trigUnit s u).records.map (sampledRecord e s.pos.sp.pos (sampleDegraded u e s))
    gev := (trigUnit s u).gev.map (sampledCommand e s.pos.sp.pos (sampleDegraded u e s)) }

theorem sampleDegraded_iff {u : Nat} {e : GevOut} {s : State} : sampleDegraded u e s = true ↔
    e.degraded = true ∨ (gevCfg (posImage s) u).tolNm < (s.pos.sp.pos - e.value).natAbs := by
  simp [sampleDegraded, gevOff]

@[simp] theorem sampledCommand_value (e : GevOut) (p : Int) (d : Bool) (o : GevOut) : (sampledCommand e p d o).value = o.value := by
  unfold sampledCommand
  split <;> rfl

theorem sampledCommand_achieved {e o : GevOut} {p : Int} {d : Bool} (h : o.value = e.value) :
    (sampledCommand e p d o).achieved = some p := by
  simp [sampledCommand, h]

/-- The unit's command whose held tick has come is the one that is sampled. -/
theorem exec_gevAchievedSample {u : Nat} {e : GevOut} {s : State}
    (h : (trigUnit s u).gev.find? (fun e => e.achieved.isNone && reached s e.tick) = some e) :
    exec (.gevAchievedSample u) s = .next (syncFault (setTrigUnit u (sampledUnit u e s) s)) := by
  change done (gevAchieved u s) = _
  rw [gevAchieved, h]
  rfl

/-- A unit that was sampled still holds the command, so it is not the unit that an unlisted one reads as. -/
theorem sampledUnit_ne_default {u : Nat} {e : GevOut} {s : State} (h : e ∈ (trigUnit s u).gev) : sampledUnit u e s ≠ {} := by
  intro hd
  have hnil : (sampledUnit u e s).gev = [] := congrArg TrigUnit.gev hd
  exact List.ne_nil_of_mem h (List.map_eq_nil_iff.mp hnil)

/-- Settles O38: the row sets `sampledUnit`, which holds a command and so is what the unit then reads. -/
theorem achievedPositionIsSampled : Obligations.AchievedPositionIsSampled := by
  unfold Obligations.AchievedPositionIsSampled
  intro u e s h
  have hx : sampledUnit u e s ≠ {} := sampledUnit_ne_default (List.mem_of_find?_eq_some h)
  have hu : trigUnit (syncFault (setTrigUnit u (sampledUnit u e s) s)) u = sampledUnit u e s := by
    rw [trigUnit_syncFault, trigUnit_setTrigUnit hx]
  refine ⟨_, exec_gevAchievedSample h, ?records, ?commands, ?position, ?otherUnits⟩
  case records =>
    rw [hu]
    simp only [← sampleDegraded_iff]
    rfl
  case commands =>
    rw [hu]
    intro o ho hv
    obtain ⟨o', -, rfl⟩ := List.mem_map.mp ho
    exact sampledCommand_achieved (by simpa using hv)
  case position => rw [syncFault_pos, setTrigUnit_pos]
  case otherUnits =>
    intro v hv
    rw [trigUnit_syncFault, trigUnit_setTrigUnit_ne hx hv]

end Sys2Proof.Machine

/-! What the proofs about single commands share: a request's fields within their bounds. -/

namespace Sys2Proof.Machine

/-- An unsigned field is within its bounds, and so are the others. -/
theorem fieldsOk_cons {p : Bytes} {o n : Nat} {lo hi : Int} {fs : List Field} {rs : List (Nat × Nat)} :
    fieldsOk p (⟨o, n, lo, hi, false⟩ :: fs) rs = true ↔ (lo ≤ (fld p o n : Int) ∧ (fld p o n : Int) ≤ hi) ∧ fieldsOk p fs rs = true := by
  simp [fieldsOk, fieldVal, and_assoc]

/-- With no field left, the reserved ranges are zero. -/
theorem fieldsOk_nil {p : Bytes} {rs : List (Nat × Nat)} : fieldsOk p [] rs = true ↔ ∀ r ∈ rs, zeroRange p r.1 r.2 = true := by
  simp [fieldsOk]

end Sys2Proof.Machine

/-! Proofs about a step as such: the front command, the tick of an empty queue, the fault status (R429), a row's request, a response's place. -/

namespace Sys2Proof.Machine

/-- A step with a command waiting runs it on the rest of the queue. -/
theorem step_front {s : State} {c : Instr} {rest : List Instr} (h : s.pending = c :: rest) : step s = exec c { s with pending := rest } := by
  rw [step, h]

/-- A step with nothing waiting passes a tick. -/
theorem step_empty {s : State} (h : s.pending = []) : step s = done (idle s) := by
  rw [step, h]

/-- Settles O1: it is `step_front`. -/
theorem stepRunsFrontCommand : Obligations.StepRunsFrontCommand := by
  unfold Obligations.StepRunsFrontCommand
  intro c rest s
  exact step_front (s := { s with pending := c :: rest }) rfl

/-- Settles O2: it is `step_empty`, with the tick that `idle` passes. -/
theorem emptyQueuePassesATick : Obligations.EmptyQueuePassesATick := by
  unfold Obligations.EmptyQueuePassesATick
  intro s h
  exact step_empty h

/-- Settles O3: every command ends with the comparison of the fault status (`exec_done`), so it answers a next state. -/
theorem noCommandStops : Obligations.NoCommandStops := by
  unfold Obligations.NoCommandStops
  intro c s
  obtain ⟨t, h⟩ := exec_done c s
  exact ⟨syncFault t, h⟩

/-! The fault status (R429) -/

/-- Whatever the state was, the fault status is kept once it was compared. -/
theorem faultStatusKept_syncFault (s : State) : FaultStatusKept (syncFault s) := by
  constructor
  · rw [syncFault_status, faultStatus_syncFault]
  · exact faultStatus_lt _

/-- Settles O5: after reset nothing but NO_MOTION stands in the fault status, and it was compared. -/
theorem faultStatusAtReset : Obligations.FaultStatusAtReset := by
  unfold Obligations.FaultStatusAtReset
  exact ⟨by decide, faultStatus_lt _⟩

/-- Settles O6: every step ends with the comparison (`step_done`), after which the fault status is kept. -/
theorem faultStatusFollowsEveryStep : Obligations.FaultStatusFollowsEveryStep := by
  unfold Obligations.FaultStatusFollowsEveryStep
  intro s t _ h
  obtain ⟨u, hu⟩ := step_done s
  obtain rfl : syncFault u = t := Host.Outcome.next.inj (hu.symm.trans h)
  exact faultStatusKept_syncFault u

/-- The state whose PF causes a changed fault status raises: the status is noted, and its new bits are sticky. -/
def statusNoted (s : State) : State := { s with ev := { s.ev with
  status := faultStatus s, sticky := s.ev.sticky ||| (faultStatus s &&& (faultStatus s ^^^ s.ev.status)) } }

theorem syncFault_same {s : State} (h : faultStatus s = s.ev.status) : syncFault s = s := by
  simp [syncFault, h]

theorem syncFault_changed {s : State} (h : faultStatus s ≠ s.ev.status) : syncFault s = raisePfCause 2 (statusNoted s) := by
  simp [syncFault, h, statusNoted]

theorem raisePfCause_ev (b : Nat) (s : State) : (raisePfCause b s).ev = s.ev := by
  obtain ⟨_, _, _, _, h⟩ := raisePfCause_eq b s
  rw [h]

/-- Raising a cause at both PFs sets its bit at PF 0. -/
theorem raisePfCause_pf0 (b : Nat) (s : State) : bitOf (fnRegs (raisePfCause b s) 0).cause b = true := by
  rw [raisePfCause, raiseCause_other _ _ _ _ (by decide)]
  exact raiseCause_self b 0 s

/-- Raising a cause at both PFs sets its bit at PF 1. -/
theorem raisePfCause_pf1 (b : Nat) (s : State) : bitOf (fnRegs (raisePfCause b s) 64).cause b = true :=
  raiseCause_self b 64 _

/-- Settles O7: a changed status is noted and raises cause 2 at both PFs, which leaves the rest of the state alone. -/
theorem faultChangeRaisesBothPfs : Obligations.FaultChangeRaisesBothPfs := by
  unfold Obligations.FaultChangeRaisesBothPfs
  intro s
  refine ⟨syncFault_same, fun h => ?_⟩
  have hev : (syncFault s).ev = (statusNoted s).ev := by rw [syncFault_changed h, raisePfCause_ev]
  refine ⟨?pf0, ?pf1, syncFault_status s, ?sticky, syncFault_log s, syncFault_cfg s, syncFault_pos s, syncFault_mem s⟩
  case pf0 => rw [syncFault_changed h]; exact raisePfCause_pf0 2 _
  case pf1 => rw [syncFault_changed h]; exact raisePfCause_pf1 2 _
  case sticky => rw [hev]; rfl

/-! A row whose request is not the oldest (R35, log entry 8) -/

/-- The Headstock serves nothing: it does not answer, it holds a request, or it has none. -/
def ServesNothing (s : State) : Prop := s.mbx.answering = false ∨ s.mbx.hold.isSome = true ∨ s.mbx.inbox = []

theorem headstockTurn_servesNothing {s : State} (h : ServesNothing s) : headstockTurn s = s := by
  rcases h with h | h | h <;> simp [headstockTurn, h, answerUndefined]

theorem serve_servesNothing {c : CmdSpec} {io : HostIo} {own : State → Req → Bytes → Reply} {s : State} (h : ServesNothing s) :
    serve c io own s = s := by
  rw [serve, headstockTurn_servesNothing h]
  rcases h with h | h | h <;> simp [serveNext, h]

theorem serveOrHold_servesNothing {c : CmdSpec} {io : HostIo} {own : State → Req → Bytes → Reply ⊕ State} {s : State}
    (h : ServesNothing s) : serveOrHold c io own s = s := by
  rw [serveOrHold, headstockTurn_servesNothing h]
  rcases h with h | h | h <;> simp [serveHoldNext, h]

/-- Settles O9: a row serves its own command alone, and only where the Headstock serves at all. -/
theorem otherRequestsAreLeftAlone : Obligations.OtherRequestsAreLeftAlone := by
  unfold Obligations.OtherRequestsAreLeftAlone
  intro i c io s hi h
  obtain ⟨-, ⟨own, he⟩ | ⟨own, he⟩⟩ := exec_mailboxRow hi
  · rw [he]
    obtain ⟨q, rest, hq, hd, hc⟩ | hs := h
    · rw [serve_other hq hd hc]; rfl
    · rw [serve_servesNothing hs]; rfl
  · rw [he]
    obtain ⟨q, rest, hq, hd, hc⟩ | hs := h
    · rw [serveOrHold_other hq hd hc]; rfl
    · rw [serveOrHold_servesNothing hs]; rfl

/-! Where a response stands (R25, R27) -/

/-- The header of a response (Table 2.5). -/
def responseHeader (q : Req) (st len tk : Nat) : Bytes :=
  leBytes 2 q.command ++ leBytes 2 st ++ leBytes 4 q.sequence ++ leBytes 4 len ++ leBytes 4 tk

theorem responseHeader_length (q : Req) (st len tk : Nat) : (responseHeader q st len tk).length = 16 := by
  simp [responseHeader]

/-- The areas after a response: the payload first, then the header before it. -/
theorem respond_mem (q : Req) (st : Nat) (a : Bytes) (len tk : Nat) (s : State) : (respond q st a len tk s).win.mem =
    memWrite (slotAddr q.fn q.slot 0x1000) (responseHeader q st len tk) (memWrite (slotAddr q.fn q.slot 0x1010) a s.win.mem) :=
  (respond_win q st a len tk s).1

theorem slotOf_respond (q : Req) (st : Nat) (a : Bytes) (len tk : Nat) (s : State) :
    slotOf (respond q st a len tk s) q.fn q.slot = { slotOf s q.fn q.slot with st := 2, seqLow := q.sequence % 65536 } := by
  have hdone : { slotOf s q.fn q.slot with st := 2, seqLow := q.sequence % 65536 } ≠ ({} : Slot) := by
    intro h
    simpa using congrArg Slot.st h
  rw [slotOf, (respond_win q st a len tk s).2]
  exact slotOf_setSlot (s := s) hdone

/-- Settles O10: a response is two writes into the response area, and its slot is set DONE. -/
theorem responseStaysInItsArea : Obligations.ResponseStaysInItsArea := by
  unfold Obligations.ResponseStaysInItsArea
  intro q st a len tk s hwf ha
  have hpayload : Memory.wf (memWrite (slotAddr q.fn q.slot 0x1010) a s.win.mem) = true := memWrite_wf _ _ hwf
  have hlen := responseHeader_length q st len tk
  have hroom : slotAddr q.fn q.slot 0x1010 = slotAddr q.fn q.slot 0x1000 + 16 := rfl
  have hend : slotAddr q.fn q.slot 0x2000 = slotAddr q.fn q.slot 0x1000 + 4096 := rfl
  refine ⟨?wf, ?outside, ?header, ?payload, ?done, ?sequence⟩
  case wf => rw [respond_mem]; exact memWrite_wf _ _ hpayload
  case outside =>
    intro k hk
    rw [inResponse] at hk
    rw [memByte, respond_mem, memWrite_outside _ _ hpayload (by omega), memWrite_outside _ _ hwf (by omega)]
    rfl
  case header =>
    refine slotRead_eq _ _ _ _ _ (responseHeader q st len tk) hlen fun i hi => ?_
    rw [respond_mem, memWrite_inside _ _ hpayload hi]
  case payload =>
    refine slotRead_eq _ _ _ _ _ _ rfl fun i hi => ?_
    rw [respond_mem, memWrite_outside _ _ hpayload (by omega), memWrite_inside _ _ hwf hi]
  case done => rw [slotOf_respond]
  case sequence => rw [slotOf_respond]

end Sys2Proof.Machine

/-! Proofs about the staged commands (R41, R42). -/

namespace Sys2Proof.Machine

/-- Settles O13: each is a row whose own work is `stage` under its code. -/
theorem positionAndTriggerSettingsStage : Obligations.PositionAndTriggerSettingsStage := by
  unfold Obligations.PositionAndTriggerSettingsStage
  refine ⟨?_, ?_, ?_, ?_, ?_, ?_, ?_, ?_, ?_, ?_, ?_⟩
  all_goals exact stages_of rfl (fun _ _ => rfl)

/-- Settles O14: each is a row whose own work is `stage` under its code. -/
theorem timeLaneAndCameraSettingsStage : Obligations.TimeLaneAndCameraSettingsStage := by
  unfold Obligations.TimeLaneAndCameraSettingsStage
  refine ⟨?_, ?_, ?_, ?_, ?_, ?_, ?_, ?_, ?_⟩
  all_goals exact stages_of rfl (fun _ _ => rfl)

/-- Settles O15: each is a row whose own work is `stage` under its code. -/
theorem pipelineSettingsStage : Obligations.PipelineSettingsStage := by
  unfold Obligations.PipelineSettingsStage
  refine ⟨?_, ?_, ?_, ?_, ?_, ?_, ?_, ?_, ?_, ?_, ?_, ?_⟩
  all_goals exact stages_of rfl (fun _ _ => rfl)

/-- Settles O16: each is a row whose own work is `stage` under its code. -/
theorem deliverySettingsStage : Obligations.DeliverySettingsStage := by
  unfold Obligations.DeliverySettingsStage
  refine ⟨?_, ?_, ?_, ?_, ?_⟩
  all_goals exact stages_of rfl (fun _ _ => rfl)

end Sys2Proof.Machine

/-! Proofs about the loads and the queries: a load stages its table or cut list, a query answers from the state and leaves it alone. -/

namespace Sys2Proof.Machine

/-! The loads (R241, R258) -/

/-- A sound table of a declared stream is staged. -/
theorem loadTable_sound {s : State} {q : Req} {p : Bytes} {c : StreamCfg} (hb : clocheBusy s = false) (hi : reqIndirect q.flags = true)
    (hl : 8 ≤ p.length) (hn : fld p 0 1 < 128) (hz : zeroRange p 1 7 = true) (hc : stagedStream s (fld p 0 1) = some c)
    (hlen : (p.drop 8).length = 8 * 512 * tableGranules c.columns) (hk : badColumn (p.drop 8) c.columns = none) :
    loadTable s q p = reply stOk { s with cfg := { s.cfg with staged := tput s.cfg.staged (settingKey 0x0804 (fld p 0 1)) (p.drop 8) } } := by
  simp only [loadTable, hb, hi, hl, hn, hz, hc, hlen, hk, bne_self_eq_false, Bool.false_eq_true, ↓reduceIte, decide_true, Bool.and_true,
    Bool.not_true]

/-- A cut list that is empty, or that passes R257, is staged. -/
theorem graphLoad_sound {s : State} {q : Req} {p : Bytes} (hb : clocheBusy s = false) (hi : reqIndirect q.flags = true)
    (hl : 8 ≤ p.length) (hn : fld p 0 1 < 64) (hz : zeroRange p 1 7 = true) (hc : p.drop 8 = [] ∨ ∃ c, readCut (p.drop 8) = .ok c) :
    graphLoad s q p = reply stOk { s with cfg := { s.cfg with staged := tput s.cfg.staged (settingKey 0x0900 (fld p 0 1)) (p.drop 8) } } := by
  obtain hc | ⟨c, hc⟩ := hc
  · simp [graphLoad, hb, hi, hl, hn, hz, hc]
  · cases he : (p.drop 8).isEmpty <;> simp [graphLoad, hb, hi, hl, hn, hz, hc, he]

/-- Settles O18: `loadTable_sound` and `graphLoad_sound`. -/
theorem loadsStage : Obligations.LoadsStage := by
  unfold Obligations.LoadsStage
  refine ⟨acts_of rfl (fun _ _ => rfl) ?table, acts_of rfl (fun _ _ => rfl) ?cut⟩
  case table =>
    rintro s q p ⟨hb, hi, hl, hn, hz, c, hc, hlen, hk⟩
    exact loadTable_sound hb hi hl hn hz hc hlen hk
  case cut =>
    rintro s q p ⟨hb, hi, hl, hn, hz, hc⟩
    exact graphLoad_sound hb hi hl hn hz (hc.imp_right fun ⟨c, hc, _⟩ => ⟨c, hc⟩)

/-! Queries (R38 and on) -/

/-- A query without a check of its own answers in every state. -/
theorem answers_always {mk : HostIo → Instr} {c : CmdSpec} {answer : State → Bytes → Bytes} (hd : codeDefined c.code = true)
    (he : ∀ io s, exec (mk io) s = done (serve c io (query (fun _ _ => none) answer) s)) : Answers mk c (fun _ _ _ => True) answer :=
  answers_query hd he (fun _ _ _ _ => rfl)

/-- A query of one numbered object checks its number and that the rest of its payload is zero. -/
theorem answers_numbered {mk : HostIo → Instr} {c : CmdSpec} {n : Nat} {answer : State → Bytes → Bytes} (hd : codeDefined c.code = true)
    (he : ∀ io s, exec (mk io) s = done (serve c io (query (fun _ p => orBadArg (decide (fld p 0 1 < n) && zeroRange p 1 7)) answer) s)) :
    Answers mk c (fun _ _ p => fld p 0 1 < n ∧ zeroRange p 1 7 = true) answer :=
  answers_query hd he (fun _ _ _ ⟨hn, hz⟩ => orBadArg_true (by simp [hn, hz]))

/-- A command whose own work is OK with an answer and the state as it was is a query. -/
theorem answers_of {mk : HostIo → Instr} {c : CmdSpec} {own : State → Req → Bytes → Reply} {ok : State → Req → Bytes → Prop}
    {answer : State → Bytes → Bytes} (hd : codeDefined c.code = true) (he : ∀ io s, exec (mk io) s = done (serve c io own s))
    (ho : ∀ s q p, ok s q p → own s q p = replyOk (answer s p) s) : Answers mk c ok answer :=
  performs_of hd he ho

/-- Settles O19: most are queries of one number or of none; the image, the log and the module's bytes have checks of their own. -/
theorem frontEndQueriesAnswer : Obligations.FrontEndQueriesAnswer := by
  unfold Obligations.FrontEndQueriesAnswer
  refine ⟨answers_always rfl (fun _ _ => rfl), answers_always rfl (fun _ _ => rfl), answers_of rfl (fun _ _ => rfl) ?image,
    answers_always rfl (fun _ _ => rfl), answers_numbered rfl (fun _ _ => rfl), answers_numbered rfl (fun _ _ => rfl),
    answers_numbered rfl (fun _ _ => rfl), answers_query rfl (fun _ _ => rfl) ?log, answers_numbered rfl (fun _ _ => rfl),
    answers_numbered rfl (fun _ _ => rfl), answers_numbered rfl (fun _ _ => rfl), fun data => answers_of rfl (fun _ _ => rfl) ?module⟩
  case image =>
    rintro s q p ⟨hi, hn, hz⟩
    simp [readImage, hi, hn, hz]
  case log =>
    rintro s q p ⟨hu, hlo, hhi, hz1, hz4⟩
    apply orBadArg_true
    simp [fieldsOk_cons, fieldsOk_nil, hz1, hz4]
    omega
  case module =>
    intro s q p h
    simp only [h]

/-- GRAPH.GET_HEADROOM of a defined image answers what the commit would report, and its payload. -/
theorem headroom_defined {s : State} {q : Req} {p : Bytes} (hw : fld p 0 1 < 2) (hz : zeroRange p 1 7 = true) :
    headroom s q p = ⟨if fld p 0 1 = 0 then stOk else match (admitGraphs s (nextImage s)).fail with | some e => e.2 | none => stOk,
      (headroom s q p).payload, 0, s⟩ := by
  unfold headroom
  by_cases h0 : fld p 0 1 = 0
  · simp [h0, hz]
  · simp [h0, hz, hw] <;> rfl

/-- Settles O20: queries of one number or of none, and those that name an image besides. -/
theorem pipelineQueriesAnswer : Obligations.PipelineQueriesAnswer := by
  unfold Obligations.PipelineQueriesAnswer
  refine ⟨answers_numbered rfl (fun _ _ => rfl), answers_numbered rfl (fun _ _ => rfl), answers_always rfl (fun _ _ => rfl),
    answers_numbered rfl (fun _ _ => rfl), answers_of rfl (fun _ _ => rfl) ?table, answers_numbered rfl (fun _ _ => rfl),
    fun st => performs_of rfl (fun _ _ => rfl) ?headroom, answers_always rfl (fun _ _ => rfl), answers_always rfl (fun _ _ => rfl),
    answers_of rfl (fun _ _ => rfl) ?cut, answers_always rfl (fun _ _ => rfl), answers_query rfl (fun _ _ => rfl) (fun _ _ _ h => h)⟩
  case table =>
    rintro s q p ⟨hi, hn, hw, hz, hs⟩
    have hf : fieldsOk p [⟨0, 1, 0, 127, false⟩, ⟨1, 1, 0, 1, false⟩] [(2, 6)] = true := by
      simp [fieldsOk_cons, fieldsOk_nil, hz]
      omega
    simp [readTable, hi, hf, hs]
  case headroom =>
    rintro s q p ⟨hw, hz, rfl⟩
    exact headroom_defined hw hz
  case cut =>
    rintro s q p ⟨hi, hg, hw, hz⟩
    simp [readCutList, hi, hg, hw, hz]

/-- Settles O21: queries of one number or of none, those that need a role in the trellis, and the log's. -/
theorem backEndQueriesAnswer : Obligations.BackEndQueriesAnswer := by
  unfold Obligations.BackEndQueriesAnswer
  refine ⟨answers_query rfl (fun _ _ => rfl) ?furrow, fun regs => answers_numbered rfl (fun _ _ => rfl), answers_always rfl (fun _ _ => rfl),
    fun k => answers_of rfl (fun _ _ => rfl) ?member, answers_of rfl (fun _ _ => rfl) ?digests, answers_always rfl (fun _ _ => rfl),
    fun k => answers_of rfl (fun _ _ => rfl) ?target, answers_of rfl (fun _ _ => rfl) ?device, fun k => answers_of rfl (fun _ _ => rfl) ?trims,
    answers_of rfl (fun _ _ => rfl) ?events⟩
  case furrow =>
    rintro s q p ⟨hn, hz, hst⟩
    have hst : (furrowOf s (fld p 0 2)).st = fsFree ∨ (furrowOf s (fld p 0 2)).st = fsReady ∨ (furrowOf s (fld p 0 2)).st = fsRunning
        ∨ (furrowOf s (fld p 0 2)).st = fsStandby ∨ (furrowOf s (fld p 0 2)).st = fsFault := by
      simp only [fsFree, fsReady, fsRunning, fsStandby, fsFault] at hst ⊢
      omega
    simp [furrowCheck, hn, hz, hst]
  case member =>
    rintro s q p ⟨hz, hr, hk⟩
    simp [hz, hr, hk]
  case digests =>
    rintro s q p ⟨hi, hr⟩
    simp [getDigests, hi, hr]
  case target =>
    rintro s q p ⟨hz, hd, hk⟩
    simp [hz, hd, hk]
  case device =>
    rintro s q p ⟨hz, hd⟩
    simp [hz, hd]
  case trims =>
    rintro s q p ⟨hz, hk⟩
    simp [hz, hk]
  case events =>
    rintro s q p ⟨hlo, hhi, hz, hg⟩
    simp [readEvents, hlo, hhi, hz, hg]

end Sys2Proof.Machine

/-! Proofs about the direct commands of the mailbox and the commit, of positions and triggers, and of the time views. -/

namespace Sys2Proof.Machine

/-! The mailbox and the commit -/

/-- CFG.COMMIT of a sound image arms the commit where it asks for a position that lies ahead, or for none. -/
theorem cfgCommit_arms {s : State} {q : Req} {p : Bytes} (hargs : commitArgs s p = true) (hc : s.cfg.commit = none)
    (ht : (feature s 3 && formed s) = false) (hg : fld p 16 4 = s.cfg.generation) (hs : s.cfg.staged ≠ []) (hv : validate false s = none)
    (hpos : fld p 0 1 = 2 → leastPosition s.pos.sp.pos (spinSpeed s) (stageTime s + 100) ≤ sfld p 8 8 ∧ s.trig.high < sfld p 8 8) :
    let pc := commitPosition s p (leastPosition s.pos.sp.pos (spinSpeed s) (stageTime s + 100))
    cfgCommit s q p = replyOk (leBytes 4 (nextGeneration s.cfg.generation) ++ leBytes 4 (stageTime s)
      ++ (match pc with | some v => leInt 8 v | none => leBytes 8 (2 ^ 63)) ++ sha256 (stagedCanon s))
      (armCommit (fld p 0 1) pc (stageTime s) false none s) := by
  have hahead : (decide (fld p 0 1 = 2) && (decide (sfld p 8 8 < leastPosition s.pos.sp.pos (spinSpeed s) (stageTime s + 100))
      || decide (sfld p 8 8 ≤ s.trig.high))) = false := by
    simp only [Bool.and_eq_false_imp, decide_eq_true_eq, Bool.or_eq_false_iff, decide_eq_false_iff_not]
    intro h
    have := hpos h
    omega
  simp [cfgCommit, hargs, hc, ht, hg, hs, hv, hahead] <;> rfl

/-- CFG.CANCEL disarms a commit that is not applied yet; of a trellis commit it keeps the position. -/
theorem cfgCancel_disarms {s : State} {q : Req} {p : Bytes} {c : CommitRec} (hc : s.cfg.commit = some c) (ha : c.applying = false) :
    cfgCancel s q p = reply stOk (match c.trellis, c.pc with
      | some id, some pc => setTrel { (disarm s).trel with cancelled := some (id, pc) } (disarm s)
      | _, _ => disarm s) := by
  simp only [cfgCancel, hc, ha, Bool.false_eq_true, ↓reduceIte] <;> rfl

/-- SYS.TICKET_STATUS of a ticket of the function. -/
theorem ticketStatus_own {s : State} {q : Req} {p : Bytes} {t : Ticket} (hz : zeroRange p 4 4 = true)
    (ht : tfind s.mbx.tickets (fld p 0 4) = some t) (hf : t.fn = q.fn) :
    ticketStatus s q p = replyOk (if t.done then leBytes 2 t.command ++ leBytes 2 t.status ++ leBytes 4 t.resultLen ++ t.result
        else leBytes 2 t.command ++ leBytes 2 stInProgress ++ leBytes 4 0)
      (if t.done then { s with mbx := { s.mbx with tickets := tdel s.mbx.tickets (fld p 0 4) } } else s) := by
  cases hd : t.done <;> simp [ticketStatus, hz, ht, hf, hd]

/-- Settles O22: the mailbox's own commands by their definitions, those of the commit by `cfgCommit_arms` and `cfgCancel_disarms`. -/
theorem mailboxAndCommitCommandsAct : Obligations.MailboxAndCommitCommandsAct := by
  unfold Obligations.MailboxAndCommitCommandsAct
  refine ⟨performs_of rfl (fun _ _ => rfl) (fun _ _ _ _ => rfl), performs_of rfl (fun _ _ => rfl) ?lock, performs_of rfl (fun _ _ => rfl) ?again,
    fun t => performs_of rfl (fun _ _ => rfl) ?ticket, fun pc => performs_of rfl (fun _ _ => rfl) ?commit,
    fun c => acts_of rfl (fun _ _ => rfl) ?cancel, acts_of rfl (fun _ _ => rfl) ?discard, performs_of rfl (fun _ _ => rfl) (fun _ _ _ _ => rfl)⟩
  case lock =>
    rintro s q p ⟨hl, hb⟩
    simp [setFeatures, hl, hb, featureReply]
  case again =>
    rintro s q p ⟨hl, hm⟩
    simp [setFeatures, hl, hm, featureReply, b2n]
  case ticket =>
    rintro s q p ⟨hz, ht, hf⟩
    exact ticketStatus_own hz ht hf
  case commit =>
    rintro s q p ⟨hargs, hc, ht, hg, hs, hv, rfl, hpos⟩
    exact cfgCommit_arms hargs hc ht hg hs hv hpos
  case cancel =>
    rintro s q p ⟨hc, ha⟩
    exact cfgCancel_disarms hc ha
  case discard =>
    intro s q p hb
    simp [cfgDiscard, hb]

/-! Positions and triggers -/

/-- The queue of an enabled unit takes a new value ahead of H while it has room. -/
theorem queueAdd_ahead {b : Bool} {s : State} {q : Req} {p : Bytes} (ha : unitArgOk p = true) (he : (unitSet s (fld p 0 1)).enable = true)
    (hv : s.trig.high < sfld p 8 8) (hn : (trigUnit s (fld p 0 1)).queue.contains (sfld p 8 8) = false)
    (hr : (trigUnit s (fld p 0 1)).queue.length < 16) :
    queueAdd b s q p = .inl (replyOk (queueAnswer 0 (15 - (trigUnit s (fld p 0 1)).queue.length))
      (setTrigUnit (fld p 0 1) { trigUnit s (fld p 0 1) with queue := insertAsc (sfld p 8 8) (trigUnit s (fld p 0 1)).queue } s)) := by
  simp only [queueAdd, ha, he, hn, Int.not_le.mpr hv, Nat.not_le.mpr hr, Bool.not_true, Bool.false_eq_true, ↓reduceIte]

/-- A late value of a unit that fires late is held with its request. -/
theorem queueAdd_late {b : Bool} {s : State} {q : Req} {p : Bytes} (ha : unitArgOk p = true) (he : (unitSet s (fld p 0 1)).enable = true)
    (hv : sfld p 8 8 ≤ s.trig.high) (hf : (unitSet s (fld p 0 1)).fireLate = true) :
    let t := setTrigUnit (fld p 0 1) { trigUnit s (fld p 0 1) with late := some (sfld p 8 8) } s
    queueAdd b s q p = .inr { t with
      mbx := { t.mbx with hold := some { req := q, head := 64 + fld p 0 1, since := dcNow s, respOk := b } } } := by
  simp only [queueAdd, ha, he, hv, hf, Bool.not_true, Bool.false_eq_true, ↓reduceIte]

/-- A mark ahead of H is scheduled while there is room. -/
theorem scheduleMark_ahead {a : Nat} {len : Bool} {on off : Int} {s : State} {f : Bool} (hv : s.trig.high < on)
    (hr : s.trig.marks.length < markRoom) :
    scheduleMark a len on off f 0 s = (0, setMarks (s.trig.marks ++ [⟨a, len, on, off, 0, false, none⟩]) s) := by
  have hb : decide (on ≤ s.trig.high) = false := decide_eq_false (by omega)
  simp only [scheduleMark, hb, Nat.not_le.mpr hr, Bool.false_and, Bool.false_eq_true, ↓reduceIte]

/-- Settles O24: the refusals of each command are excluded by its conditions, those of the queue and of the marks in the lemmas above. -/
theorem positionAndTriggerCommandsAct : Obligations.PositionAndTriggerCommandsAct := by
  unfold Obligations.PositionAndTriggerCommandsAct
  refine ⟨acts_of rfl (fun _ _ => rfl) ?clear, fun m => acts_of rfl (fun _ _ => rfl) ?restore, ?add, ?late,
    acts_of rfl (fun _ _ => rfl) ?cancel, performs_of rfl (fun _ _ => rfl) ?flush, acts_of rfl (fun _ _ => rfl) ?mark⟩
  case clear =>
    rintro s q p ⟨hz, hc | ⟨hc, hm⟩⟩
    · simp [clearFlags, hz, hc]
    · have h255 : fld p 0 1 ≠ 255 := by omega
      simp [clearFlags, hz, hc, h255, Nat.not_le.mpr hm]
  case restore =>
    rintro s q p ⟨hm, ha, hf, hw, ht⟩
    simp [restoreMaster, hm, ha, hf, hw, ht]
  case add =>
    rintro io q rest p s h ⟨ha, he, hv, hn, hr⟩ hreach
    change done (serveOrHold _ io (queueAdd io.respOk) s) = _
    rw [serveOrHold_own rfl h, queueAdd_ahead ha he hv hn hr]
    exact congrArg (fun t => Host.Outcome.next (syncFault t)) (complete_answered hreach)
  case late =>
    intro io q rest p s u h ha he hv hf
    change done (serveOrHold _ io (queueAdd io.respOk) s) = _
    rw [serveOrHold_own rfl h, queueAdd_late (s := taken rest s) ha he hv hf]
    rfl
  case cancel =>
    rintro s q p ⟨ha, he, hc⟩
    simp only [queueCancel, ha, he, hc, Bool.not_true, Bool.false_eq_true, ↓reduceIte]
  case flush =>
    rintro s q p ⟨ha, he⟩
    simp only [queueFlush, ha, he, Bool.not_true, Bool.false_eq_true, ↓reduceIte]
    rfl
  case mark =>
    rintro s q p ⟨ha, hd, hz, hl, hv, hr⟩
    have hf : fieldsOk p [⟨0, 1, 0, 15, false⟩, ⟨1, 1, 0, 1, false⟩] [(2, 6)] = true := by
      simp [fieldsOk_cons, fieldsOk_nil, hz]
      omega
    cases hlen : (actCfg (posImage s) (fld p 0 1)).length <;> simp [hlen] at hl <;>
      simp [markAdd, hf, hlen, hl, scheduleMark_ahead hv hr]

/-! Time views -/

/-- Settles O25: each command by its definition, with the refusals excluded by its conditions. -/
theorem timeCommandsAct : Obligations.TimeCommandsAct := by
  unfold Obligations.TimeCommandsAct
  refine ⟨acts_of rfl (fun _ _ => rfl) ?step, acts_of rfl (fun _ _ => rfl) ?feed, acts_of rfl (fun _ _ => rfl) ?select,
    acts_of rfl (fun _ _ => rfl) ?clear⟩
  case step =>
    rintro s q p ⟨hv, hz, hs, hn, hz2, hd, hsrc⟩
    have h7 : fld p 0 1 ≠ 7 := by omega
    have htime : (fld p 8 8 == 0 || decide (ticksFrom (dcNow s) (fld p 8 8) ≤ secTicks 1)) = true := by simpa using hd
    by_cases h3 : (viewSet s (fld p 0 1)).source = 3
    · simp only [stepViewCmd, hv, hz, hs, hn, hz2, h7, htime, h3]
      rfl
    · simp only [stepViewCmd, hv, hz, hs, hn, hz2, h7, htime]
      simp [h3]
  case feed =>
    rintro s q p ⟨hv, hz, hd, hs⟩
    simp [feedOffset, hv, hz, hd, hs]
  case select =>
    rintro s q p ⟨hv, hf, hz, hl, hn⟩
    have hfields : fieldsOk p [⟨0, 1, 0, 7, false⟩, ⟨1, 1, 0, 1, false⟩] [(2, 6)] = true := by
      simp [fieldsOk_cons, fieldsOk_nil, hz]
      omega
    have hlocked : (fld p 0 1 != 7 && !(view s (fld p 0 1)).locked) = false := by
      rcases hl with hl | hl <;> simp [hl]
    have hnew : (decide (fld p 0 1 = s.time.sel.view) && !bitOf (fld p 1 1) 0) = false := by
      simpa using hn
    simp [selectNow, hfields, hlocked, hnew]
  case clear =>
    rintro s q p ⟨hv, hz⟩
    simp [timeClearFlags, hv, hz]

end Sys2Proof.Machine

/-! Proofs about the direct commands of lanes, camera links and the pipeline. -/

namespace Sys2Proof.Machine

/-! Lanes -/

/-- The fields of LANE.SET_TEST (R173) are in range, and the pattern is off where the line loops back. -/
theorem setTest_fields {p : Bytes} (hl : fld p 0 1 < 64) (hloop : fld p 1 1 ≤ 3) (hgen : fld p 2 1 ≤ 8) (hchk : fld p 3 1 ≤ 8)
    (hfl : fld p 4 1 ≤ 7) (hz : zeroRange p 5 3 = true) (h3 : fld p 1 1 = 3 → fld p 2 1 = 0) :
    (fieldsOk p [⟨0, 1, 0, 63, false⟩, ⟨1, 1, 0, 3, false⟩, ⟨2, 1, 0, 8, false⟩, ⟨3, 1, 0, 8, false⟩, ⟨4, 1, 0, 7, false⟩] [(5, 3)]
      && (fld p 1 1 != 3 || fld p 2 1 == 0)) = true := by
  simp [fieldsOk_cons, fieldsOk_nil, hz]
  omega

/-- LANE.RETRAIN by the lane's state, and by whether FULL is asked of a field lane. -/
theorem retrainCmd_ok {s : State} {q : Req} {p : Bytes} (hl : fld p 0 1 < 64) (hf : fld p 1 1 < 2) (hz : zeroRange p 2 6 = true) :
    retrainCmd s q p = reply stOk (
      let l := fld p 0 1
      if (laneOf s l).st = lsFault then leaveFault l s
      else if fld p 1 1 = 1 ∧ isFieldLane l = true ∧ (laneOf s l).set.mode ≠ modeGraft then
        bump 2 (l * 16 + 10) (dropPort (laneOf s l).set.first (discardLaneTrim l s))
      else retrainLane l s) := by
  have hbit : bitOf (fld p 1 1) 0 = decide (fld p 1 1 = 1) := by
    obtain h | h : fld p 1 1 = 0 ∨ fld p 1 1 = 1 := by omega
    all_goals simp [h, bitOf]
  simp only [retrainCmd, hl, hf, hz, hbit]
  by_cases h1 : (laneOf s (fld p 0 1)).st = lsFault
  · simp [h1]
  · by_cases h2 : fld p 1 1 = 1 ∧ isFieldLane (fld p 0 1) = true ∧ (laneOf s (fld p 0 1)).set.mode ≠ modeGraft
    · simp [h1, h2]
    · simp [h1, h2, and_assoc]

/-- Settles O26: each command by its definition, with the fields of a test in their ranges by the lemma above. -/
theorem laneCommandsAct : Obligations.LaneCommandsAct := by
  unfold Obligations.LaneCommandsAct
  refine ⟨fun m => performs_of rfl (fun _ _ => rfl) ?status, fun now => performs_of rfl (fun _ _ => rfl) ?eq, acts_of rfl (fun _ _ => rfl) ?retrain,
    fun errors => performs_of rfl (fun _ _ => rfl) ?slip, fun errors ps => acts_of rfl (fun _ _ => rfl) ?lock,
    fun test => ⟨acts_of rfl (fun _ _ => rfl) ?enters, acts_of rfl (fun _ _ => rfl) ?changes, acts_of rfl (fun _ _ => rfl) ?ends⟩,
    fun bits errors => performs_of rfl (fun _ _ => rfl) ?counts, acts_of rfl (fun _ _ => rfl) ?flags⟩
  case status =>
    intro s q p h
    simp only [h, ↓reduceIte]
    rfl
  case eq =>
    intro s q p h
    simp only [h, ↓reduceIte]
    rfl
  case retrain =>
    rintro s q p ⟨hl, hf, hz⟩
    exact retrainCmd_ok hl hf hz
  case slip =>
    rintro s q p ⟨hl, hz, hs, hm⟩
    simp [hl, hz, hs, hm, replyOk]
  case lock =>
    rintro s q p ⟨ha, hm, he, hen⟩
    simp [ha, hm, hen, Nat.not_le.mpr he]
  case enters =>
    rintro s q p ⟨⟨⟨hl, hloop, hgen, hchk, hfl, hz, h3⟩, hb, hn, hpg, hpc, rfl⟩, ht, hr, hforce, hgroup⟩
    have hn : (fld p 1 1 == 0 && fld p 2 1 == 0 && fld p 3 1 == 0) = false := by simpa using hn
    have hopen : (!bitOf (fld p 4 1) 0 && (graftUp s (laneOf s (fld p 0 1)).set.first && (laneOf s (fld p 0 1)).set.mode == modeGraft
        || (!(laneOf s (fld p 0 1)).set.mode == modeGraft && portCarriesHead s (laneOf s (fld p 0 1)).set.first))) = false := by
      rcases hforce with hforce | hforce
      · simp [hforce]
      · by_cases hm : (laneOf s (fld p 0 1)).set.mode = modeGraft <;> simp [hm] at hforce ⊢ <;> simp [hforce]
    have hlast : (((laneOf s (fld p 0 1)).set.mode == modeGraft && graftUp s (laneOf s (fld p 0 1)).set.first
        && bitOf (graftOf s (laneOf s (fld p 0 1)).set.first).txMap (fld p 0 1 - (laneOf s (fld p 0 1)).set.first))
        && decide (activeLanes (graftOf s (laneOf s (fld p 0 1)).set.first).txMap ≤ 1)) = false := by
      rw [Bool.and_eq_false_imp, decide_eq_false_iff_not]
      exact fun h => Nat.not_le.mpr (hgroup h)
    simp only [setTest, setTest_fields hl hloop hgen hchk hfl hz h3, hb, hn, hpg, hpc, ht, hr, hopen, hlast]
    simp
  case changes =>
    rintro s q p ⟨⟨⟨hl, hloop, hgen, hchk, hfl, hz, h3⟩, hb, hn, hpg, hpc, rfl⟩, ht⟩
    have hn : (fld p 1 1 == 0 && fld p 2 1 == 0 && fld p 3 1 == 0) = false := by simpa using hn
    simp only [setTest, setTest_fields hl hloop hgen hchk hfl hz h3, hb, hn, hpg, hpc, ht]
    rfl
  case ends =>
    rintro s q p ⟨⟨hl, hloop, hgen, hchk, hfl, hz, h3⟩, hb, h1, h2, h3'⟩
    have hoff : (fld p 1 1 == 0 && fld p 2 1 == 0 && fld p 3 1 == 0) = true := by simp [h1, h2, h3']
    simp only [setTest, setTest_fields hl hloop hgen hchk hfl hz h3, hb, hoff]
    rfl
  case counts =>
    intro s q p h
    simp only [h]
    rfl
  case flags =>
    rintro s q p ⟨hl, hz, hm⟩
    simp [hl, hz, hm]

/-! Camera links -/

/-- Settles O27: what is held or issued under a ticket goes through the laws of `serveOrHold` and `issueTicket`. -/
theorem cameraCommandsAct : Obligations.CameraCommandsAct := by
  unfold Obligations.CameraCommandsAct
  refine ⟨holds_of rfl (fun _ _ => rfl) ?gvcp, holds_of rfl (fun _ _ => rfl) ?cxp, issues_of rfl (fun _ _ => rfl) ?discover,
    fun origin step => performs_of rfl (fun _ _ => rfl) ?schedule, fun h => acts_of rfl (fun _ _ => rfl) ?cancel,
    acts_of rfl (fun _ _ => rfl) ?write⟩
  case gvcp =>
    rintro s q p ⟨hl, hh, hf, hn, h4, hz, hp, ha, hr, hc, hw⟩
    have ha' : (!bitOf (fld p 1 1) 0 || (headSet s (fld p 0 1)).alt.isSome) = true := by
      cases hb : bitOf (fld p 1 1) 0 <;> simp [hb] at ha ⊢
      exact ha
    simp [gvcpCmd, hl, hh, hf, hn, h4, hz, hp, ha', hr, hc, hw]
  case cxp =>
    rintro s q p ⟨hh, ho, hlo, hhi, h4, hl, hp, hr⟩
    simp [cxpCmd, hh, ho, hlo, hhi, h4, hl, hp, hr, inRangeIf]
  case discover =>
    rintro s q p ⟨hz, hp⟩
    simp [discoverCmd, hz, hp]
  case schedule =>
    rintro s q p ⟨hh, hn1, hn16, hps, hz, hz2, hc, hr, hg, hv, ht, hroom⟩
    have hps' := fld_lt p 2 2
    have hf : fieldsOk p [⟨0, 1, 0, 47, false⟩, ⟨1, 1, 1, 16, false⟩, ⟨2, 2, 1, 65535, false⟩]
        [(5, 3), (16 + 8 * fld p 1 1, 128 - 8 * fld p 1 1)] = true := by
      simp [fieldsOk_cons, fieldsOk_nil, hz, hz2]
      omega
    have hc' : (decide (fld p 4 1 < 16) || fld p 4 1 == 0xFF) = true := by simpa using hc
    simp only [scheduleParam, hf, hc', hr, hg, Int.not_le.mpr hv, ht, Nat.not_le.mpr hroom]
    rfl
  case cancel =>
    rintro s q p ⟨hid, hz, hf⟩
    simp only [cancelParam, hid, hz, hf, decide_false, Bool.not_true, Bool.or_self, Bool.false_eq_true, ↓reduceIte]
  case write =>
    rintro s q p ⟨hl, hm, hr⟩
    simp [hl, hm, hr]

/-! The pipeline -/

/-- Settles O28: the fast and the ticketed form are told apart by the work that the operands ask for. -/
theorem pipelineCommandsAct : Obligations.PipelineCommandsAct := by
  unfold Obligations.PipelineCommandsAct
  refine ⟨performs_of rfl (fun _ _ => rfl) ?read, issues_of rfl (fun _ _ => rfl) ?readSlow, performs_of rfl (fun _ _ => rfl) ?average,
    issues_of rfl (fun _ _ => rfl) ?averageSlow, acts_of rfl (fun _ _ => rfl) ?sprint, performs_of rfl (fun _ _ => rfl) ?flush⟩
  case read =>
    rintro s q p ⟨hb, hl⟩
    simp [hb, readLinesEnd, hl]
  case readSlow =>
    intro s q p hb
    simp [hb]
  case average =>
    rintro s q p ⟨hi, hn, hlo, hhi, hz, hp, ha⟩
    have hf : fieldsOk p [⟨0, 1, 0, 127, false⟩, ⟨4, 4, 1, 65536, false⟩] [(1, 3)] = true := by
      simp [fieldsOk_cons, fieldsOk_nil, hz]
      omega
    simp [hi, hf, hp, ha]
  case averageSlow =>
    rintro s q p ⟨hi, hn, hlo, hhi, hz, hp⟩
    have hf : fieldsOk p [⟨0, 1, 0, 127, false⟩, ⟨4, 4, 1, 65536, false⟩] [(1, 3)] = true := by
      simp [fieldsOk_cons, fieldsOk_nil, hz]
      omega
    simp [hi, hf, hp]
  case sprint =>
    rintro s q p ⟨hms, hz, hmode, hbar⟩
    by_cases h0 : fld p 0 4 = 0
    · simp [sprintNow, hz, hmode, h0]
    · have hfree : (if s.fab.sprint.on then none else sprintBar s) = none := by
        rcases hbar h0 with h | h <;> simp [h]
      simp [sprintNow, hms, hz, hmode, h0, hfree]
  case flush =>
    intro s q p h
    simp only [rgnFlush, h]
    rfl

end Sys2Proof.Machine

/-! Proofs about the commands of furrows, of the trellis, of starts and firmware, and of calibration and diagnostics. -/

namespace Sys2Proof.Machine

/-! Furrows -/

/-- A free furrow is created for the function that asks. -/
theorem furrowCreate_free {s : State} {q : Req} {p : Bytes} (hn : fld p 0 2 < 32768) (ht1 : 1 ≤ fld p 2 1) (ht8 : fld p 2 1 ≤ 8)
    (hp : fld p 0x0E 1 ≤ 1) (hpt : fld p 0x0E 1 = 1 → fld p 2 1 ≤ 6) (hz : zeroRange p 0x0F 1 = true)
    (hf : if fld p 0x0E 1 = 1 then 1 ≤ fld p 0x14 2 ∧ fld p 0x14 2 ≤ 10000 else fld p 0x14 2 = 0) (hspill : fld p 0x16 2 ≤ 4096)
    (hslot : if fnIsPf q.fn = true then fld p 0x18 2 = 0 else fld p 0x18 2 < 256 ∧ (ownFurrows q.fn s).length < 256
      ∧ (ownFurrows q.fn s).any (fun e => e.2.vfSlot == fld p 0x18 2) = false)
    (hz2 : zeroRange p 0x1A 6 = true) (hst : (furrowOf s (fld p 0 2)).st = fsFree) (hsz4 : 4 ≤ fld p 3 1) (hsz16 : fld p 3 1 ≤ 16)
    (hring : fld p 4 8 % 64 = 0) (hvec : fld p 0x0C 2 = 0xFFFF ∨ fld p 0x0C 2 < vectorCount q.fn) :
    furrowCreate s q p = reply stOk (setFurrow (fld p 0 2)
      { st := fsReady, type := fld p 2 1, owner := q.fn, sizeLog := fld p 3 1, ring := fld p 4 8, vector := fld p 0x0C 2
        pack := fld p 0x0E 1 == 1, irqCount := fld p 0x10 2, irqTime := fld p 0x12 2, flushUs := fld p 0x14 2
        spillMib := fld p 0x16 2, vfSlot := fld p 0x18 2 } s) := by
  rw [furrowCreate, if_neg ?args, if_neg ?taken, if_neg ?ring, if_neg ?vector]
  case args =>
    have hslot' : (if fnIsPf q.fn = true then fld p 0x18 2 == 0 else decide (fld p 0x18 2 < 256)) = true := by
      cases hpf : fnIsPf q.fn <;> simp [hpf] at hslot ⊢ <;> simp [hslot]
    by_cases hpack : fld p 0x0E 1 = 1
    · simp only [hpack, ↓reduceIte] at hf
      simp [hn, ht1, ht8, hz, hspill, hz2, hslot', hpack, hpt hpack, hf]
    · simp only [hpack, ↓reduceIte] at hf
      simp [hn, ht1, ht8, hp, hz, hspill, hz2, hslot', hpack, hf]
  case taken =>
    cases hpf : fnIsPf q.fn
    · simp only [hpf, Bool.false_eq_true, ↓reduceIte, ownFurrows] at hslot
      simp [hst, hslot]
    · simp [hst]
  case ring =>
    have hlen : fnIsPf q.fn = true ∨ (ownFurrows q.fn s).length < 256 := by
      cases hpf : fnIsPf q.fn <;> simp [hpf] at hslot ⊢
      exact hslot.2.1
    rw [ownFurrows] at hlen
    rcases hlen with hlen | hlen
    · simp [Nat.not_lt.mpr hsz4, Nat.not_lt.mpr hsz16, hring, hlen]
    · simp [Nat.not_lt.mpr hsz4, Nat.not_lt.mpr hsz16, hring, Nat.not_le.mpr hlen]
  case vector =>
    rcases hvec with hv | hv
    · simp [hv]
    · simp [Nat.not_le.mpr hv]

/-- Settles O29: each command by its definition, with the refusals excluded by the furrow's state and its function. -/
theorem furrowCommandsAct : Obligations.FurrowCommandsAct := by
  unfold Obligations.FurrowCommandsAct
  refine ⟨acts_of rfl (fun _ _ => rfl) ?create, acts_of rfl (fun _ _ => rfl) ?start, fun rest => acts_of rfl (fun _ _ => rfl) ?stop,
    acts_of rfl (fun _ _ => rfl) ?destroy, acts_of rfl (fun _ _ => rfl) ?pair, acts_of rfl (fun _ _ => rfl) ?unpair,
    acts_of rfl (fun _ _ => rfl) ?switch⟩
  case create =>
    rintro s q p ⟨hn, ht1, ht8, hp, hpt, hz, hf, hspill, hslot, hz2, hst, hsz4, hsz16, hring, hvec⟩
    exact furrowCreate_free hn ht1 ht8 hp hpt hz hf hspill hslot hz2 hst hsz4 hsz16 hring hvec
  case start =>
    intro s q p h
    simp only [furrowStart, h]
  case stop =>
    intro s q p h
    simp only [furrowStop, h]
  case destroy =>
    intro s q p h
    simp only [furrowDestroy, h]
  case pair =>
    rintro s q p ⟨ha, hb, hz, hx, hy, hp, hport, htype⟩
    have hne : fld p 2 2 ≠ 0xFFFF := by omega
    simp [furrowPair, ha, hb, hz, hx, hy, hp, hport, htype, hne]
  case unpair =>
    rintro s q p ⟨ha, hb, hz, hx, hp⟩
    simp [furrowPair, ha, hb, hz, hx, hp]
  case switch =>
    rintro s q p ⟨h, hp⟩
    simp only [furrowSwitch, h, hp, ↓reduceIte]

/-! The trellis -/

/-- A command of the trellis that has a coordinator's or a master's role passes the check of its role. -/
theorem needsRole_none {holds : State → Bool} {s : State} (h0 : s.trel.st ≠ tsAlone) (h1 : s.trel.st ≠ tsJoining) (h : holds s = true) :
    needsRole holds s = none := by
  simp [needsRole, h0, h1, h]

/-- Settles O30: the role that a command needs passes, and the rest is its definition. -/
theorem trellisCommandsAct : Obligations.TrellisCommandsAct := by
  unfold Obligations.TrellisCommandsAct
  refine ⟨acts_of rfl (fun _ _ => rfl) ?identity, issues_of rfl (fun _ _ => rfl) ?commit, fun t => acts_of rfl (fun _ _ => rfl) ?abort,
    fun k estate => issues_of rfl (fun _ _ => rfl) ?resync, acts_of rfl (fun _ _ => rfl) ?handover, acts_of rfl (fun _ _ => rfl) ?reattach,
    acts_of rfl (fun _ _ => rfl) ?expected⟩
  case identity =>
    rintro s q p ⟨hi, hf⟩
    simp [setIdentity, hi, hf]
  case commit =>
    rintro s q p ⟨hb, hz, hs, hc⟩
    have hargs : ((fld p 0 1 == 0 || fld p 0 1 == 2) && decide (fld p 1 1 ≤ 1) && zeroRange p 2 6
        && (fld p 0 1 == 2 || zeroRange p 8 8)) = true := by
      rcases hb with hb | ⟨hb, hz8⟩ <;> rcases hs with ⟨hs, -⟩ | ⟨hs, -⟩ <;> simp [*]
    have hrole : needsRole (fun s => s.trel.st == (if fld p 1 1 = 1 then tsManager else tsMaster)) s = none := by
      rcases hs with ⟨hs, hm⟩ | ⟨hs, hm⟩
      · exact needsRole_none (by rw [hm]; decide) (by rw [hm]; decide) (by simp [hs, hm])
      · exact needsRole_none (by rw [hm]; decide) (by rw [hm]; decide) (by simp [hs, hm])
    simp only [trelCommit, hargs, hrole, hc]
    rfl
  case abort =>
    rintro s q p ⟨hr, hc, ht⟩
    simp only [trelAbort, hr, hc, ht, Bool.false_eq_true, ↓reduceIte]
  case resync =>
    rintro s q p ⟨hz, hr, hk, hc, hd, rfl⟩
    have hd : (if (s.trel.st == tsMaster && k == ownId s) = true then s.trel.diverged else (memberOf s k).diverged) = true := by
      simpa using hd
    simp only [trelResync, hz, hr, hk, hc, hd]
    rfl
  case handover =>
    rintro s q p ⟨hz, hr, hown, hring, hlost, hstrap, hreach⟩
    have hok : (fld p 0 1 != ownId s && bitOf s.trel.ring (fld p 0 1) && !(memberOf s (fld p 0 1)).lost
        && ((memberOf s (fld p 0 1)).strap == 1 || (memberOf s (fld p 0 1)).strap == 2)
        && (reachable s 0 (fld p 0 1) || reachable s 1 (fld p 0 1)) && true) = true := by
      simp [hown, hring, hlost, hstrap, hreach]
    simp only [trelHandover, hz, hr, hok, Bool.not_true, Bool.false_eq_true, ↓reduceIte]
  case reattach =>
    rintro s q p ⟨hr, hd⟩
    simp only [trelReattach, hr, hd, ↓reduceIte]
  case expected =>
    rintro s q p ⟨hs, hn, hz, hz2, hr⟩
    simp [setExpected, hs, hn, hz, hz2, hr]

/-! Starts and firmware -/

/-- Settles O31: each start falls due by its definition, once the refusals are excluded. -/
theorem startCommandsAct : Obligations.StartCommandsAct := by
  unfold Obligations.StartCommandsAct
  refine ⟨acts_of rfl (fun _ _ => rfl) ?restart, fun k => issues_of rfl (fun _ _ => rfl) ?write, acts_of rfl (fun _ _ => rfl) ?activate,
    fun n => acts_of rfl (fun _ _ => rfl) ?confirm, acts_of rfl (fun _ _ => rfl) ?recover⟩
  case restart =>
    rintro s q p ⟨hk, hz, -, -, hc⟩
    by_cases h0 : fld p 0 1 = 0
    · simp [sysRestart, hz, h0]
    · simp [sysRestart, hk, hz, h0, hc h0]
  case write =>
    rintro s q p ⟨hw, hi, hl, hn, hz, ht, hr, hreason, hlen⟩
    have hshape : (reqIndirect q.flags && decide (520 ≤ p.length) && (decide (fld p 0 1 ≤ 1) || fld p 0 1 == 0xFF) && zeroRange p 1 7)
        = true := by
      simp [hi, hl, hn, hz]
    simp only [fwWrite, hw, hshape, ht, hr, hreason, hlen, ne_eq, not_true_eq_false]
    rfl
  case activate =>
    rintro s q p ⟨hm, hn, hz, ht, hv, hc, hd⟩
    by_cases h0 : fld p 0 1 = 0
    · simp [fwActivate, h0, hn, hz, ht, hv, hc, hd h0]
    · simp [fwActivate, h0, hm, hn, hz, ht, hv, hc]
  case confirm =>
    rintro s q p ⟨hr, ht⟩
    simp only [fwConfirm, hr, ht]
    rfl
  case recover =>
    rintro s q p ⟨hs, hn, hz⟩
    simp [fwRecover, hs, hn, hz]

/-! Calibration and diagnostics -/

/-- A row that may hold its request, whose own work issues a ticket all the same. -/
theorem issues_of_orHold {mk : HostIo → Instr} {c : CmdSpec} {own : State → Req → Bytes → Reply ⊕ State} {ok : State → Req → Bytes → Prop}
    {args : Req → Bytes → Bytes} {start : Req → Bytes → Nat → State → State} (hd : codeDefined c.code = true)
    (he : ∀ io s, exec (mk io) s = done (serveOrHold c io own s))
    (ho : ∀ s q p, ok s q p → own s q p = .inl (issueTicket q (args q p) (start q p) s)) : Issues mk c ok args start := by
  intro io q rest p s h hk hr
  rw [he, serveOrHold_own hd h, ho _ _ _ hk]
  dsimp only
  rw [issueTicket_ok (by simpa using hr), complete_empty _ _ _ _ rfl]
  rfl

/-- Settles O32: what is issued under a ticket has room for it, and an injection is one branch of its kind. -/
theorem calibrationAndDiagnosticCommandsAct : Obligations.CalibrationAndDiagnosticCommandsAct := by
  unfold Obligations.CalibrationAndDiagnosticCommandsAct
  refine ⟨fun k => issues_of rfl (fun _ _ => rfl) ?run, fun k => issues_of rfl (fun _ _ => rfl) ?wait, issues_of rfl (fun _ _ => rfl) ?store,
    fun k => acts_of rfl (fun _ _ => rfl) ?clear, acts_of rfl (fun _ _ => rfl) ?clearAll, issues_of_orHold rfl (fun _ _ => rfl) ?snapshot,
    fun corrected sram => performs_of rfl (fun _ _ => rfl) ?hbm, acts_of rfl (fun _ _ => rfl) ?inject⟩
  case run =>
    rintro s q p ⟨hk, hf, hz, hb, ho⟩
    have hopen : (!calBarred s k && (calOpen s k || (bitOf (fld p 2 1) 0 && calForced s k))) = true := by simpa [hb] using ho
    have hargs : (decide (fld p 2 1 ≤ 3) && zeroRange p 3 5) = true := by simp [hf, hz]
    simp only [calRun, hk, hargs, hopen]
    rfl
  case wait =>
    rintro s q p ⟨hk, hf, hz, ho, hw⟩
    have hshut : (!calBarred s k && (calOpen s k || (bitOf (fld p 2 1) 0 && calForced s k))) = false := by
      rw [Bool.eq_false_iff]
      simpa using ho
    simp only [calRun, hk, hf, hz, hshut, hw]
    rfl
  case store =>
    intro s q p h
    simp [h]
  case clear =>
    rintro s q p ⟨hz, hn, hk⟩
    simp [hz, hn, hk]
  case clearAll =>
    rintro s q p ⟨hz, hn⟩
    simp [hz, hn]
  case snapshot =>
    rintro s q p ⟨hi, hs, hr⟩
    simp [diagSnapshot, hi, hs, Nat.not_lt.mpr hr]
  case hbm =>
    intro s q p h
    rfl
  case inject =>
    rintro s q p ⟨hz, ht, -, hu, hr⟩
    simp [diagInject, hz, ht, hu, hr]

end Sys2Proof.Machine

/-! Proofs about the events of slots, tickets and commits, of positions, and of triggers and marks. -/

namespace Sys2Proof.Machine

/-! Slots, tickets and commits -/

/-- Settles O34: each condition excludes the branches before the one the statement names. -/
theorem mailboxAndCommitEventsAct : Obligations.MailboxAndCommitEventsAct := by
  unfold Obligations.MailboxAndCommitEventsAct
  refine ⟨fun fn slot => gives_of (fun _ => rfl) ?go, fun fn slot => gives_of (fun _ => rfl) ?clear,
    fun n t fin st a u => gives_of (fun _ => rfl) ?workGiven, fun n t fin st a u => gives_of (fun _ => rfl) ?workNotGiven,
    fun n t => gives_of (fun _ => rfl) ?expiry, fun c => gives_of (fun _ => rfl) ?prepared, fun x => gives_of (fun _ => rfl) ?held,
    fun c d => gives_of (fun _ => rfl) ?idleBeds, fun c => gives_of (fun _ => rfl) ?idle, gives_of (fun _ => rfl) ?lattice⟩
  case go =>
    rintro s ⟨hw, hf, hn, ho⟩
    simp [hw, hf, hn, slotGo, ho]
  case clear =>
    rintro s ⟨hw, hf, hn⟩
    simp [hw, hf, hn]
  case workGiven =>
    rintro s ⟨ht, hd, ha, hto, hw, hg⟩
    simp [ticketEnd, ht, hd, ha, hto, hw, hg]
  case workNotGiven =>
    rintro s ⟨ht, hd, ha, hto, hw, hg, hc⟩
    simp [ticketEnd, ht, hd, ha, hto, hw, hg, hc]
  case expiry =>
    rintro s ⟨ht, hd, he⟩
    simp [ht, hd, he]
  case prepared =>
    rintro s ⟨hw, hc, ha⟩
    simp [hw, hc, ha]
  case held =>
    rintro s ⟨hw, hc, hx⟩
    simp [hw, hc, hx]
  case idleBeds =>
    rintro s ⟨hc, hb, ht, ha, hp, hm, hr, hd⟩
    simp [hc, hb, ht, ha, hp, hm, hr, hd]
  case idle =>
    rintro s ⟨hc, hb, ht, ha, hp, hm, hr, hd⟩
    simp [hc, hb, ht, ha, hp, hm, hr, hd]
  case lattice =>
    rintro s ⟨ht, hk⟩
    simp [ht, hk]

/-! Encoder channels -/

/-- An accepted change of the levels goes by the channel's mode. -/
theorem encoderEdge_accepted {ch levels t : Nat} {s : State} (hf : filterPassed s (chanSet s ch).filterN t = true)
    (hc : ¬((chan s ch).a = bitOf levels 0 ∧ (chan s ch).b = bitOf levels 1 ∧ (chan s ch).z = bitOf levels 2)) :
    encoderEdge ch levels t s =
      if (chanSet s ch).mode = 1 then quadEdge ch (bitOf levels 0) (bitOf levels 1) (bitOf levels 2) t s
      else if (chanSet s ch).mode = 2 then hallEdge ch (bitOf levels 0) (bitOf levels 1) (bitOf levels 2) t s
      else modChan ch (fun x => { x with a := bitOf levels 0, b := bitOf levels 1, z := bitOf levels 2 }) s := by
  have hc' : ((chan s ch).a == bitOf levels 0 && (chan s ch).b == bitOf levels 1 && (chan s ch).z == bitOf levels 2) = false := by
    rw [Bool.eq_false_iff]
    simpa [and_assoc] using hc
  simp only [encoderEdge, hf, hc', Bool.not_true, Bool.false_eq_true, ↓reduceIte]
  split
  next h => simp [h]
  next h => simp [h]
  next h1 h2 => rw [if_neg h1, if_neg h2]

/-- Settles O35: an accepted edge goes by the channel's mode, and a frame by its shape and the count that it meets. -/
theorem channelEdgesCount : Obligations.ChannelEdgesCount := by
  unfold Obligations.ChannelEdgesCount
  refine ⟨fun ch levels t => gives_of (fun _ => rfl) ?quad, fun ch levels t => gives_of (fun _ => rfl) ?hall,
    fun ch levels t => gives_of (fun _ => rfl) ?other, fun ch => gives_of (fun _ => rfl) ?overspeed,
    fun ch startHigh endLow bits => gives_of (fun _ => rfl) ?frame, ?shape, ?first, ?far, ?step⟩
  case quad =>
    rintro s ⟨hf, hm, hc⟩
    simp [encoderEdge_accepted hf hc, hm]
  case hall =>
    rintro s ⟨hf, hm, hc⟩
    simp [encoderEdge_accepted hf hc, hm]
  case other =>
    rintro s ⟨hf, h1, h2, hc⟩
    rw [encoderEdge_accepted hf hc, if_neg h1, if_neg h2]
  case overspeed =>
    intro s h
    simp [Sys2Proof.Machine.overspeed, h]
  case frame =>
    intro s h
    simp [ssiFrame, h]
  case shape =>
    rintro ch startHigh endLow bits s (rfl | rfl) <;> simp [ssiTake]
  case first =>
    rintro ch bits v s hp rfl
    simp [ssiTake, hp]
  case far =>
    rintro ch bits v old s hp rfl hd
    simp [ssiTake, hp, hd]
  case step =>
    rintro ch bits v old d s hp rfl rfl hd
    simp [ssiTake, hp, Nat.not_lt.mpr hd]

/-! What else happens to positions -/

/-- An emulated output that lags by less than 65,536 counts emits one towards the position. -/
theorem emuCount_step {e : Nat} {s : State} (hen : (emuCfg (posImage s) e).enable = true) (hst : s.fault.stop = false)
    (hlag : (emuWanted s.pos.sp.pos (emuCfg (posImage s) e).perM - (tget {} s.pos.emus e).emitted).natAbs < 65536)
    (hne : emuWanted s.pos.sp.pos (emuCfg (posImage s) e).perM ≠ (tget {} s.pos.emus e).emitted)
    (ht : 25 ≤ since s (tget {} s.pos.emus e).lastDc) :
    let c := emuCfg (posImage s) e
    let x := tget {} s.pos.emus e
    let up := x.emitted < emuWanted s.pos.sp.pos c.perM
    let n := if up then x.emitted + 1 else x.emitted - 1
    let ph := (if up then x.phase + 1 else x.phase + 3) % 4
    emuCount e s = putEmu e c { x with
      emitted := n, phase := ph, lastDc := dcNow s
      lag := x.lag && decide (n ≠ emuWanted s.pos.sp.pos c.perM), zLevel := emuZ c n ph } s := by
  have hne' : ¬ (emuWanted s.pos.sp.pos (emuCfg (posImage s) e).perM - (tget {} s.pos.emus e).emitted = 0) := by omega
  simp only [emuCount, hen, hst, hne', Nat.not_le.mpr hlag, Nat.not_lt.mpr ht, Bool.not_true, Bool.or_self, Bool.false_eq_true, ↓reduceIte,
    Int.sub_pos]

/-- One that lags by more skips what exceeds 65,535 counts. -/
theorem emuCount_skip {e : Nat} {s : State} (hen : (emuCfg (posImage s) e).enable = true) (hst : s.fault.stop = false)
    (hlag : 65536 ≤ (emuWanted s.pos.sp.pos (emuCfg (posImage s) e).perM - (tget {} s.pos.emus e).emitted).natAbs) :
    let c := emuCfg (posImage s) e
    let x := tget {} s.pos.emus e
    let lag := emuWanted s.pos.sp.pos c.perM - x.emitted
    let excess : Int := if 0 < lag then lag - 65535 else lag + 65535
    emuCount e s = putEmu e c { x with emitted := x.emitted + excess, skip := true, lag := true } (bumpBy 4 (258 + e) excess.natAbs s) := by
  have hne : ¬ (emuWanted s.pos.sp.pos (emuCfg (posImage s) e).perM - (tget {} s.pos.emus e).emitted = 0) := by omega
  simp only [emuCount, hen, hst, hne, hlag, Bool.not_true, Bool.or_self, Bool.false_eq_true, ↓reduceIte]

/-- Settles O36: each condition decides the event's guard, and the lag of an emulated output is bounded in the lemmas above. -/
theorem positionEventsAct : Obligations.PositionEventsAct := by
  unfold Obligations.PositionEventsAct
  refine ⟨fun ch t => gives_of (fun _ => rfl) ?stuckZ, fun ch => gives_of (fun _ => rfl) ?stale, fun t => gives_of (fun _ => rfl) ?forward,
    fun t => gives_of (fun _ => rfl) ?back, gives_of (fun _ => rfl) ?speed, gives_of (fun _ => rfl) ?noSpeed,
    fun ch => gives_of (fun _ => rfl) ?flags, fun e c x => gives_of (fun _ => rfl) ?emuUp, fun e c x => gives_of (fun _ => rfl) ?emuDown,
    fun e c x => gives_of (fun _ => rfl) ?skipUp, fun e c x => gives_of (fun _ => rfl) ?skipDown,
    fun gp level tick => gives_of (fun _ => rfl) ?gp, fun gp level tick => gives_of (fun _ => rfl) ?gpPeriod,
    fun g t => gives_of (fun _ => rfl) ?gpStuck, fun f => gives_of (fun _ => rfl) ?block⟩
  case stuckZ =>
    rintro s ⟨hz, hm, hn, ht⟩
    simp [Sys2Proof.Machine.stuckZ, hz, hm, hn, ht]
  case stale =>
    rintro s ⟨hm, hn, ht⟩
    simp [Sys2Proof.Machine.stale, hm, hn, ht]
  case forward =>
    rintro s ⟨rfl, h⟩
    simp only [beq_iff_eq, Bool.or_eq_true, if_pos h]
  case back =>
    rintro s ⟨rfl, h⟩
    simp only [beq_iff_eq, Bool.or_eq_true, Bool.and_eq_true, decide_eq_true_eq, if_neg (Int.not_lt.mpr h)]
  case speed =>
    intro s h
    simp only [speedSample, Nat.not_lt.mpr h, ↓reduceIte]
  case noSpeed =>
    intro s h
    simp only [speedSample, h, ↓reduceIte]
  case flags =>
    intro s _
    simp [flagLiveExpiry, and_assoc]
  case emuUp =>
    rintro s ⟨rfl, hen, hst, rfl, hlt, hlag, ht⟩
    rw [emuCount_step hen hst (by omega) (by omega) ht]
    simp only [hlt, ↓reduceIte]
  case emuDown =>
    rintro s ⟨rfl, hen, hst, rfl, hlt, hlag, ht⟩
    rw [emuCount_step hen hst (by omega) (by omega) ht]
    simp only [Int.not_lt.mpr (Int.le_of_lt hlt), ↓reduceIte]
  case skipUp =>
    rintro s ⟨rfl, hen, hst, rfl, hlag⟩
    have hup : 0 < emuWanted s.pos.sp.pos (emuCfg (posImage s) e).perM - (tget {} s.pos.emus e).emitted := by omega
    have hto : emuWanted s.pos.sp.pos (emuCfg (posImage s) e).perM - (tget {} s.pos.emus e).emitted - 65535
        = emuWanted s.pos.sp.pos (emuCfg (posImage s) e).perM - 65535 - (tget {} s.pos.emus e).emitted := by omega
    rw [emuCount_skip hen hst (by omega)]
    simp only [hup, ↓reduceIte, hto]
    congr 2 <;> omega
  case skipDown =>
    rintro s ⟨rfl, hen, hst, rfl, hlag⟩
    have hdown : ¬ 0 < emuWanted s.pos.sp.pos (emuCfg (posImage s) e).perM - (tget {} s.pos.emus e).emitted := by omega
    rw [emuCount_skip hen hst (by omega)]
    simp only [hdown, ↓reduceIte]
    congr 2 <;> omega
  case gp =>
    rintro s ⟨hf, ht⟩
    simp [hf, ht]
  case gpPeriod =>
    rintro s ⟨hf, ht, hg, hl, hs, he⟩
    have hedge : (level == decide ((periodCfg s).source / 256 % 2 = 1)) = false := by
      cases level <;> simpa using he
    simp [hf, ht, Nat.not_le.mpr hg, hl, hs, hedge]
  case gpStuck =>
    rintro s ⟨ha, hc, hn, ht⟩
    simp [Sys2Proof.Machine.gpStuck, ha, hc, hn, ht]
  case block =>
    rintro s ⟨hf, hb⟩
    simp [spinPosLoRead, hf, hb]

/-! Triggers and marks -/

/-- Settles O37: each condition decides the event's guard. -/
theorem triggerEventsAct : Obligations.TriggerEventsAct := by
  unfold Obligations.TriggerEventsAct
  refine ⟨fun u depPs => gives_of (fun _ => rfl) ?compare, fun u depPs => gives_of (fun _ => rfl) ?late,
    fun u depPs => gives_of (fun _ => rfl) ?notLate, fun o a b rest => gives_of (fun _ => rfl) ?pulse, fun o b => gives_of (fun _ => rfl) ?pulseEnd,
    fun u v => gives_of (fun _ => rfl) ?action, fun m => gives_of (fun _ => rfl) ?assert, fun m => gives_of (fun _ => rfl) ?deassert⟩
  case compare =>
    intro s h
    simp only [compareMatch, h, ↓reduceIte]
  case late =>
    intro s h
    simp only [lateTrigger, h, ↓reduceIte]
  case notLate =>
    intro s h
    simp [lateTrigger, h]
  case pulse =>
    rintro s ⟨hs, ht, hl⟩
    simp [trgPulseStart, hs, ht, hl]
  case pulseEnd =>
    rintro s ⟨hl, he, ht⟩
    simp [trgPulseEnd, hl, he, ht]
  case action =>
    rintro s ⟨hen, hh, hsp, hp, hm, hv, hl⟩
    simp [gevActionSend, hen, hh, Int.not_lt.mpr hsp, Int.not_le.mpr hp, hm, hv, hl]
  case assert =>
    intro s h
    simp only [markAssert, h]
  case deassert =>
    intro s h
    simp only [markDeassert, h]

end Sys2Proof.Machine

/-! Proofs about the events of the time views, of PTP and of the PPS pins. -/

namespace Sys2Proof.Machine

/-! Views -/

/-- The partner whose view a qualification compares with: one that was held and is LOCKED still. -/
def judgingPartner (s : State) (v : Nat) : Option Nat :=
  if (view s v).partnerHeld then (viewSet s v).partner.filter (fun q => (view s q).locked) else none

theorem judgingPartner_none {s : State} {v : Nat}
    (h : (view s v).partnerHeld = false ∨ ∀ q, (viewSet s v).partner = some q → (view s q).locked = false) : judgingPartner s v = none := by
  unfold judgingPartner
  rcases h with h | h
  · simp [h]
  · cases hp : (viewSet s v).partner with
    | none => simp
    | some q => simp [h q hp]

theorem judgingPartner_some {s : State} {v q : Nat} (hh : (view s v).partnerHeld = true) (hp : (viewSet s v).partner = some q)
    (hl : (view s q).locked = true) : judgingPartner s v = some q := by
  simp [judgingPartner, hh, hp, hl]

/-- A qualification that no partner can judge ends with the delay accepted unverified (R134). -/
theorem qualificationEnd_unverified {v t : Nat} {s : State} (hf : (view s v).frozen = true) (hq : (view s v).qualEnd = some t)
    (ht : reached s t = true) (hp : judgingPartner s v = none) :
    qualificationEnd v s = raise 0x0307 2 v 0 0 (setView v { view (acceptPath v s) v with unverified := true } (acceptPath v s)) := by
  rw [judgingPartner] at hp
  simp only [qualificationEnd, hf, hq, ht, hp]
  rfl

/-- One that a partner judges ends by whether the delay lies within the bound (R133). -/
theorem qualificationEnd_judged {v q t : Nat} {s : State} (hf : (view s v).frozen = true) (hq : (view s v).qualEnd = some t)
    (ht : reached s t = true) (hp : judgingPartner s v = some q) :
    qualificationEnd v s =
      if (qualE s v q).abs ≤ ((viewSet s v).asymNs : Rat) then
        raise 0x0305 0 v (freeRound (qualE s v q * (1000 : Rat))) 0 (acceptPath v (draw (draw s)))
      else
        let t := setView v { view s v with
          frozen := false, suspect := true, holdover := true, locked := false, recorded := [], qualEnd := none } (draw (draw s))
        let u := if (view s v).holdover = true then t else bump 6 (512 + v * 4 + 1) t
        autoSelect v 1 (healthStep (raise 0x0306 2 v (freeRound (qualE s v q * (1000 : Rat))) 0 (bump 6 (512 + v * 4 + 3) u))) := by
  rw [judgingPartner] at hp
  simp only [qualificationEnd, hf, hq, ht, hp]
  rfl

/-- Settles O39: a qualification by its partner, in the lemmas above; the other events by their guards. -/
theorem viewEventsAct : Obligations.ViewEventsAct := by
  unfold Obligations.ViewEventsAct
  refine ⟨fun v ps => gives_of (fun _ => rfl) ?measured, fun v ps path => gives_of (fun _ => rfl) ?measuredPath,
    fun v => gives_of (fun _ => rfl) ?lost, fun t => gives_of (fun _ => rfl) ?revert, fun v t => gives_of (fun _ => rfl) ?unverified,
    fun v q t => gives_of (fun _ => rfl) ?within, fun v q t => gives_of (fun _ => rfl) ?beyond, fun v t ns => gives_of (fun _ => rfl) ?step,
    gives_of (fun _ => rfl) ?settled, fun f v => gives_of (fun _ => rfl) ?block⟩
  case measured =>
    rintro s ⟨hv, hs⟩
    simp [servoMeasurement, hv, hs]
  case measuredPath =>
    rintro s ⟨hv, hs⟩
    simp [servoMeasurement, hv, hs]
  case lost =>
    rintro s ⟨hv, hn, hl⟩
    simp [viewLost, hv, hn, hl]
  case revert =>
    rintro s ⟨hh, hr, hb, hl, hs, ht⟩
    simp [selectRevert, hh, hr, hb, hl, hs, ht]
  case unverified =>
    rintro s ⟨hf, hq, ht, hp⟩
    exact qualificationEnd_unverified hf hq ht (judgingPartner_none hp)
  case within =>
    rintro s ⟨hf, hq, ht, hh, hp, hl, he⟩
    rw [qualificationEnd_judged hf hq ht (judgingPartner_some hh hp hl), if_pos he]
  case beyond =>
    rintro s ⟨hf, hq, ht, hh, hp, hl, he⟩
    rw [qualificationEnd_judged hf hq ht (judgingPartner_some hh hp hl), if_neg he]
  case step =>
    rintro s ⟨hs, ht⟩
    simp only [viewStepApply, hs, ht, ↓reduceIte]
  case settled =>
    rintro s ⟨hs, hb⟩
    simp [biasSettled, hs, hb]
  case block =>
    rintro s ⟨hb, hv, hf⟩
    simp [viewBlockRead, hb, hv, hf]

/-! PTP and the PPS pins -/

/-- Settles O40: a message by the role of its port, an edge by its distance from the last. -/
theorem ptpAndPpsEventsAct : Obligations.PtpAndPpsEventsAct := by
  unfold Obligations.PtpAndPpsEventsAct
  refine ⟨fun port m => gives_of (fun _ => rfl) ?discard, fun port m => gives_of (fun _ => rfl) ?passed,
    fun port m c => gives_of (fun _ => rfl) ?slave, fun port m c => gives_of (fun _ => rfl) ?master, fun port => gives_of (fun _ => rfl) ?announce,
    fun port sub => gives_of (fun _ => rfl) ?oneStep, fun port sub => gives_of (fun _ => rfl) ?twoStep,
    fun port sub => gives_of (fun _ => rfl) ?delayReq, fun port e rest => gives_of (fun _ => rfl) ?entry,
    fun port => gives_of (fun _ => rfl) ?drops, fun port => gives_of (fun _ => rfl) ?overflow, fun falling sub => gives_of (fun _ => rfl) ?edge,
    fun falling sub t => gives_of (fun _ => rfl) ?glitch, fun g => gives_of (fun _ => rfl) ?gate, fun sec up => gives_of (fun _ => rfl) ?pulse⟩
  case discard =>
    rintro s (hr | ⟨hr | hr, hu⟩)
    · simp only [ptpMessage, hr]
    · simp [ptpMessage, hr, hu]
    · simp [ptpMessage, hr, hu]
  case passed =>
    intro s hr
    simp only [ptpMessage, hr]
  case slave =>
    rintro s ⟨rfl, hr, hu⟩
    simp only [ptpMessage, hr, hu, ↓reduceIte]
  case master =>
    rintro s ⟨rfl, hr, hu⟩
    simp only [ptpMessage, hr, hu, ↓reduceIte]
  case announce =>
    intro s hr
    simp [ptpMasterTransmit, hr]
  case oneStep =>
    rintro s ⟨hr, ho⟩
    simp [ptpMasterTransmit, hr, ho]
  case twoStep =>
    rintro s ⟨hr, ho⟩
    simp [ptpMasterTransmit, hr, ho]
  case delayReq =>
    intro s hr
    simp [ptpDelayReqSend, hr]
  case entry =>
    rintro s ⟨hl, he⟩
    simp [txqEntry0Read, hl, he]
  case drops =>
    intro s hl
    simp only [txqDropsRead, hl, ↓reduceIte]
  case overflow =>
    intro s hl
    simp only [txqOverflowClear, hl, ↓reduceIte]
  case edge =>
    rintro s ⟨ho, hf, ht⟩
    cases hl : s.time.ppsLast with
    | none => simp [ppsInEdge, ho, hf, hl]
    | some t => simp [ppsInEdge, ho, hf, hl, Nat.not_lt.mpr (ht t hl)]
  case glitch =>
    rintro s ⟨ho, hf, hl, ht⟩
    simp [ppsInEdge, ho, hf, hl, ht]
  case gate =>
    rintro s ⟨hc, ht⟩
    simp [clk10Gate, hc, Nat.not_lt.mpr ht]
  case pulse =>
    rintro s ⟨hm, hs, rfl, hb, hfresh, hapart, rfl⟩
    cases hsec : s.time.ppsOutSecond with
    | none =>
      cases hat : s.time.ppsOutAt with
      | none => simp only [ppsOutPulse, hm, hs, hb, hsec, hat]; rfl
      | some t => simp only [ppsOutPulse, hm, hs, hb, hsec, hat, hapart t hat]; rfl
    | some n =>
      cases hat : s.time.ppsOutAt with
      | none => simp only [ppsOutPulse, hm, hs, hb, hsec, hat, hfresh n hsec]; rfl
      | some t => simp only [ppsOutPulse, hm, hs, hb, hsec, hat, hfresh n hsec, hapart t hat]; rfl

end Sys2Proof.Machine

/-! Proofs about the events of the lanes and of the Graft link. -/

namespace Sys2Proof.Machine

/-- Settles O41: each event's guard is decided by its conditions; what is left is the effect itself. -/
theorem laneEventsAct : Obligations.LaneEventsAct := by
  unfold Obligations.LaneEventsAct
  refine ⟨fun k => gives_of (fun _ => rfl) ?refclk, fun l n i => gives_of (fun _ => rfl) ?freeze,
    fun l n => gives_of (fun _ => rfl) ?resume, fun l tap upper y => gives_of (fun _ => rfl) ?bound,
    fun l n => gives_of (fun _ => rfl) ?interval, fun l now => gives_of (fun _ => rfl) ?reanchor,
    fun l partner => gives_of (fun _ => rfl) ?autoneg, fun l present => gives_of (fun _ => rfl) ?energy,
    fun l present => gives_of (fun _ => rfl) ?off⟩
  case refclk =>
    intro s _
    rfl
  case freeze =>
    rintro s ⟨ha, hd⟩
    simp [ha, hd]
  case resume =>
    rintro s ⟨hf, hd⟩
    simp [hf, hd]
  case bound =>
    rintro s ⟨ha, hn, ht, rfl⟩
    simp [ha, hn, ht]
  case interval =>
    rintro s ⟨hn, hw, hf, ht⟩
    have hc : (((calTarget s l).due || calFallsDue s l) && !calBarred s l && calOpen s l) = false := by
      rcases hf with ⟨hd, hf⟩ | hb | ho
      · simp [hd, hf]
      · simp [hb]
      · simp [ho]
    simp [hn, hw, hc, ht]
  case reanchor =>
    rintro s ⟨hr, hu⟩
    simp [hr, hu]
  case autoneg =>
    intro s _
    congr 1
    funext t k
    simp
  case energy =>
    intro s ho
    simp [modLane, ho]
  case off =>
    intro s ho
    simp [modLane, ho]

/-- Settles O42: each condition names one branch of the event's state machine, and the other branches are excluded by the lane's mode and
state. -/
theorem trainingAndLockEventsAct : Obligations.TrainingAndLockEventsAct := by
  unfold Obligations.TrainingAndLockEventsAct
  refine ⟨fun l c st i w g => gives_of (fun _ => rfl) ?frame, fun l c st i w g => gives_of (fun _ => rfl) ?order,
    fun l now y => gives_of (fun _ => rfl) ?endField, fun l now y => gives_of (fun _ => rfl) ?endGraft,
    fun l => gives_of (fun _ => rfl) ?againField, fun l => gives_of (fun _ => rfl) ?againGraft, fun l => gives_of (fun _ => rfl) ?fails,
    fun l ps => gives_of (fun _ => rfl) ?lock, fun l ps => gives_of (fun _ => rfl) ?relock, fun l bad => gives_of (fun _ => rfl) ?lossUp,
    fun l bad => gives_of (fun _ => rfl) ?loss, fun l => gives_of (fun _ => rfl) ?checker, fun l e => gives_of (fun _ => rfl) ?resync⟩
  case frame =>
    rintro s ⟨hf, hp⟩
    simp [hf, hp]
  case order =>
    rintro s ⟨hf, hp⟩
    simp [hf, hp]
  case endField =>
    rintro s ⟨hm, ht, rfl⟩
    simp [hm, ht, lsTraining, lsRetraining]
  case endGraft =>
    rintro s ⟨hm, hf, hr, rfl⟩
    simp [hm, hf, hr]
  case againField =>
    rintro s ⟨hm, ht, hn⟩
    simp [hm, ht, Nat.not_le.mpr hn]
  case againGraft =>
    rintro s ⟨hm, hf, ht, hn⟩
    simp [hm, hf, ht, Nat.not_le.mpr hn]
  case fails =>
    rintro s ⟨hn, ⟨hm, ht⟩ | ⟨hm, hf, ht⟩⟩
    · simp [hm, ht, hn]
    · simp [hm, hf, ht, hn]
  case lock =>
    rintro s ⟨he, hm, hl, ha⟩
    simp only [he, hm, hl, ha]; rfl
  case relock =>
    rintro s ⟨he, hm, hl, hr, ht⟩
    simp only [he, hm, hl, hr]
    simp [ht, lsRetraining, lsAligning]
  case lossUp =>
    intro s hu
    simp [hu]
  case loss =>
    rintro s ⟨hl, ha⟩
    rcases ha with ha | ha
    · simp [hl, ha, lsUp, lsAligning]
    · simp [hl, ha, lsUp, lsAligning, lsRetraining]
  case checker =>
    rintro s ⟨ht, hc⟩
    simp [modLane, ht, hc]
  case resync =>
    rintro s ⟨ht, hl, h1, h2⟩
    simp [ht, hl, h1, h2]

/-- Settles O43: a flit by its CRC and its map, the other events by their guards. -/
theorem graftEventsAct : Obligations.GraftEventsAct := by
  unfold Obligations.GraftEventsAct
  refine ⟨fun first d => gives_of (fun _ => rfl) ?bad, fun first d b => gives_of (fun _ => rfl) ?sound,
    fun first => gives_of (fun _ => rfl) ?replay, fun first => gives_of (fun _ => rfl) ?markers,
    fun l first => gives_of (fun _ => rfl) ?back, fun first => gives_of (fun _ => rfl) ?fails⟩
  case bad =>
    rintro s ⟨hm, hr, hc⟩
    simp [hm, hr, hc]
  case sound =>
    rintro s ⟨hm, hr, rfl, hc, hp, hn⟩
    have hm' : ((laneOf s first).set.mode != modeGraft) = false := by simp [hm]
    have hc' : (fld (fitTo 256 d) 252 4 != crc32 ((fitTo 256 d).take 252)) = false := by simp [hc]
    simp only [hm', hr, hc', hp, hn, Bool.false_eq_true, decide_false, or_self, ↓reduceIte, Bool.false_and, Bool.or_eq_true,
      apply_ite (arrivedFlits first)] <;> rfl
  case replay =>
    rintro s ⟨hh, hf, ht⟩
    simp [hh, hf, Nat.not_lt.mpr ht]
  case markers =>
    intro s hm
    simp [hm]
  case back =>
    rintro s ⟨rfl, hm, hl, ha, hr, hf⟩
    simp [hm, hl, ha, hr, hf]
  case fails =>
    rintro s ⟨hm, hf, hg, hl⟩
    simp [hm, hf, hg, hl]

end Sys2Proof.Machine

/-! Proofs about the events of the camera links and of ingest. -/

namespace Sys2Proof.Machine

/-! Camera links -/

/-- A head whose control requests find no answer on the primary interface: the device counter is what it was. -/
@[simp] theorem dcNow_primarySilent (h : Nat) (o : CtlOut) (s : State) : dcNow (primarySilent h o s) = dcNow s := by
  unfold primarySilent
  split
  · rfl
  · simp [dcNow, modHead]

/-- Settles O44: a frame by its use, an answer by the job it ends, the other events by their guards. -/
theorem cameraEventsAct : Obligations.CameraEventsAct := by
  unfold Obligations.CameraEventsAct
  refine ⟨fun port k d => gives_of (fun _ => rfl) ?discard, fun port d r => gives_of (fun _ => rfl) ?answer,
    fun port d => gives_of (fun _ => rfl) ?handed, fun port h d body => gives_of (fun _ => rfl) ?event,
    fun bus seen => gives_of (fun _ => rfl) ?noModule, fun bus seen lanes => gives_of (fun _ => rfl) ?module,
    fun h q st ack i p ok o => gives_of (fun _ => rfl) ?ackProxied, fun h q ack i p ok o => gives_of (fun _ => rfl) ?ackBeat,
    fun h ok o => gives_of (fun _ => rfl) ?again, fun h ok o => gives_of (fun _ => rfl) ?timeout,
    fun h => gives_of (fun _ => rfl) ?beat, fun h => gives_of (fun _ => rfl) ?retry, fun h => gives_of (fun _ => rfl) ?idle,
    fun h => gives_of (fun _ => rfl) ?cxpBeat, fun h => gives_of (fun _ => rfl) ?cxpLost,
    fun h q st p ok => gives_of (fun _ => rfl) ?cxpReady, fun h q st p ok o => gives_of (fun _ => rfl) ?cxpAnswer,
    fun h q st p ok => gives_of (fun _ => rfl) ?cxpTrigger, fun h due => gives_of (fun _ => rfl) ?params,
    fun ok k start => gives_of (fun _ => rfl) ?deadline⟩
  case discard =>
    rintro s ⟨hp, hu, hf⟩
    simp [hp, hu, hf]
  case answer =>
    rintro s ⟨hp, hu, hf⟩
    simp [hp, hu, hf]
  case handed =>
    rintro s ⟨hp, hu, hf | hf | hf⟩ <;> simp [hp, hu, hf]
  case event =>
    rintro s ⟨hp, hu, hf⟩
    simp [hp, hu, hf]
  case noModule =>
    rintro s ⟨hb, hw, ht, hs⟩
    simp [hb, hw, ht, hs]
  case module =>
    rintro s ⟨hb, hw, ht, hs, hc, hr, hl⟩
    simp [hb, hw, ht, hs, hc, hr, hl] <;> rfl
  case ackProxied =>
    rintro s ⟨ho, rfl, hp, ht⟩
    simp [ho, hp, ht]
  case ackBeat =>
    rintro s ⟨ho, rfl, hp, ht, hr⟩
    simp [ho, hp, ht, hr]
  case again =>
    rintro s ⟨ho, ht, hn, hp⟩
    simp [ho, Nat.not_lt.mpr ht, hn, hp]
  case timeout =>
    rintro s ⟨ho, ht, hn, hg⟩
    simp [ho, Nat.not_lt.mpr ht, Nat.not_lt.mpr hn, hg, probe]
  case beat =>
    rintro s ⟨hr, hp, ht, ha, hs, hj⟩
    have hj' : (headJobs (headOf s h)).any (fun j => j.tag == 1 && j.ref == 0) = false := by
      simp only [List.any_eq_false, beq_iff_eq, Bool.and_eq_true, not_and] at hj ⊢
      exact fun j hm hg => absurd hg (hj j hm)
    simp [hr, hp, ht, ha, hs, hj']
  case retry =>
    rintro s ⟨hl, ho, ht⟩
    simp [hl, ho, ht]
  case idle =>
    rintro s ⟨hl, ht⟩
    simp [hl, ht]
  case cxpBeat =>
    rintro s ⟨hp, ho, hu, ht⟩
    simp [hp, ho, hu, ht]
  case cxpLost =>
    rintro s ⟨hp, hr, ht⟩
    simp [hp, hr, ht]
  case cxpReady =>
    rintro s ⟨hp, hc⟩
    simp [hp, hc, hsConnecting, hsOff]
  case cxpAnswer =>
    rintro s ⟨hp, hn, ho, rfl, ht⟩
    simp [hp, hn, ho, ht]
  case cxpTrigger =>
    rintro s ⟨hp, hn⟩
    simp [hp, hn]
  case params =>
    rintro s ⟨rfl, -⟩
    rfl
  case deadline =>
    rintro s ⟨hk, hh, ht, ha, hl, rfl⟩
    have hg : (decide (48 ≤ k.head) || decide (since s k.since < usTicks 1500) || !s.mbx.answering) = false := by
      simp [hh, ht, ha]
    have hi := fun start => issueTicket_ok (args := []) (start := start) (s := { s with mbx := { s.mbx with hold := none } }) hl
    have hb : stInProgress ≠ stBusy := by decide
    simp only [hk, hg, hi, if_neg hb, complete_empty, Bool.false_eq_true, ↓reduceIte]

/-! Streams and lines -/

/-- A leader is what the device can refuse to take (R188). -/
theorem kind_of_leaderBad {c : StreamCfg} {p : StreamPacket} {k : Nat} (h : leaderBad c p = some k) : p.kind = 0 := by
  unfold leaderBad at h
  split at h
  · cases h
  · simpa using ‹¬(p.kind != 0) = true›

/-- Settles O45: each packet meets one branch of `streamPacketRx`; a timeout's search finds the block or gap the statement names. -/
theorem streamEventsAct : Obligations.StreamEventsAct := by
  unfold Obligations.StreamEventsAct
  refine ⟨fun p => gives_of (fun _ => rfl) ?notReady, fun p n c => gives_of (fun _ => rfl) ?wrongGige,
    fun p => gives_of (fun _ => rfl) ?undeclared, fun p n c => gives_of (fun _ => rfl) ?gige, fun p n c => gives_of (fun _ => rfl) ?cxp,
    fun p n k c => gives_of (fun _ => rfl) ?leader, fun p n c b => gives_of (fun _ => rfl) ?unavailable,
    fun n c b => gives_of (fun _ => rfl) ?closes, fun n c b => gives_of (fun _ => rfl) ?closesGap,
    fun n c => gives_of (fun _ => rfl) ?requests, fun n c b g => gives_of (fun _ => rfl) ?again,
    fun n c b g => gives_of (fun _ => rfl) ?givenUp⟩
  case notReady =>
    rintro s ⟨hr, ho⟩
    simp [streamPacketRx, hr, ho]
  case wrongGige =>
    rintro s ⟨hr, hn, hc, hp, hx⟩
    simp [streamPacketRx, hr, hn, hc, hp, hx]
  case undeclared =>
    rintro s ⟨hr, hn, hp⟩
    simp [streamPacketRx, hr, hn, hp]
  case gige =>
    rintro s ⟨hr, hn, hc, hp, hx, ha, hk, hl, hd⟩
    simp [streamPacketRx, hr, hn, hc, hp, hx, ha, hk, hl, hd]
  case cxp =>
    rintro s ⟨hr, hn, hc, hp, hx, hk, hl, hd⟩
    rcases hx with hx | hx <;> simp [streamPacketRx, hr, hn, hc, hp, hk, hl, hd, hx]
  case leader =>
    rintro s ⟨hr, hn, hc, hg, hx, hl, hd⟩
    have hk : p.kind = 0 := kind_of_leaderBad hl
    by_cases hp : (headSet s p.head).protocol = 1
    · obtain ⟨he, ha⟩ := hg hp
      simp [streamPacketRx, hr, hn, hc, hp, he, ha, hk, hl, hd]
    · simp [streamPacketRx, hr, hn, hc, hp, hx hp, hk, hl, hd]
  case unavailable =>
    rintro s ⟨hr, hn, hc, hp, hx, ha, hk, hb⟩
    simp [streamPacketRx, hr, hn, hc, hp, hx, ha, hk, hb]
  case closes =>
    rintro s ⟨hc, hb, ht, hl⟩
    simp [hc, hb, Nat.not_lt.mpr ht, Nat.not_le.mpr hl]
  case closesGap =>
    rintro s ⟨hc, hb, ht, hl⟩
    simp [hc, hb, Nat.not_lt.mpr ht, hl]
  case requests =>
    intro s hc
    simp [hc]
  case again =>
    rintro s ⟨hc, hf, hn⟩
    simp only [hc, hf, if_pos hn]
  case givenUp =>
    rintro s ⟨hc, hf, hn⟩
    simp only [hc, hf, if_neg (Nat.not_lt.mpr hn)]

/-- Settles O46: a line by its place in the frame, a wait by what its line has been flagged. -/
theorem lineEventsAct : Obligations.LineEventsAct := by
  unfold Obligations.LineEventsAct
  refine ⟨fun n c b => gives_of (fun _ => rfl) ?inOrder, fun n c b => gives_of (fun _ => rfl) ?past,
    fun n => gives_of (fun _ => rfl) ?stop, fun n l => gives_of (fun _ => rfl) ?padded, fun n l => gives_of (fun _ => rfl) ?again,
    gives_of (fun _ => rfl) ?stripe⟩
  case inOrder =>
    rintro s ⟨hs, hc, hb, hl⟩
    simp [lineComplete, hs, hc, hb, Nat.not_le.mpr hl]
  case past =>
    rintro s ⟨hs, hc, hb, hl⟩
    simp [lineComplete, hs, hc, hb, hl]
  case stop =>
    intro s hs
    simp [lineComplete, hs, countFrame]
  case padded =>
    rintro s ⟨hl, ht, hp⟩
    simp [hl, Nat.not_lt.mpr ht, passPadded, hp]
  case again =>
    rintro s ⟨hl, ht, hp⟩
    simp [hl, Nat.not_lt.mpr ht, passPadded, hp]
  case stripe =>
    rintro s ⟨hf, ht⟩
    simp [hf, Nat.not_lt.mpr ht]

end Sys2Proof.Machine

/-! Proofs about the events of the beds, of the graphs and engines, and of regions and tiles. -/

namespace Sys2Proof.Machine

/-! Beds -/

/-- Settles O47: the row of a ready bed is `bedRowEmit_ready`; the serve and the expiry are decided by their conditions. -/
theorem bedEventsAct : Obligations.BedEventsAct := by
  unfold Obligations.BedEventsAct
  refine ⟨fun bed n credits l img => gives_of (fun _ => rfl) ?serve, fun grid t g late => gives_of (fun _ => rfl) ?expiry,
    fun bed grid refetch gate t u => gives_of (fun _ => rfl) ?row⟩
  case serve =>
    rintro s ⟨rfl, hp, hl⟩
    cases hs : streamCfg (bedImage s bed) n <;> simp only [hp, hl, hs] <;> rfl
  case expiry =>
    rintro s ⟨hg, hx, hc, he, ht, rfl, hm⟩
    have hm' : ((membersOf s grid).filter (fun n => !memberPresent s n g.g)).isEmpty = false := by simpa using hm
    simp [hx, hc, he, Nat.not_le.mpr hg, Nat.not_lt.mpr ht, hm']
  case row =>
    rintro s ⟨hs, rfl, hg, ht, hr, ha⟩
    exact bedRowEmit_ready hs hg ht hr ha

/-! Graphs and engines -/

/-- A fault of an engine that serves a slot starts the tests where the tile has its spare, or else takes the engine (R268). -/
theorem faultOf_slot {e k : Nat} {s : State} (hr : retiredEngine s e = false) (hk : slotOfEngine s e = some k) : faultOf e s =
    if hasSpare s (e / 17) = true then startTest (e / 17) (k % 16) none none s else loseSlot k false (retire e s) := by
  simp [faultOf, hr, hk]

/-- A shadow check of a row that has run, in a tile with its spare and without tests, is kept where it agrees and starts the tests where it
differs (R267). -/
theorem shadowCheck_live {tile slot g : Nat} {row : Int} {run : Run} {same : Bool} {s : State} (ht : tile < 32) (hk : slot < 16)
    (hg : graphOnSlot s (tile * 16 + slot) = some g) (hr : (graphOf s g).run = some run) (hl : ∀ q, run.lastG = some q → row ≤ q)
    (hq : run.lastG.isSome = true) (hs : hasSpare s tile = true) (hn : tfind s.fab.fab.tests tile = none) (hrr : (graphOf s g).rerun = none)
    (hst : (graphOf s g).stopped = false) (hi : s.fault.inject = none) : shadowCheck tile slot row same s =
      if same = true then tileCount tile 0 (setRun g { run with
        passed := tput run.passed (tile * 16 + slot) (max row ((tfind run.passed (tile * 16 + slot)).getD row)) } s)
      else startTest tile slot (some row) none (tileCount tile 1 s) := by
  obtain ⟨q, hq⟩ := Option.isSome_iff_exists.mp hq
  simp [shadowCheck, hg, hr, hq, Nat.not_le.mpr ht, Nat.not_le.mpr hk, Int.not_lt.mpr (hl q hq), hs, hn, hrr, hst, hi]

/-- Settles O48: each condition picks one branch of the graph's, engine's or sprint's event. -/
theorem graphEventsAct : Obligations.GraphEventsAct := by
  unfold Obligations.GraphEventsAct
  refine ⟨fun g ups => gives_of (fun _ => rfl) ?row, fun g ups => gives_of (fun _ => rfl) ?forwarded,
    fun tile slot g row run => gives_of (fun _ => rfl) ?agrees, fun tile slot g row run => gives_of (fun _ => rfl) ?differs,
    fun e => gives_of (fun _ => rfl) ?corrected, fun e k => gives_of (fun _ => rfl) ?uncorrected,
    fun e => gives_of (fun _ => rfl) ?waits, fun tile a b k => gives_of (fun _ => rfl) ?tested,
    fun g r t => gives_of (fun _ => rfl) ?rerunLast, fun g r q rest t => gives_of (fun _ => rfl) ?rerunNext,
    gives_of (fun _ => rfl) ?starts, gives_of (fun _ => rfl) ?startAsked, gives_of (fun _ => rfl) ?endAsked,
    fun c => gives_of (fun _ => rfl) ?ends⟩
  case row =>
    intro s hf
    simp [graphRow, hf]
  case forwarded =>
    intro s hf
    simp [graphRow, hf]
  case agrees =>
    rintro s ⟨ht, hk, hg, hr, hl, hq, hs, hn, hrr, hst, hi⟩
    exact shadowCheck_live ht hk hg hr hl hq hs hn hrr hst hi
  case differs =>
    rintro s ⟨ht, hk, hg, hr, hl, hq, hs, hn, hrr, hst, hi⟩
    exact shadowCheck_live ht hk hg hr hl hq hs hn hrr hst hi
  case corrected =>
    rintro s ⟨he, hr⟩
    simp [engineEcc, Nat.not_le.mpr he, hr]
  case uncorrected =>
    rintro s ⟨he, hr, hk, ht⟩
    have hf := faultOf_slot (s := bump 14 3 (tileCount (e / 17) 6 s)) hr hk
    have hs : hasSpare (bump 14 3 (tileCount (e / 17) 6 s)) (e / 17) = hasSpare s (e / 17) := rfl
    rw [hs] at hf
    simp [engineEcc, Nat.not_le.mpr he, hr, ht, hf]
  case waits =>
    rintro s ⟨he, hr, ht⟩
    simp [engineEcc, Nat.not_le.mpr he, hr, ht]
  case tested =>
    rintro s ⟨hk, ht, hi⟩
    simp only [testDone, hk, if_neg (Nat.not_lt.mpr ht), hi]
    rfl
  case rerunLast =>
    rintro s ⟨hr, rfl, hn⟩
    simp only [rerunComplete, hr, hn]
  case rerunNext =>
    rintro s ⟨hr, rfl, hn, hx⟩
    simp [rerunComplete, hr, hn, hx]
  case starts =>
    rintro s ⟨ha, ho, hw, hb⟩
    simp [sprintStart, enterSprint, ha, ho, hw, hb]
  case startAsked =>
    rintro s ⟨ha, ho, hw, hb⟩
    simp [sprintStart, ha, ho, hw, hb]
  case endAsked =>
    rintro s ⟨ha, ho, hc⟩
    simp [sprintEnd, ha, ho, hc]
  case ends =>
    rintro s ⟨ha, ho, hc⟩
    simp [sprintEnd, leaveSprint, ha, ho, hc]

/-! Regions and tiles -/

/-- An event that ends in its effect on the states of the condition gives it there, whatever its outcome is elsewhere. -/
theorem gives_of_exec {i : Instr} {ok : State → Prop} {f : State → State} (h : ∀ s, ok s → exec i s = done (f s)) : Gives i ok f :=
  fun s hs => h s hs

/-- Settles O49: the first region or tile and what is said of it pick the branch. -/
theorem regionAndTileEventsAct : Obligations.RegionAndTileEventsAct := by
  unfold Obligations.RegionAndTileEventsAct
  refine ⟨fun g => gives_of (fun _ => rfl) ?idle, fun g k run r rest rows m => gives_of (fun _ => rfl) ?fetched,
    fun c rest => gives_of (fun _ => rfl) ?small, fun c rest => gives_of (fun _ => rfl) ?core,
    fun c rest => gives_of (fun _ => rfl) ?emitted, fun t rest => gives_of_exec ?cut, fun t rest => gives_of_exec ?expired⟩
  case idle =>
    rintro s ⟨hh, hr⟩
    simp [contextFetchDone, hh, hr]
  case fetched =>
    rintro s ⟨hh, hr, hi, hf, hs, hl, rfl⟩
    simp [contextFetchDone, hh, hr, hi, hf, hs, hl]
  case small =>
    rintro s ⟨hc, ht⟩
    simp [regionClose, hc, ht]
  case core =>
    rintro s ⟨hc, ht, hn⟩
    simp [regionClose, hc, ht, hn]
  case emitted =>
    rintro s ⟨hc, ht, hn, hg⟩
    simp [regionClose, hc, ht, hn, hg]
  case cut =>
    rintro s ⟨hc, hr, hm⟩
    simp [exec, execTileCutStart, cutNext, hc, hr, hm]
  case expired =>
    rintro s ⟨hc, hr, hm, ht⟩
    simp [exec, execTileWaitExpiry, cutNext, hc, hr, hm, ht]

end Sys2Proof.Machine

/-! Proofs about the events of the furrows, of the ports and of the functions. -/

namespace Sys2Proof.Machine

/-! Furrows -/

/-- A read of descriptors that the device owns all of gives them all (R341). -/
theorem takeWhile_descOwn {b : Bytes} {n : Nat} (h : ∀ i < n, descOwn (fitTo 32 (b.drop (32 * i))) = true) :
    ((List.range n).map (fun i => fitTo 32 (b.drop (32 * i)))).takeWhile descOwn
      = (List.range n).map (fun i => fitTo 32 (b.drop (32 * i))) := by
  have hall : ∀ d ∈ (List.range n).map (fun i => fitTo 32 (b.drop (32 * i))), descOwn d = true := by
    intro d hd
    obtain ⟨i, hi, rfl⟩ := List.mem_map.mp hd
    exact h i (List.mem_range.mp hi)
  simpa only [List.takeWhile_nil, List.append_nil] using List.takeWhile_append_of_pos (l₂ := []) hall

/-- Settles O50: the furrow's state and what it holds pick the branch of each event. -/
theorem furrowEventsAct : Obligations.FurrowEventsAct := by
  unfold Obligations.FurrowEventsAct
  refine ⟨fun fn i tail n => gives_of (fun _ => rfl) ?fetches, fun fn i tail n => gives_of (fun _ => rfl) ?pastRing,
    fun fn i tail n => gives_of (fun _ => rfl) ?standby, fun n b timeout own => gives_of (fun _ => rfl) ?read,
    fun n timeout => gives_of (fun _ => rfl) ?failed, fun n timeout => gives_of (fun _ => rfl) ?again,
    fun u rest => gives_of (fun _ => rfl) ?unit, fun n sub src b rest => gives_of (fun _ => rfl) ?full,
    fun n sub src => gives_of (fun _ => rfl) ?work, fun n b => gives_of (fun _ => rfl) ?flush, fun n => gives_of (fun _ => rfl) ?irq,
    fun r b c => gives_of (fun _ => rfl) ?block, fun n good tail f d ds => gives_of (fun _ => rfl) ?burstWork,
    fun n good tail f b rest => gives_of (fun _ => rfl) ?burstUnits⟩
  case fetches =>
    rintro s ⟨hb, hd, hr, hl⟩
    have hs : fsRunning ≠ fsStandby := by decide
    simp only [doorbellWrite, hb, hd, hr, hs, Nat.not_lt.mpr hl, Bool.not_true, Bool.or_self, Bool.false_eq_true, ne_eq, not_true_eq_false,
      ↓reduceIte]
  case pastRing =>
    rintro s ⟨hb, hd, hr, hl⟩
    have hs : fsRunning ≠ fsStandby := by decide
    simp only [doorbellWrite, hb, hd, hr, hs, hl, Bool.not_true, Bool.or_self, Bool.false_eq_true, ne_eq, not_true_eq_false, ↓reduceIte]
  case standby =>
    rintro s ⟨hb, hd, hs⟩
    simp [doorbellWrite, hb, hd, hs]
  case read =>
    rintro s ⟨hr, hf, rfl, ho⟩
    simp [fetchDone, hr, hf, takeWhile_descOwn ho]
  case failed =>
    rintro s ⟨hr, hf, ht⟩
    simp [fetchDone, hr, hf, ht]
  case again =>
    rintro s ⟨hr, hf, ht⟩
    simp [fetchDone, hr, hf, ht]
  case unit =>
    intro s hu
    simp [unitHandoff, hu]
  case full =>
    rintro s ⟨hr, hb⟩
    have hr' : ((furrowOf s n).st != fsRunning && (furrowOf s n).st != fsFault) = false := by
      rcases hr with hr | hr <;> simp [hr]
    simp [descriptorWriteback, hr', hb]
  case work =>
    rintro s ⟨hr, hb, ht⟩
    simp [descriptorWriteback, hr, hb, ht]
  case flush =>
    rintro s ⟨hb, ht⟩
    simp [packFlush, hb, Nat.not_lt.mpr ht]
  case irq =>
    rintro s ⟨hi, hu, ht⟩
    simp [irqTimer, hi, hu, Nat.not_lt.mpr ht]
  case block =>
    rintro s ⟨ht, hb, hc⟩
    simp [closeRowBlock, Nat.not_lt.mpr ht, hb, hc]
  case burstWork =>
    rintro s ⟨hr, hc, hd, ho, hk⟩
    simp [burstError, hr, hc, hd, ho, hk]
  case burstUnits =>
    rintro s ⟨hr, hc, hf, hb, hn, hk⟩
    simp [burstError, hr, hc, hf, hb, hn, hk]

/-! Ports and functions -/

/-- Settles O51: `setMask` sends a vector that is pending when its mask is taken away, and the other events have one guard each. -/
theorem functionEventsAct : Obligations.FunctionEventsAct := by
  unfold Obligations.FunctionEventsAct
  refine ⟨fun p u => gives_of (fun _ => rfl) ?loss, fun fn u => gives_of (fun _ => rfl) ?reset,
    fun fn v e => gives_of (fun _ => rfl) ?pending, fun fn v e => gives_of (fun _ => rfl) ?unmasked,
    fun p rate width => gives_of (fun _ => rfl) ?linkUp, fun p c enable => gives_of (fun _ => rfl) ?config⟩
  case loss =>
    rintro s ⟨hp, hl⟩
    simp [portLoss, hp, hl]
  case reset =>
    intro s hf
    simp [hf]
  case pending =>
    rintro s ⟨rfl, hv, hw, hp⟩
    simp [setMask, hv, hw, hp]
  case unmasked =>
    rintro s ⟨rfl, hv, hw, hp⟩
    simp [setMask, hv, hw, hp]
  case linkUp =>
    rintro s ⟨hp, h1, h6, hn, hm, hr, hw⟩
    simp [hp, h1, h6, hn, hm, hr, hw]
  case config =>
    rintro s ⟨hp, hd⟩
    simp only [if_neg (Nat.not_le.mpr hp), configWrite, Nat.mod_eq_of_lt hd]

end Sys2Proof.Machine

/-! Proofs about the events of a trellis: its links and formation, the loss of its roles, its two-phase commit and its digests. -/

namespace Sys2Proof.Machine

/-! What a control flit that was taken leads to -/

/-- A control flit that is taken is handed to its event. -/
theorem onControl_taken {first msg : Nat} {act : Ctl → State → State} {s t : State} {c : Ctl} (h : takeControl first msg s = (some c, t)) :
    onControl first msg act s = act c t := by
  simp [onControl, h]

/-- What the master of a formed trellis sends along the ring is acted on (R381). -/
theorem downward_taken {first msg : Nat} {act : Ctl → State → State} {s t : State} {c : Ctl} (h : takeControl first msg s = (some c, t))
    (hf : formed t = true) (hr : c.side ≠ 2) (hm : c.src = t.trel.master) : downward first msg act s = act c t := by
  simp [downward, onControl_taken h, hf, hr, hm]

/-- A member's answer on the ring to its own master is acted on (R381). -/
theorem takeAnswer_master {msg : Nat} {act : Nat → Ctl → State → State} {t : State} {c : Ctl} (hm : t.trel.st = tsMaster) (hr : c.side ≠ 2)
    (hs : c.scope ≠ 1) : takeAnswer msg act c t = act c.src c t := by
  simp [takeAnswer, hm, hr, hs, tsMaster, tsManager]

theorem upward_taken {first msg : Nat} {act : Nat → Ctl → State → State} {s t : State} {c : Ctl} (h : takeControl first msg s = (some c, t))
    (hm : t.trel.st = tsMaster) (hr : c.side ≠ 2) (hs : c.scope ≠ 1) : upward first msg act s = act c.src c t := by
  rw [upward, onControl_taken h, takeAnswer_master hm hr hs]

/-! Links and formation -/

/-- Settles O52: what is heard is handed on by `onControl_taken`, and a repetition that was never made is due. -/
theorem trellisLinkEventsAct : Obligations.TrellisLinkEventsAct := by
  unfold Obligations.TrellisLinkEventsAct
  refine ⟨gives_of (fun _ => rfl) ?send, fun first c t => gives_of (fun _ => rfl) ?spur, fun first c t => gives_of (fun _ => rfl) ?ring,
    fun t => gives_of (fun _ => rfl) ?master, gives_of (fun _ => rfl) ?deputy, fun first c t => gives_of (fun _ => rfl) ?formed,
    fun first sub => gives_of (fun _ => rfl) ?aux, fun first sub => gives_of (fun _ => rfl) ?timeSent,
    fun first dc sub b t => gives_of (fun _ => rfl) ?time, gives_of (fun _ => rfl) ?sample,
    fun first b t => gives_of (fun _ => rfl) ?ringPos, fun first b t => gives_of (fun _ => rfl) ?estatePos⟩
  case send =>
    rintro s ⟨ha, ht⟩
    cases hl : s.trel.helloAt with
    | none => simp [helloSend, ha, hl]
    | some t => simp [helloSend, ha, hl, ht t hl]
  case spur =>
    rintro s ⟨hc, hd⟩
    simp [onControl_taken hc, hd]
  case ring =>
    rintro s ⟨hc, hd, ha, hm⟩
    simp [onControl_taken hc, hd, ha, hm]
  case master =>
    rintro s ⟨hj, hc, hs, hr, hf, ht⟩
    simp [formationTimeout, hj, hc, hs, hr, hf, ht]
  case deputy =>
    rintro s ⟨hj, hc, hs, hr, ht, hm, hl⟩
    have hm' : s.trel.members.any (fun e => e.1 != ownId s && e.2.strap == 2 && heardWithin s e.1 (secTicks 2)) = false := by
      simp only [List.any_eq_false, Bool.and_eq_true, bne_iff_ne, beq_iff_eq, not_and]
      rintro e he ⟨h1, h2⟩ h3
      exact hm e he h1 ⟨h2, h3⟩
    have hl' : (presentMembers s).any (fun d => decide (d < ownId s) && (memberOf s d).strap == 1) = false := by
      simp only [List.any_eq_false, Bool.and_eq_true, decide_eq_true_eq, beq_iff_eq]
      exact hl
    simp [formationTimeout, hj, hc, hs, hr, hm', hl', ht]
  case formed =>
    rintro s ⟨hc, hd, hb, hn, hj⟩
    simp [onControl_taken hc, takeFormed, hd, hb, hn, hj]
  case aux =>
    intro s ha
    simp [timeFlitSend, ha]
  case timeSent =>
    rintro s ⟨hu, ha, ht⟩
    cases hl : (linkOf s first).sent with
    | nil => simp [timeFlitSend, hu, ha, hl]
    | cons e rest =>
      have := ht e (by simp [hl])
      simp [timeFlitSend, hu, ha, hl, this]
  case time =>
    rintro s ⟨hp, he⟩
    simp [timeFlit, hp, he]
  case sample =>
    rintro s ⟨hm, ha, ht⟩
    cases hl : s.trel.sampleAt with
    | none => simp [positionSample, hm, ha, hl]
    | some t => simp [positionSample, hm, ha, hl, ht t hl]
  case ringPos =>
    rintro s ⟨hp, hk, hd⟩
    simp [positionFlit, hp, hk, hd]
  case estatePos =>
    rintro s ⟨hp, hk, hd⟩
    simp [positionFlit, hp, hk, hd]

/-! Roles -/

/-- Settles O53: each condition is the guard of its event. -/
theorem trellisRoleEventsAct : Obligations.TrellisRoleEventsAct := by
  unfold Obligations.TrellisRoleEventsAct
  refine ⟨fun t => gives_of (fun _ => rfl) ?late, fun t => gives_of (fun _ => rfl) ?isolated,
    fun t lower => gives_of (fun _ => rfl) ?claims, fun first c t => gives_of (fun _ => rfl) ?claimed,
    fun first c t => gives_of (fun _ => rfl) ?handed, fun d i => gives_of (fun _ => rfl) ?lost, fun t i => gives_of (fun _ => rfl) ?detached⟩
  case late =>
    rintro s ⟨hd, hs, ht⟩
    simp [hd, hs, Nat.not_lt.mpr ht] <;> rfl
  case isolated =>
    rintro s ⟨hs, hm, ht⟩
    simp [hs, hm, Nat.not_lt.mpr ht]
  case claims =>
    rintro s ⟨hs, hm, hl, hc, hw, ht⟩
    rw [hw] at ht
    simp only [masterLost, hs]
    exact if_pos (by simp only [decide_eq_true hm, hl, hc, decide_eq_true ht, Bool.and_self])
  case claimed =>
    rintro s ⟨hc, hd⟩
    simp [onControl_taken hc, hd]
  case handed =>
    rintro s ⟨hc, hd, hs, hi, hm, hl, hh⟩
    simp [onControl_taken hc, hd, hs, hi, hm, hl, hh]
  case lost =>
    rintro s ⟨hf, hd, hr, hl, he, hw, hi⟩
    cases h1 : (memberOf s d).heardEast with
    | none =>
      cases h2 : (memberOf s d).heardWest with
      | none => simp [hf, hd, hr, hl, hi, h1, h2]
      | some u => simp [hf, hd, hr, hl, hi, h1, h2, hw u h2]
    | some t =>
      cases h2 : (memberOf s d).heardWest with
      | none => simp [hf, hd, hr, hl, hi, h1, h2, he t h1]
      | some u => simp [hf, hd, hr, hl, hi, h1, h2, he t h1, hw u h2]
  case detached =>
    rintro s ⟨hs, hm, ha, ht, hi⟩
    simp [hs, hm, ha, Nat.not_lt.mpr ht, hi]

/-! The two-phase commit and the digests -/

/-- Settles O54: what is heard goes through `downward_taken` and `upward_taken`, the timeouts have one guard each. -/
theorem trellisCommitEventsAct : Obligations.TrellisCommitEventsAct := by
  unfold Obligations.TrellisCommitEventsAct
  refine ⟨fun first c t => gives_of (fun _ => rfl) ?prepare, fun first c t => gives_of (fun _ => rfl) ?copy,
    fun first c t => gives_of (fun _ => rfl) ?prepared, fun t k => gives_of (fun _ => rfl) ?silent,
    fun first c t => gives_of (fun _ => rfl) ?commit, fun t pc => gives_of (fun _ => rfl) ?again,
    fun first c t => gives_of (fun _ => rfl) ?armed, fun first c t => gives_of (fun _ => rfl) ?abort,
    fun x => gives_of (fun _ => rfl) ?expiry, fun first c t => gives_of (fun _ => rfl) ?applied,
    fun first c t => gives_of (fun _ => rfl) ?noted, fun t u => gives_of (fun _ => rfl) ?part, gives_of (fun _ => rfl) ?sweep,
    fun first c t => gives_of (fun _ => rfl) ?asked, fun first c t => gives_of (fun _ => rfl) ?digest⟩
  case prepare =>
    rintro s ⟨hc, hf, hd, hm, hw, hp⟩
    simp [downward_taken hc hf hd hm, hw, hp]
  case copy =>
    rintro s ⟨hc, hf, hd, hm, hp⟩
    simp [downward_taken hc hf hd hm, hp]
  case prepared =>
    rintro s ⟨hc, hm, hd, hs⟩
    exact upward_taken hc hm hd hs
  case silent =>
    rintro s ⟨ht, hk, hp, hl⟩
    simp only [ht, hk, hp, hl]
    rfl
  case commit =>
    rintro s ⟨hc, hf, hd, hm⟩
    exact downward_taken hc hf hd hm
  case again =>
    rintro s ⟨ht, hp, hl⟩
    simp only [ht, hp, if_neg (Nat.not_lt.mpr hl)]
  case armed =>
    rintro s ⟨hc, hm, hd, hs⟩
    exact upward_taken hc hm hd hs
  case abort =>
    rintro s ⟨hc, hf, hd, hm⟩
    exact downward_taken hc hf hd hm
  case expiry =>
    rintro s ⟨hx, hl⟩
    simp [hx, hl]
  case applied =>
    rintro s ⟨hc, hm, hd, hs⟩
    simp [onControl_taken hc, takeAnswer_master hm hd hs, hm, hs]
  case noted =>
    rintro s ⟨hc, hm, hd⟩
    simp [onControl_taken hc, takeAnswer, formed, hm, hd, tsMember, tsManager, tsMaster]
  case part =>
    rintro s ⟨ht, hu, hl⟩
    simp only [ht, hu, if_neg (Nat.not_lt.mpr hl)]
  case sweep =>
    rintro s ⟨hc, ha, ht⟩
    cases hl : s.trel.sweepAt with
    | none => simp [digestSweep, hc, ha, hl]
    | some t => simp [digestSweep, hc, ha, hl, ht t hl]
  case asked =>
    rintro s ⟨hc, hf, hd, hm⟩
    exact downward_taken hc hf hd hm
  case digest =>
    rintro s ⟨hc, hm, hd, hs⟩
    exact upward_taken hc hm hd hs

end Sys2Proof.Machine

/-! Proofs about the events that lead to a start, and about the starts. -/

namespace Sys2Proof.Machine

/-! Causes -/

theorem hostPort_setStart (x : StartSt) (s : State) (p : Nat) : hostPort (setStart x s) p = hostPort s p := rfl

/-- Settles O55: each condition decides the event's guard. -/
theorem startCausesAct : Obligations.StartCausesAct := by
  unfold Obligations.StartCausesAct
  refine ⟨gives_of (fun _ => rfl) ?rst, fun role boot test => gives_of (fun _ => rfl) ?release,
    fun p u => gives_of (fun _ => rfl) ?portUp, fun p u => gives_of (fun _ => rfl) ?portDown, fun p u => gives_of (fun _ => rfl) ?perstHigh,
    gives_of (fun _ => rfl) ?brown, gives_of (fun _ => rfl) ?pll, gives_of (fun _ => rfl) ?dog, fun t => gives_of (fun _ => rfl) ?success,
    gives_of (fun _ => rfl) ?beat, fun t => gives_of (fun _ => rfl) ?kept⟩
  case rst =>
    intro s _
    rfl
  case release =>
    rintro s ⟨hr, hh⟩
    simp [hr, hh]
  case portUp =>
    rintro s ⟨hp, hb, hl⟩
    simp [Nat.not_le.mpr hp, hb, hostPort_setStart, Nat.not_lt.mpr hl]
  case portDown =>
    rintro s ⟨hp, hb, hl⟩
    simp [Nat.not_le.mpr hp, hb, hostPort_setStart, hl]
  case perstHigh =>
    rintro s ⟨hp, hb⟩
    simp [Nat.not_le.mpr hp, hb]
  case brown =>
    intro s hr
    simp [hr]
  case pll =>
    intro s hr
    simp [hr]
  case dog =>
    rintro s ⟨ha, hs, hd, ht⟩
    simp [ha, hs, hd, Nat.not_lt.mpr ht]
  case success =>
    rintro s ⟨hi, hs, ht⟩
    simp [hi, hs, Nat.not_lt.mpr ht]
  case beat =>
    rintro s ⟨ha, ht⟩
    exact if_neg (by simp [ha, ht])
  case kept =>
    rintro s ⟨hk, ht⟩
    simp [hk, Nat.not_lt.mpr ht]

/-! Starts -/

/-- Settles O56: the due start's kind and what the fresh or begun state holds pick the branch; its effect is not looked into. -/
theorem startsAct : Obligations.StartsAct := by
  unfold Obligations.StartsAct
  refine ⟨fun f d t => gives_of (fun _ => rfl) ?safe, fun f d n rest t u => gives_of (fun _ => rfl) ?cold,
    fun f d n t => gives_of (fun _ => rfl) ?warm, fun ms d => gives_of (fun _ => rfl) ?begins, fun ms d => gives_of (fun _ => rfl) ?ends,
    fun stage d => gives_of (fun _ => rfl) ?fails⟩
  case safe =>
    rintro s ⟨hd, hk, hr, hh, hl, hb, rfl⟩
    simp [coldStart, hd, hk, hr, hh, hl, hb]
  case cold =>
    rintro s ⟨hd, hk, hr, hh, hl, hb, hx, ht, rfl, ho⟩
    simp only at ht
    subst ht
    simp only [coldStart, hd, hk, hr, hh, hl, ho, ne_eq, not_true_eq_false, decide_false, Bool.or_self, Bool.false_eq_true, ↓reduceIte]
    simp only [hb, hx, Bool.false_eq_true, ↓reduceIte]
  case warm =>
    rintro s ⟨hd, hk, hr, hh, rfl, hn, hv, hm⟩
    simp [warmStart, hd, hk, hr, hh, hn, hv, Nat.not_le.mpr hm]
  case begins =>
    rintro s ⟨hd, hk, hr, hh, hw⟩
    simp [controlStart, hd, hk, hr, hh, hw]
  case ends =>
    rintro s ⟨hd, hk, hr, hh, hw⟩
    simp [controlStart, hd, hk, hr, hh, hw]
  case fails =>
    rintro s ⟨hd, hr, hh⟩
    simp [hd, hr, hh]

end Sys2Proof.Machine

/-! Proofs about calibration, faults and temperatures, and about the accesses from outside: the side band, the test port and the register
window. -/

namespace Sys2Proof.Machine

/-! Calibration -/

/-- A target that falls due and may start, with room for it, starts (R411, R412). -/
theorem calibrationDue_starts {k : Nat} {s t : State} (hk : calTargets.contains k = true) (hr : (calTarget s k).running = none)
    (ht : t = if (calTarget s k).due = false ∧ calFallsDue s k = true then setCal k { calTarget s k with due := true } s else s)
    (hl : k / 256 = calLane →
      ((List.range 64).filter (fun j => (calTarget t j).running.isSome)).length + ((List.range k).filter (calMayStart t)).length < 8
      ∧ ∀ j < k, (quadTarget j = quadTarget k ∨ (laneOf s j).set.mode = modeGraft ∧ (laneOf s j).set.first = (laneOf s k).set.first) →
        calMayStart t j = false)
    (hm : calMayStart t k = true) : calibrationDue k s = calStart k ((calTarget s k).waits.any (·.force)) t := by
  have hf : (k / 256 != calLane || (decide (((List.range 64).filter (fun j => (calTarget t j).running.isSome)).length
      + ((List.range k).filter (calMayStart t)).length < 8) && !((List.range k).filter (calMayStart t)).any (fun j =>
        quadTarget j == quadTarget k || (laneOf s j).set.mode == modeGraft && (laneOf s j).set.first == (laneOf s k).set.first))) = true := by
    by_cases hc : k / 256 = calLane
    · obtain ⟨hroom, hlower⟩ := hl hc
      have hn : ((List.range k).filter (calMayStart t)).any (fun j => quadTarget j == quadTarget k
          || (laneOf s j).set.mode == modeGraft && (laneOf s j).set.first == (laneOf s k).set.first) = false := by
        rw [List.any_eq_false]
        intro j hj hq
        obtain ⟨hjk, hjm⟩ := List.mem_filter.mp hj
        rw [hlower j (List.mem_range.mp hjk) (by simpa using hq)] at hjm
        cases hjm
      rw [decide_eq_true hroom, hn]
      simp
    · simp [hc]
  have ht' : (if (!(calTarget s k).due && calFallsDue s k) = true then setCal k { calTarget s k with due := true } s else s) = t := by
    rw [ht]; simp only [Bool.and_eq_true, Bool.not_eq_true']
  simp only [calibrationDue, ht']
  rw [if_neg (by rw [hk, hr]; decide), if_pos (by rw [hm, hf]; rfl)]

/-- Settles O57: a target that falls due by `calibrationDue_starts`, the other events by their guards. -/
theorem calibrationEventsAct : Obligations.CalibrationEventsAct := by
  unfold Obligations.CalibrationEventsAct
  refine ⟨fun readings => gives_of (fun _ => rfl) ?readings, fun k => gives_of (fun _ => rfl) ?apply, fun k t => gives_of (fun _ => rfl) ?due,
    fun k t runs => gives_of (fun _ => rfl) ?finish, fun k => gives_of (fun _ => rfl) ?deferred, fun k => gives_of (fun _ => rfl) ?twin,
    fun m => gives_of (fun _ => rfl) ?stored, fun n x => gives_of (fun _ => rfl) ?notStored⟩
  case readings =>
    intro s ht
    simp [Nat.not_lt.mpr ht]
  case apply =>
    rintro s ⟨hw, hr, hk⟩
    obtain ⟨w, hw⟩ := Option.isSome_iff_exists.mp hw
    have hk' : (k / 256 == calLane || k / 256 == calTdc) = true := by simpa using hk
    simp [hw, hr, hk']
  case due =>
    rintro s ⟨hk, hr, ht, hl, hm⟩
    exact calibrationDue_starts hk hr ht hl hm
  case finish =>
    rintro s ⟨hr, ht⟩
    simp [hr, ht]
  case deferred =>
    rintro s ⟨hw, hd, ht⟩
    obtain ⟨w, hw⟩ := Option.isSome_iff_exists.mp hw
    simp [hw, hd, Nat.not_lt.mpr ht]
  case twin =>
    rintro s ⟨hw, hr, hn, hk, hg⟩
    obtain ⟨w, hw⟩ := Option.isSome_iff_exists.mp hw
    have hk' : (k / 256 == calTrg || k / 256 == calPps) = true := by simpa using hk
    simp [hw, hr, hn, hk', hg]
  case stored =>
    rintro s ⟨hw, hn, hd, ht, hm⟩
    cases hs : s.cal.storedAt with
    | none => cases m <;> simp [hw, hn, hd, hm]
    | some t => cases m <;> simp [hw, hn, hd, hm, Nat.not_lt.mpr (ht t hs)]
  case notStored =>
    rintro s ⟨hw, hn, hd, ht, rfl, rfl⟩
    cases hs : s.cal.storedAt with
    | none => rcases hm : calNewer s with _ | _ | m <;> simp [hw, hn, hd]
    | some t => rcases hm : calNewer s with _ | _ | m <;> simp [hw, hn, hd, Nat.not_lt.mpr (ht t hs)]

/-! Faults and temperatures -/

/-- Settles O58: each condition decides the event's guard. -/
theorem faultEventsAct : Obligations.FaultEventsAct := by
  unfold Obligations.FaultEventsAct
  refine ⟨fun m i g => gives_of (fun _ => rfl) ?sram, fun k ch => gives_of (fun _ => rfl) ?channel, fun k ch r => gives_of (fun _ => rfl) ?word,
    fun k ch => gives_of (fun _ => rfl) ?stack, fun c => gives_of (fun _ => rfl) ?scrub, fun now p tick => gives_of (fun _ => rfl) ?sample,
    fun now p => gives_of (fun _ => rfl) ?cooled, fun temp => gives_of (fun _ => rfl) ?trip, gives_of (fun _ => rfl) ?suppressed,
    fun fn mask => gives_of (fun _ => rfl) ?sticky, fun fn => gives_of (fun _ => rfl) ?peak⟩
  case sram =>
    intro s hm
    simp [Nat.not_lt.mpr hm]
  case channel =>
    rintro s ⟨hk, hc⟩
    simp [hbmFault, Nat.not_le.mpr hk, Nat.not_le.mpr hc]
  case word =>
    rintro s ⟨hk, hc, rfl⟩
    simp [hbmFault, Nat.not_le.mpr hk, Nat.not_le.mpr hc]
  case stack =>
    rintro s ⟨hk, hc⟩
    simp [hbmFault, Nat.not_le.mpr hk, Nat.not_le.mpr hc]
  case scrub =>
    intro s ht
    exact if_neg (Nat.not_lt.mpr ht)
  case sample =>
    rintro s ⟨hh, hr, hl, ht, hk⟩
    cases hs : s.fault.sampledAt with
    | none => simp [thermalSample, hh, hr, hl, hs, hk] <;> rfl
    | some t => simp [thermalSample, hh, hr, hl, hs, hk, Nat.not_lt.mpr (ht t hs)] <;> rfl
  case cooled =>
    rintro s ⟨hh, ht⟩
    simp [thermalSample, hh, ht]
  case trip =>
    rintro s ⟨ht, hh⟩
    simp [Int.not_lt.mpr ht, hh]
  case suppressed =>
    intro s ht
    exact if_neg (Nat.not_lt.mpr ht)
  case sticky =>
    rintro s ⟨hp, hw⟩
    simp [hp, hw]
  case peak =>
    rintro s ⟨hp, hw⟩
    simp [hp, hw]

/-! The side band, the test port and the register window -/

/-- The side band answers once the register window stands. -/
theorem smbReply_up {b : Bytes} {s : State} (h : s.start.windowUp = true) : smbReply b s = emit (.smbus b) s := if_pos h

/-- Settles O59: the answers go out where the register window stands, and a scan of the test port is one row of its table. -/
theorem sideBandAnswers : Obligations.SideBandAnswers := by
  unfold Obligations.SideBandAnswers
  refine ⟨fun k pec => gives_of (fun _ => rfl) ?temperature, fun pec => gives_of (fun _ => rfl) fun _ => smbReply_up,
    fun pec => gives_of (fun _ => rfl) fun _ => smbReply_up, fun pec => gives_of (fun _ => rfl) fun _ => smbReply_up,
    fun pec => gives_of (fun _ => rfl) fun _ => smbReply_up, fun pec => gives_of (fun _ => rfl) fun _ => smbReply_up,
    gives_of (fun _ => rfl) fun _ => smbReply_up, fun code => gives_of (fun _ => rfl) ?unknown, fun tdi => gives_of (fun _ => rfl) ?scanReset,
    fun tdi => gives_of (fun _ => rfl) ?scanId, fun tdi => gives_of (fun _ => rfl) ?scanBypass, fun tdi => gives_of (fun _ => rfl) ?readId,
    fun tdi => gives_of (fun _ => rfl) ?readBypass⟩
  case temperature =>
    rintro s ⟨hk, hw⟩
    simp only [if_pos hk, smbReply_up hw]
  case unknown =>
    rintro s ⟨hk, hw⟩
    simp only [hk, smbReply_up hw, Bool.false_eq_true, ↓reduceIte]
  case scanReset =>
    intro s _
    rfl
  case scanId =>
    intro s _
    rfl
  case scanBypass =>
    intro s _
    rfl
  case readId =>
    intro s hi
    simp only [tapScan, hi, ↓reduceIte]
  case readBypass =>
    intro s hi
    simp [tapScan, hi]

/-- Settles O60: an access passes where the window stands and the function exists. -/
theorem windowAccessesAct : Obligations.WindowAccessesAct := by
  unfold Obligations.WindowAccessesAct
  refine ⟨fun fn => gives_of (fun _ => rfl) ?latch, fun fn mask => gives_of (fun _ => rfl) ?cause,
    fun fn mask high => gives_of (fun _ => rfl) ?done, fun fn bar off data => gives_of (fun _ => rfl) ?four,
    fun fn bar off data => gives_of (fun _ => rfl) ?eight⟩
  case latch =>
    rintro s ⟨hw, hf, hp⟩
    exact if_pos (by rw [hw, hf, hp]; rfl)
  case cause =>
    rintro s ⟨hw, hf⟩
    exact if_pos (by rw [hw, hf]; rfl)
  case done =>
    rintro s ⟨hw, hf⟩
    exact if_pos (by rw [hw, hf]; rfl)
  case four =>
    rintro s ⟨hw, hf, ha⟩
    simp only [regWrite, hw, hf, ha, Bool.not_true, Bool.or_self, Bool.false_eq_true, decide_true, Bool.and_self, ↓reduceIte]
  case eight =>
    rintro s ⟨hw, hf, ha⟩
    simp only [regWrite, hw, hf, ha, Bool.not_true, Bool.or_self, Bool.false_eq_true, decide_true, Bool.and_self, ↓reduceIte]
    rfl

end Sys2Proof.Machine
